-- ==== Sys2Proof/Word.lean ====
section
/-! DEFINITION. Sys2Proof/Word.lean: the word types (00_scope.md R8, R11: registers are 64 bits wide, bit 0 is the
least significant bit) and the bounded index types of the parts an instance has (01_architecture.md R21). -/
namespace Sys2Proof

/-- A register or an 8 B memory word. -/
abbrev Word := BitVec 64
/-- One byte of memory. -/
abbrev Byte := BitVec 8
/-- A package address (04_zynsa_model.md R105). -/
abbrev PkgAddr := BitVec 48
/-- A run of bytes, the first at the lowest address (R8: little-endian). -/
abbrev Bytes := List Byte
/-- A pseudo-channel, pc00 to pc63, and its rill. -/
abbrev Pc := Fin 64
/-- A spare rill; spare m serves octet m. -/
abbrev Spare := Fin 8
/-- A spout, by its doorbell page number: 0 to 31 sluice, 32 + 4e + s jet, 160 the font (R97). -/
abbrev Sp := Fin 161
/-- A jet. -/
abbrev Jet := Fin 32
/-- A sluice channel. -/
abbrev Chan := Fin 32
/-- A fabric port. -/
abbrev FPort := Fin 8
/-- An aqueduct port: 0 east, 1 west. -/
abbrev APort := Fin 2
/-- A transaction slot: 0 to 55 local, 56 + X package slot X (09_transactions.md R253). -/
abbrev Slot := Fin 64
/-- A package transaction number. -/
abbrev Pkt := Fin 8
/-- An instance of the package, by its instance number straps. -/
abbrev Inst := Fin 16
/-- A power domain (16_power_and_thermal.md R424). -/
abbrev Dom66 := Fin 66
/-- A regulator triad. -/
abbrev Triad := Fin 8
/-- A regulator. -/
abbrev Regul := Fin 24
/-- A pad leg (17_calibration_and_training.md R453). -/
abbrev Leg := Fin 128

end Sys2Proof
end

