-- ==== Sys2Proof/Syntax.lean ====
section
/-! DEFINITION. Sys2Proof/Syntax.lean: the commands of the block. Instr has one constructor for each row of
spec/opcode_table.json: a write or read of a register, a beat, message or frame at a port, an event on a pin, the passing
of a stated time, or a Zynsa instruction that a spout issues. Their operands are what the event brings from outside. -/
namespace Sys2Proof

/-- What every Zynsa instruction word carries besides its form (06_zynsa_encoding.md R159, R160): the issuing spout, the predicate
selector, the X bit and the word that follows. -/
structure Hdr where
  sp  : Sp
  ps  : BitVec 4
  x   : Bool
  ext : Word
deriving DecidableEq, Repr

/-- Form D (R180). -/
structure FormD where
  od  : BitVec 4
  dd  : BitVec 2
  oa  : BitVec 4
  da  : BitVec 2
  ob  : BitVec 4
  db  : BitVec 2
  rm  : BitVec 3
  sat : Bool
  ac  : BitVec 2
  gx  : BitVec 4
  px  : BitVec 3
  imm : BitVec 8
deriving DecidableEq, Repr

/-- Form S (R182). -/
structure FormS where
  gd   : BitVec 4
  ga   : BitVec 4
  gb   : BitVec 4
  immb : Bool
  imm  : BitVec 16
  pd   : BitVec 3
  pw   : Bool
  rm   : BitVec 3
deriving DecidableEq, Repr

/-- For each kind of stack command the banks to which the timing parameters let one issue (10_rills.md R282, R287): ACT, RD, WR, PRE, and REFpb or
RFMpb. -/
structure Ready where
  act : BitVec 80
  rd  : BitVec 80
  wr  : BitVec 80
  pre : BitVec 80
  ref : BitVec 80
deriving DecidableEq, Repr

/-- The operand fields of BR.C (R168). -/
structure BrcF where
  off  : BitVec 16
  ga   : BitVec 4
  gb   : BitVec 4
  cond : BitVec 3
  immb : Bool
  imm  : BitVec 12
  pd   : BitVec 3
  pw   : Bool
deriving DecidableEq, Repr

/-- The operand fields of WAIT (R168). -/
structure WaitF where
  aa   : BitVec 3
  disp : BitVec 16
  src  : BitVec 3
  cond : BitVec 3
  gv   : BitVec 4
  pd   : BitVec 3
  pw   : Bool
deriving DecidableEq, Repr

/-- The operand fields of SIGNAL (R168). -/
structure SignalF where
  aa   : BitVec 3
  disp : BitVec 16
  op   : BitVec 2
  gv   : BitVec 4
  evt  : Bool
  ret  : Bool
  gr   : BitVec 4
deriving DecidableEq, Repr

/-- A fabric request beat (02_ports.md R42). -/
structure Beat where
  op    : BitVec 3
  addr  : BitVec 37
  size  : BitVec 2
  tag   : BitVec 10
  label : BitVec 12
  req   : BitVec 6
  txv   : Bool
  txid  : BitVec 6
  rem   : Bool
  node  : BitVec 6
  rinst : BitVec 4
  mask  : BitVec 256
  data  : BitVec 2048
deriving DecidableEq, Repr

/-- An aqueduct frame whose check agrees (13_aqueduct_ring.md R376). -/
structure Frame where
  typ      : BitVec 6
  dst      : BitVec 6
  src      : BitVec 6
  label    : BitVec 12
  priv     : Bool
  rtag     : BitVec 12
  size     : BitVec 2
  ttl      : BitVec 6
  op       : BitVec 4
  ew       : BitVec 2
  addr     : BitVec 37
  lseq     : BitVec 16
  lack     : BitVec 16
  nak      : Bool
  code     : BitVec 3
  deadRead : Bool
  payload  : Bytes
deriving DecidableEq, Repr

/-- The header of a cascade message (19_cascade_and_services.md R502), its TYPE and LEN apart. -/
structure CasHdr where
  src   : Inst
  dst   : Inst
  bc    : Bool
  pri   : Bool
  seq   : BitVec 16
  epoch : BitVec 32
deriving DecidableEq, Repr

/-- The payload of HELLO (R505). -/
structure HelloP where
  inst     : Inst
  strap    : Bool
  nonce    : BitVec 32
  reply    : Bool
  mgr      : Inst
  mgrValid : Bool
  epoch    : BitVec 32
deriving DecidableEq, Repr

/-- A 128-byte image header (R522) as its bytes. -/
abbrev ImageHdr := Bytes

/-- A regulator telemetry frame (02_ports.md R68): millivolts, tenths of an ampere for each phase, degrees and a fault flag for each phase. -/
structure RegFrame where
  mv     : Nat
  phases : List Nat
  temp   : Nat
  faults : BitVec 6
deriving DecidableEq, Repr

/-- What the surroundings give an instance as it leaves power-on or cold reset: the strap and pin levels (R66, R65, R56, R67), the fuse record
read in phase 1 (18_bringup_reset_lowpower.md R480), the stack's identification and whether it is the configuration of 00_scope.md R1 (R2),
and which checkers fail the self-test of 12_data_integrity.md R361: rills, spares, the window checker, the remap SRAM. -/
structure PinLevels where
  mgrSel    : Bool
  instId    : Inst
  refclk    : Bool
  rstN      : Bool
  compute   : Bool
  fuse      : Word
  stackId   : Word
  stackOk   : Bool
  failRill  : BitVec 64
  failSpare : BitVec 8
  failWin   : Bool
  failSram  : Bool
deriving DecidableEq, Repr

/-- An accepted value of TIDE[31:0] and the level at which TIDE_VLD stands after it (02_ports.md R54, R72). -/
structure TideSample where
  value : BitVec 32
  vld   : Bool
deriving DecidableEq, Repr

/-- How the repair of one page ended (12_data_integrity.md R359). -/
inductive Repair where
  | done
  | failed
  | noRow
deriving DecidableEq, Repr

/-- The repair of one page that is on the list: how it ended, and the bit errors that its first reads meet, by slot, byte and error
(12_data_integrity.md R359). -/
structure PageRepair where
  page  : Nat
  ended : Repair
  flips : List (Nat × Nat × Byte)
deriving DecidableEq, Repr

/-- The findings of a test of one pseudo-channel (18_bringup_reset_lowpower.md R478, R479): the pages with a failing bit, rising, each with how
its repair ended; the granules (page and slot) that fail the second march; and whether a pad voltage corner fails on a whole byte lane. -/
structure Findings where
  bad    : List (Nat × Repair)
  still  : List (Nat × Nat)
  corner : Bool
deriving DecidableEq, Repr

/-- The commands of the block: one constructor for each row of spec/opcode_table.json. -/
inductive Instr where
  /- control port, resets and bring-up -/
  | registerWrite (off : BitVec 24) (bytes : Nat) (host : Bool) (v : Word)
  | powerOnReset (pins : PinLevels)
  | coldReset (lowNs : Nat)
  | refclkLoss
  | refclkLock
  | startTimeout
  | bringUpTestDone (pc : Pc) (f : Findings)
  | privilegedFillDone
  | warmReset
  | thermalRestart
  | restartRelease
  | computeResetAssert
  | quiesceDrainDone (p : FPort)
  | computeResetDeassert
  | negotiationComplete (p : FPort)
  | negotiationRetry (p : FPort)
  | fabricRequest (p : FPort) (host : Bool) (b : Beat)
  | intakeAdmit (src : Fin 171)
  | orderingPointAccept (pc : Pc)
  | rillCommandIssue (pc : Pc) (ready : Ready)
  | agePromote (pc : Pc) (entry : Fin 64)
  | readDataReturn (pc : Pc) (flips : List (Nat × Byte))
  | mergeReadReturn (pc : Pc) (flips : List (Nat × Byte))
  | verifyReadReturn (pc : Pc) (flips : List (Nat × Byte))
  | scrubPage (pc : Pc) (flips : List (Nat × Nat × Byte))
  | ceWindowEnd (pc : Pc)
  | refreshAccrual (pc : Pc) (bank : Fin 80)
  | stackTempRead (reading : Option (BitVec 8))
  | deferExpire
  | spareHandover (m : Spare)
  | rillCheckMismatch (pc : Pc)
  | parkEnter (pc : Pc)
  | selfRefreshEnter (pc : Pc)
  | selfRefreshExit (pc : Pc) (firstPass secondPass : Bool)
  | creset (pc : Pc)
  | schTmgWrite (i : Fin 3) (f : Fin 2) (v : Word)
  | pcRetire (pc : Pc)
  | remap
  | pregWrite (i : Fin 4) (v : Word)
  | bcwWrite (i : Fin 4) (v : Word)
  | itkReqWrite (j : Fin 64) (v : Word)
  | intakeRefill
  | pinWindowEnd
  | deadclr
  /- doorbells and spouts -/
  | tailWrite (page : Sp) (v : Word) (bytes : Nat) (host : Bool)
  | dblRingWrite (page : Sp) (v : Word)
  | spoutEnable (page : Sp) (v : Word)
  | spoutStop (page : Sp)
  | spoutResume (page : Sp)
  | commandFetch (page : Sp)
  | commandEntryReturn (page : Sp)
  | programLineReturn (page : Sp) (addr : PkgAddr)
  | memoryResponse (page : Sp) (idx : Nat)
  | commandComplete (page : Sp)
  | resourceGrant (e : Jet) (unit : Fin 5)
  /- control instructions -/
  | nop (h : Hdr)
  | halt (h : Hdr)
  | fence (h : Hdr) (mask : BitVec 4)
  | sync (h : Hdr)
  | syncTimeout (page : Sp)
  | loop (h : Hdr) (imm : BitVec 24) (len : BitVec 16) (gs : BitVec 4) (cs : Bool)
  | endloop (h : Hdr)
  | br (h : Hdr) (off : BitVec 32)
  | brA (h : Hdr) (aa : BitVec 3)
  | brC (h : Hdr) (f : BrcF)
  | wait (h : Hdr) (f : WaitF)
  | waitEvaluate (page : Sp)
  | waitTimeout (page : Sp)
  | signal (h : Hdr) (f : SignalF)
  | ldi (h : Hdr) (rd : BitVec 5) (imm : BitVec 32)
  | movr (h : Hdr) (rd rs : BitVec 5) (imm : BitVec 16)
  | ldd (h : Hdr) (dd : BitVec 2) (aa : BitVec 3) (disp : BitVec 16)
  | ldr (h : Hdr) (rd : BitVec 5) (aa : BitVec 3) (disp : BitVec 16)
  | str (h : Hdr) (rs : BitVec 5) (aa : BitVec 3) (disp : BitVec 16)
  | plog (h : Hdr) (pd pa pb : BitVec 3) (tt : BitVec 4)
  /- data movement -/
  | move (h : Hdr) (d : FormD)
  | gather (h : Hdr) (d : FormD)
  | scatter (h : Hdr) (d : FormD)
  | fill (h : Hdr) (d : FormD)
  | cmp (h : Hdr) (d : FormD)
  | pack (h : Hdr) (d : FormD)
  | stagingSlotGrant
  /- conversion, vector, matrix, hash -/
  | cvt (h : Hdr) (d : FormD)
  | cvtPr (h : Hdr) (d : FormD)
  | vadd (h : Hdr) (d : FormD)
  | vsub (h : Hdr) (d : FormD)
  | vmul (h : Hdr) (d : FormD)
  | vfma (h : Hdr) (d : FormD)
  | vmin (h : Hdr) (d : FormD)
  | vmax (h : Hdr) (d : FormD)
  | vabs (h : Hdr) (d : FormD)
  | vneg (h : Hdr) (d : FormD)
  | vscale (h : Hdr) (d : FormD)
  | vand (h : Hdr) (d : FormD)
  | vor (h : Hdr) (d : FormD)
  | vxor (h : Hdr) (d : FormD)
  | vcmpeq (h : Hdr) (d : FormD)
  | vcmplt (h : Hdr) (d : FormD)
  | rsum (h : Hdr) (d : FormD)
  | rsumsq (h : Hdr) (d : FormD)
  | rdot (h : Hdr) (d : FormD)
  | rmin (h : Hdr) (d : FormD)
  | rmax (h : Hdr) (d : FormD)
  | rargmin (h : Hdr) (d : FormD)
  | rargmax (h : Hdr) (d : FormD)
  | rmerge (h : Hdr) (d : FormD)
  | gemv (h : Hdr) (d : FormD)
  | gemvt (h : Hdr) (d : FormD)
  | mm (h : Hdr) (d : FormD)
  | hprobe (h : Hdr) (d : FormD)
  | hinsert (h : Hdr) (d : FormD)
  | hdelete (h : Hdr) (d : FormD)
  | isect (h : Hdr) (d : FormD)
  | topk (h : Hdr) (d : FormD)
  | amin (h : Hdr) (d : FormD)
  | amax (h : Hdr) (d : FormD)
  | aadd (h : Hdr) (d : FormD)
  | halo (h : Hdr) (d : FormD)
  /- scalar -/
  | add (h : Hdr) (f : FormS)
  | sub (h : Hdr) (f : FormS)
  | mul (h : Hdr) (f : FormS)
  | mulhu (h : Hdr) (f : FormS)
  | and (h : Hdr) (f : FormS)
  | or (h : Hdr) (f : FormS)
  | xor (h : Hdr) (f : FormS)
  | shl (h : Hdr) (f : FormS)
  | shr (h : Hdr) (f : FormS)
  | sra (h : Hdr) (f : FormS)
  | min (h : Hdr) (f : FormS)
  | max (h : Hdr) (f : FormS)
  | minu (h : Hdr) (f : FormS)
  | maxu (h : Hdr) (f : FormS)
  | faddD (h : Hdr) (f : FormS)
  | fsubD (h : Hdr) (f : FormS)
  | fmulD (h : Hdr) (f : FormS)
  | fdivD (h : Hdr) (f : FormS)
  | fsqrtD (h : Hdr) (f : FormS)
  | cvtDi (h : Hdr) (f : FormS)
  | cvtId (h : Hdr) (f : FormS)
  /- transactions -/
  | tbegin (h : Hdr) (gd : BitVec 4) (xi : Bool) (hoff : BitVec 16)
  | tcommit (h : Hdr) (gd : BitVec 4)
  | tabort (h : Hdr) (code : BitVec 8)
  | tstat (h : Hdr) (gd : BitVec 4)
  | logApplyDone (t : Slot)
  | slotFreeTimer (t : Slot)
  | txLifetimeExpire (t : Slot)
  | prepareRecordDone (x : Pkt)
  | voteTimeout (x : Pkt)
  | indoubtQuery (x : Pkt)
  | txIndoubt (x : Pkt)
  | txuRecbaseWrite (v : Word)
  | xtOpen (c : CasHdr) (sp : Sp) (label : BitVec 12) (valid : Bool)
  | xtGrant (c : CasHdr) (x : Pkt) (owner : Inst) (sp : Sp) (label : BitVec 12) (stamp : Word)
  | xtReady (c : CasHdr) (x : Pkt)
  | xtDeny (c : CasHdr) (sp : Sp) (code : BitVec 8)
  | xtCommitreq (c : CasHdr) (x : Pkt)
  | xtPrepare (c : CasHdr) (x : Pkt)
  | xtVote (c : CasHdr) (x : Pkt) (yes empty : Bool) (word : Word)
  | xtCommit (c : CasHdr) (x : Pkt)
  | xtAbort (c : CasHdr) (x : Pkt) (word : Word)
  | xtAbortreq (c : CasHdr) (x : Pkt) (word : Word)
  | xtDone (c : CasHdr) (x : Pkt)
  | xtEpoch (c : CasHdr)
  | xtQuery (c : CasHdr) (x : Pkt) (answer : Bool) (state : BitVec 4)
  /- hints and service calls -/
  | dead (h : Hdr) (aa : BitVec 3) (gl : BitVec 4)
  | pin (h : Hdr) (aa : BitVec 3) (gl : BitVec 4)
  | pinFillDone (page : Sp)
  | unpin (h : Hdr) (aa : BitVec 3) (gl : BitVec 4)
  | prefetch (h : Hdr) (aa : BitVec 3) (gl : BitVec 4) (dst : Bool)
  | svcCall (h : Hdr) (func : BitVec 16) (ga gd : BitVec 4)
  | svcPost (h : Hdr) (func : BitVec 16) (ga : BitVec 4)
  | svcAnswer
  | rdreg (h : Hdr) (gd : BitVec 4) (aa : BitVec 3)
  | wrreg (h : Hdr) (gs : BitVec 4) (aa : BitVec 3)
  | seed (h : Hdr) (page : BitVec 8) (gs : BitVec 4)
  /- engine resets and the sluice -/
  | jetEngineReset (e : Jet)
  | jetResetDone (e : Jet)
  | slcEngineReset (c : Chan)
  | slcResetDone (c : Chan)
  | slcPause (c : Chan) (v : Word)
  | pauseComplete (c : Chan)
  | pauseRelease (c : Chan)
  | slcPreqWrite (c : Chan) (req : Bool)
  | burstSample (c : Chan)
  | busError (addr : PkgAddr) (check : Bool)
  | sluiceReadTimeout (addr : PkgAddr)
  | busStopDrainDone
  | slcCont (c : Chan)
  | slcAbandon (c : Chan)
  | slcCfgWrite (c : Chan) (v : Word)
  /- aqueduct -/
  | linkPowerUp (p : APort)
  | detectDone (p : APort) (sense : BitVec 8)
  | detectRetry (p : APort) (sense : BitVec 8)
  | loopMeasureDone (errsE errsW : List Nat)
  | qualifyWindowPass (p : APort)
  | uncorrectableCodeword (p : APort)
  | requal
  | trainingDone (p : APort) (errs : List Nat) (partner : BitVec 4) (node : BitVec 6) (nonce : BitVec 32)
  | trainTimeout (p : APort)
  | failedRetry (p : APort)
  | linkLoss (p : APort)
  | laneDegrade (p : APort) (l : Fin 4)
  | laneRetry (p : APort) (passed : BitVec 4)
  | aqdRetrain (p : APort)
  | aqdDisable (p : APort) (v : Word)
  | frameRd (p : APort) (f : Frame)
  | frameWr (p : APort) (f : Frame)
  | frameWrp (p : APort) (f : Frame)
  | frameAtom (p : APort) (f : Frame)
  | frameResp (p : APort) (f : Frame)
  | frameRsf (p : APort) (f : Frame)
  | frameLctl (p : APort) (f : Frame)
  | frameTrn (p : APort) (f : Frame)
  | replay (p : APort)
  | lackTimer (p : APort)
  | rsfSend
  | routeAgeOut (node : Fin 64) (p : APort)
  | remoteTimeout (rtag : BitVec 12)
  | nodeWrite (v : Word)
  /- weir -/
  | weirRefill (p : APort)
  | weirFrameSelect (p : APort)
  | weiQWrite (p : APort) (q : Fin 8) (v : Word)
  | weiClsqWrite (p : APort) (v : Word)
  | weiGateWrite (p : APort) (v : Word)
  /- time and tide -/
  | ppsEdge (sub : Fin 10) (highNs : Nat)
  | wallHoldover
  | timWallWrite (v : Word)
  | tideValueAccept (v : TideSample)
  | tideStall
  | tideHoldoverStep
  | rebase
  | timEvt0Write (i : Fin 256) (v : Word)
  | weirGate (arg : BitVec 32)
  | deferOpen
  | deferClose
  | scrubOpen
  | scrubClose
  | calOpen
  | calClose
  | censusSnap (arg : BitVec 32)
  | overlay (arg : BitVec 32)
  | plumeGo (arg : BitVec 32)
  /- power and thermal -/
  | domainOffRequest (d : Dom66) (v : Word)
  | domainOnRequest (d : Dom66) (v : Word)
  | wakeRampStart (d : Dom66)
  | wakeRampEnd (d : Dom66) (voltageOk : Bool)
  | telemetryFrame (r : Regul) (f : RegFrame)
  | telemetryMissing (r : Regul)
  | capLevelDown (t : Triad)
  | darkenStart (t : Triad)
  | domainDarkDone (d : Dom66)
  | reenable (r : Regul)
  | setmvWrite (t : Triad) (v : Word)
  | sensorSample (raw : List (Option Int))
  | thermalLevelTimer (clk : Fin 7)
  | powerCapStep (pavg : Nat)
  | tripGateTimeout
  | sensorReturn (n : Fin 16)
  /- calibration -/
  | calMeasurementDone (leg : Leg) (refv refz : Bool) (codes : List Nat)
  | trimApply (leg : Leg)
  | trainingPointDone (leg : Leg) (lanes : BitVec 5)
  | sweepDone (leg : Leg)
  | driftCheckDue (pc : Pc)
  | driftCheckSkip (pc : Pc)
  | zqRecalDue (leg : Leg)
  | calWindowWaitExpire (leg : Leg)
  | calStarved (pc : Pc)
  | recal (v : Word)
  | retrain (v : Word)
  | fspRateWrite (v : Word)
  | fspReq (v : Word)
  | fspHoldEnd
  | fspPadLock
  /- power states and tiers -/
  | pstateRequest (v : Word)
  | pstateEntryTimeout
  | idleEnter
  | pstateWake (cause : Fin 6)
  | tierStoreWrite (off : BitVec 24) (v : Word)
  | tierApply
  | swreq
  /- cascade -/
  | hello (c : CasHdr) (m : HelloP)
  | helloResend
  | electionTimeout
  | role (c : CasHdr) (mgr : Inst) (epoch : BitVec 32) (members : BitVec 16)
  | start (c : CasHdr) (phase : BitVec 4)
  | startSend
  | time (c : CasHdr) (wall : Word) (wstate : BitVec 2)
  | timeSend
  | casLinkDown
  | mgrLost
  | setcfg (c : CasHdr) (item : BitVec 8) (v : Word)
  | telem (c : CasHdr) (pavg : Nat) (ladder : BitVec 3) (maxt : BitVec 8) (levels : BitVec 16)
  | telemSend
  | capAllocate
  | ringrpt (c : CasHdr) (rstate : BitVec 2) (size : BitVec 8)
  /- services -/
  | poolAlloc (sexp : Nat)
  | poolAddref (handle : Nat)
  | poolRelease (handle : Nat)
  | poolPublish (handle : Nat)
  | poolLookup (hash : Word) (sexp : Nat)
  | poolEvict (handle node : Nat) (acked : Bool)
  | poolFetch (handle : Nat) (data : Bytes)
  | poolAddr (handle : Nat)
  | censusSnapCall (mask : BitVec 8)
  | mailboxSubmit (slot : Fin 8) (word : Word)
  | bmcMessage (words : List Word)
  | status
  | assayRepair (pc : Pc) (repairs : List PageRepair) (sweepOk : Bool)
  | assayTest (pc : Pc) (f : Findings)
  | svcConfigRead (v : Word)
  | keySlotWrite (slot : Fin 4) (word : Fin 16) (v : Word)
  | fwLoad (v : Word)
  | plumeStart (v : Word)
  | plumeCancel (v : Word)
  | plAnnounce (c : CasHdr) (hdr : ImageHdr)
  | plData (c : CasHdr) (image : BitVec 16) (packet : BitVec 32) (crc : BitVec 32) (data : Bytes)
  | plRoll (c : CasHdr) (image : BitVec 16) (round : BitVec 4)
  | plMiss (c : CasHdr) (st : BitVec 8) (total : BitVec 32) (ranges : List (Nat × Nat))
  | rollwaitExpire
  | plArm (c : CasHdr) (image : BitVec 16) (excluded : BitVec 16)
  | armwaitExpire
  | plReady (c : CasHdr) (code : BitVec 8) (cores : BitVec 128) (jets : BitVec 32)
  | plGo (c : CasHdr) (image : BitVec 16) (now : Bool) (tgo : BitVec 32) (map : BitVec 2560)
  | plCancel (c : CasHdr) (image : BitVec 16)
  /- events and the sediment log -/
  | eventCollect
  | eventQueueWrite (q : Fin 2)
  | consWrite (q : Fin 2) (v : Word)
  | glbEvqWrite (q : Fin 2) (v : Word)
  | freeze
  | rearm (clear : Bool)
  | sedAggStart (v : Word)
  | sed (c : CasHdr) (sub : BitVec 8) (packet : BitVec 16) (data : Bytes)
  | sedWorkerTimeout
  /- the wrapper, reads and the rest -/
  | wrapperInstructionLoad (insn : BitVec 8)
  | registerRead (off : BitVec 24) (bytes : Nat) (host : Bool)
  | rstNRise (pins : PinLevels)
  | responseBeatTransfer (p : FPort)
  | frameCheckFail (p : APort)
  | tideValueDiscard
  | censusReadMissed (pc : Pc)
  | plReadyTimeout (k : Inst)
  | cascadeForward (c : CasHdr) (typ : BitVec 8) (crcOk bufferFull : Bool) (len : Nat)
  | wrstnAssert
  | illegalOpcode (h : Hdr) (maj min : BitVec 6)
deriving DecidableEq, Repr

end Sys2Proof
end

