-- ==== Sys2Proof/Decode.lean ====
section
/-! DEFINITION. Sys2Proof/Decode.lean: the words that spell commands, and the Zynsa instruction words: their decoder and their encoder, from the tables
of 06_zynsa_encoding.md (R159, R160, R167, R168, R180 to R183). -/
namespace Sys2Proof

/-- The command that a word of spec/opcode_table.json spells: no row of the table gives a command any bits, so no word spells one. (DESIGN CHOICE: notes/assumptions/29.md.) -/
def decodeTableWord (_nbits _w : Nat) : Option Instr := none

/-! ## Fields of a word -/

/-- Bits hi down to lo of a word. -/
def fBits (w hi lo : Nat) {n : Nat} : BitVec n := BitVec.ofNat n (w / 2 ^ lo % 2 ^ (hi + 1 - lo))

/-- Bit k of a word. -/
def fBool (w k : Nat) : Bool := w / 2 ^ k % 2 == 1

/-- 1 for true. -/
def bNat (b : Bool) : Nat := if b then 1 else 0

/-- What the word w of spout sp carries besides its form; the word after it counts where X is 1 (R160). -/
def decodeHdr (sp : Sp) (w ext : Nat) : Hdr :=
  { sp := sp, ps := fBits w 57 54, x := fBool w 0, ext := if fBool w 0 then BitVec.ofNat 64 ext else 0 }

/-- The bits of a word that its opcode and its header give. -/
def encodeHead (maj min : Nat) (h : Hdr) : Nat := maj * 2 ^ 58 + h.ps.toNat * 2 ^ 54 + min * 2 ^ 48 + bNat h.x

/-! ## The forms -/

/-- Form D (R180) read from a word. -/
def decodeD (w : Nat) : FormD :=
  { od := fBits w 47 44, dd := fBits w 43 42, oa := fBits w 41 38, da := fBits w 37 36,
    ob := fBits w 35 32, db := fBits w 31 30, rm := fBits w 29 27, sat := fBool w 26,
    ac := fBits w 25 24, gx := fBits w 23 20, px := fBits w 19 17, imm := fBits w 16 9 }

/-- Form D (R180) as operand bits. -/
def encodeD (f : FormD) : Nat :=
  f.od.toNat * 2 ^ 44 + f.dd.toNat * 2 ^ 42 + f.oa.toNat * 2 ^ 38 + f.da.toNat * 2 ^ 36 +
    f.ob.toNat * 2 ^ 32 + f.db.toNat * 2 ^ 30 + f.rm.toNat * 2 ^ 27 + bNat f.sat * 2 ^ 26 +
    f.ac.toNat * 2 ^ 24 + f.gx.toNat * 2 ^ 20 + f.px.toNat * 2 ^ 17 + f.imm.toNat * 2 ^ 9

/-- Form S (R182) read from a word. -/
def decodeS (w : Nat) : FormS :=
  { gd := fBits w 47 44, ga := fBits w 43 40, gb := fBits w 39 36, immb := fBool w 35,
    imm := fBits w 34 19, pd := fBits w 18 16, pw := fBool w 15, rm := fBits w 14 12 }

/-- Form S (R182) as operand bits. -/
def encodeS (f : FormS) : Nat :=
  f.gd.toNat * 2 ^ 44 + f.ga.toNat * 2 ^ 40 + f.gb.toNat * 2 ^ 36 + bNat f.immb * 2 ^ 35 +
    f.imm.toNat * 2 ^ 19 + f.pd.toNat * 2 ^ 16 + bNat f.pw * 2 ^ 15 + f.rm.toNat * 2 ^ 12

/-- The fields of BR.C (R168) read from a word. -/
def decodeBrc (w : Nat) : BrcF :=
  { off := fBits w 47 32, ga := fBits w 31 28, gb := fBits w 27 24, cond := fBits w 23 21,
    immb := fBool w 20, imm := fBits w 19 8, pd := fBits w 7 5, pw := fBool w 4 }

/-- The fields of BR.C (R168) as operand bits. -/
def encodeBrc (f : BrcF) : Nat :=
  f.off.toNat * 2 ^ 32 + f.ga.toNat * 2 ^ 28 + f.gb.toNat * 2 ^ 24 + f.cond.toNat * 2 ^ 21 +
    bNat f.immb * 2 ^ 20 + f.imm.toNat * 2 ^ 8 + f.pd.toNat * 2 ^ 5 + bNat f.pw * 2 ^ 4

/-- The fields of WAIT (R168) read from a word. -/
def decodeWait (w : Nat) : WaitF :=
  { aa := fBits w 47 45, disp := fBits w 44 29, src := fBits w 28 26, cond := fBits w 25 23,
    gv := fBits w 22 19, pd := fBits w 18 16, pw := fBool w 15 }

/-- The fields of WAIT (R168) as operand bits. -/
def encodeWait (f : WaitF) : Nat :=
  f.aa.toNat * 2 ^ 45 + f.disp.toNat * 2 ^ 29 + f.src.toNat * 2 ^ 26 + f.cond.toNat * 2 ^ 23 +
    f.gv.toNat * 2 ^ 19 + f.pd.toNat * 2 ^ 16 + bNat f.pw * 2 ^ 15

/-- The fields of SIGNAL (R168) read from a word. -/
def decodeSignal (w : Nat) : SignalF :=
  { aa := fBits w 47 45, disp := fBits w 44 29, op := fBits w 28 27, gv := fBits w 26 23,
    evt := fBool w 22, ret := fBool w 21, gr := fBits w 20 17 }

/-- The fields of SIGNAL (R168) as operand bits. -/
def encodeSignal (f : SignalF) : Nat :=
  f.aa.toNat * 2 ^ 45 + f.disp.toNat * 2 ^ 29 + f.op.toNat * 2 ^ 27 + f.gv.toNat * 2 ^ 23 +
    bNat f.evt * 2 ^ 22 + bNat f.ret * 2 ^ 21 + f.gr.toNat * 2 ^ 17

/-! ## The decoder -/

/-- The instruction of form D that an opcode names (R181). -/
def insnD (maj min : Nat) (h : Hdr) (f : FormD) : Option Instr :=
  match maj, min with
  | 0x08, 0 => some (.move h f)
  | 0x08, 1 => some (.gather h f)
  | 0x08, 2 => some (.scatter h f)
  | 0x08, 3 => some (.fill h f)
  | 0x08, 4 => some (.cmp h f)
  | 0x08, 5 => some (.pack h f)
  | 0x10, 0 => some (.cvt h f)
  | 0x10, 1 => some (.cvtPr h f)
  | 0x14, 0 => some (.vadd h f)
  | 0x14, 1 => some (.vsub h f)
  | 0x14, 2 => some (.vmul h f)
  | 0x14, 3 => some (.vfma h f)
  | 0x14, 4 => some (.vmin h f)
  | 0x14, 5 => some (.vmax h f)
  | 0x14, 6 => some (.vabs h f)
  | 0x14, 7 => some (.vneg h f)
  | 0x14, 8 => some (.vscale h f)
  | 0x14, 9 => some (.vand h f)
  | 0x14, 10 => some (.vor h f)
  | 0x14, 11 => some (.vxor h f)
  | 0x14, 12 => some (.vcmpeq h f)
  | 0x14, 13 => some (.vcmplt h f)
  | 0x15, 0 => some (.rsum h f)
  | 0x15, 1 => some (.rsumsq h f)
  | 0x15, 2 => some (.rdot h f)
  | 0x15, 3 => some (.rmin h f)
  | 0x15, 4 => some (.rmax h f)
  | 0x15, 5 => some (.rargmin h f)
  | 0x15, 6 => some (.rargmax h f)
  | 0x15, 7 => some (.rmerge h f)
  | 0x20, 0 => some (.gemv h f)
  | 0x20, 1 => some (.gemvt h f)
  | 0x20, 2 => some (.mm h f)
  | 0x28, 0 => some (.hprobe h f)
  | 0x28, 1 => some (.hinsert h f)
  | 0x28, 2 => some (.hdelete h f)
  | 0x28, 3 => some (.isect h f)
  | 0x28, 4 => some (.topk h f)
  | 0x28, 5 => some (.amin h f)
  | 0x28, 6 => some (.amax h f)
  | 0x28, 7 => some (.aadd h f)
  | 0x28, 8 => some (.halo h f)
  | _, _ => none

/-- The scalar instruction that a minor opcode names (R182). -/
def insnS (min : Nat) (h : Hdr) (f : FormS) : Option Instr :=
  match min with
  | 0x00 => some (.add h f)
  | 0x01 => some (.sub h f)
  | 0x02 => some (.mul h f)
  | 0x03 => some (.mulhu h f)
  | 0x04 => some (.and h f)
  | 0x05 => some (.or h f)
  | 0x06 => some (.xor h f)
  | 0x07 => some (.shl h f)
  | 0x08 => some (.shr h f)
  | 0x09 => some (.sra h f)
  | 0x0A => some (.min h f)
  | 0x0B => some (.max h f)
  | 0x0C => some (.minu h f)
  | 0x0D => some (.maxu h f)
  | 0x10 => some (.faddD h f)
  | 0x11 => some (.fsubD h f)
  | 0x12 => some (.fmulD h f)
  | 0x13 => some (.fdivD h f)
  | 0x14 => some (.fsqrtD h f)
  | 0x15 => some (.cvtDi h f)
  | 0x16 => some (.cvtId h f)
  | _ => none

/-- The control instruction that an opcode names (R168). -/
def insnCtl (maj min w : Nat) (h : Hdr) : Option Instr :=
  match maj, min with
  | 0x00, 0 => some (.nop h)
  | 0x00, 1 => some (.halt h)
  | 0x00, 2 => some (.fence h (fBits w 4 1))
  | 0x00, 3 => some (.sync h)
  | 0x01, 0 => some (.loop h (fBits w 47 24) (fBits w 23 8) (fBits w 7 4) (fBool w 3))
  | 0x01, 1 => some (.endloop h)
  | 0x02, 0 => some (.br h (fBits w 47 16))
  | 0x02, 1 => some (.brA h (fBits w 47 45))
  | 0x04, 0 => some (.ldi h (fBits w 47 43) (fBits w 42 11))
  | 0x04, 1 => some (.movr h (fBits w 47 43) (fBits w 42 38) (fBits w 37 22))
  | 0x04, 2 => some (.ldd h (fBits w 47 46) (fBits w 45 43) (fBits w 42 27))
  | 0x04, 3 => some (.ldr h (fBits w 47 43) (fBits w 42 40) (fBits w 39 24))
  | 0x04, 4 => some (.str h (fBits w 47 43) (fBits w 42 40) (fBits w 39 24))
  | 0x04, 5 => some (.plog h (fBits w 47 45) (fBits w 44 42) (fBits w 41 39) (fBits w 38 35))
  | 0x02, 2 => some (.brC h (decodeBrc w))
  | 0x03, 0 => some (.wait h (decodeWait w))
  | 0x03, 1 => some (.signal h (decodeSignal w))
  | _, _ => none

/-- The instruction of form T, H, V or P that an opcode names (R183). -/
def insnT (maj min w : Nat) (h : Hdr) : Option Instr :=
  match maj, min with
  | 0x30, 0 => some (.tbegin h (fBits w 47 44) (fBool w 43) (fBits w 42 27))
  | 0x30, 1 => some (.tcommit h (fBits w 47 44))
  | 0x30, 2 => some (.tabort h (fBits w 43 36))
  | 0x30, 3 => some (.tstat h (fBits w 47 44))
  | 0x34, 0 => some (.dead h (fBits w 47 45) (fBits w 44 41))
  | 0x34, 1 => some (.pin h (fBits w 47 45) (fBits w 44 41))
  | 0x34, 2 => some (.unpin h (fBits w 47 45) (fBits w 44 41))
  | 0x34, 3 => some (.prefetch h (fBits w 47 45) (fBits w 44 41) (fBool w 40))
  | 0x38, 0 => some (.svcCall h (fBits w 47 32) (fBits w 31 28) (fBits w 27 24))
  | 0x38, 1 => some (.svcPost h (fBits w 47 32) (fBits w 31 28))
  | 0x3C, 0 => some (.rdreg h (fBits w 47 44) (fBits w 43 41))
  | 0x3C, 1 => some (.wrreg h (fBits w 47 44) (fBits w 43 41))
  | 0x3C, 2 => some (.seed h (fBits w 47 40) (fBits w 39 36))
  | _, _ => none

/-- The instruction that word w of a spout's program spells, with the word after it (R159, R160); none where no instruction has its opcode (R167). -/
def decodeInsn (sp : Sp) (w ext : Nat) : Option Instr :=
  let maj := w / 2 ^ 58 % 64
  let min := w / 2 ^ 48 % 64
  let h := decodeHdr sp w ext
  if maj < 0x08 then insnCtl maj min w h
  else if maj = 0x16 then insnS min h (decodeS w)
  else if maj < 0x30 then insnD maj min h (decodeD w)
  else insnT maj min w h

/-! ## The encoder -/

/-- The word of an instruction, reserved bits 0; none for the commands that are no instruction. Its extension word is its header's. -/
def encodeInsn (i : Instr) : Option Nat :=
  match i with
  | .nop h => some (encodeHead 0x00 0 h)
  | .halt h => some (encodeHead 0x00 1 h)
  | .fence h mask => some (encodeHead 0x00 2 h + mask.toNat * 2 ^ 1)
  | .sync h => some (encodeHead 0x00 3 h)
  | .loop h imm len gs cs => some (encodeHead 0x01 0 h + imm.toNat * 2 ^ 24 + len.toNat * 2 ^ 8 + gs.toNat * 2 ^ 4 + bNat cs * 2 ^ 3)
  | .endloop h => some (encodeHead 0x01 1 h)
  | .br h off => some (encodeHead 0x02 0 h + off.toNat * 2 ^ 16)
  | .brA h aa => some (encodeHead 0x02 1 h + aa.toNat * 2 ^ 45)
  | .ldi h rd imm => some (encodeHead 0x04 0 h + rd.toNat * 2 ^ 43 + imm.toNat * 2 ^ 11)
  | .movr h rd rs imm => some (encodeHead 0x04 1 h + rd.toNat * 2 ^ 43 + rs.toNat * 2 ^ 38 + imm.toNat * 2 ^ 22)
  | .ldd h dd aa disp => some (encodeHead 0x04 2 h + dd.toNat * 2 ^ 46 + aa.toNat * 2 ^ 43 + disp.toNat * 2 ^ 27)
  | .ldr h rd aa disp => some (encodeHead 0x04 3 h + rd.toNat * 2 ^ 43 + aa.toNat * 2 ^ 40 + disp.toNat * 2 ^ 24)
  | .str h rs aa disp => some (encodeHead 0x04 4 h + rs.toNat * 2 ^ 43 + aa.toNat * 2 ^ 40 + disp.toNat * 2 ^ 24)
  | .plog h pd pa pb tt => some (encodeHead 0x04 5 h + pd.toNat * 2 ^ 45 + pa.toNat * 2 ^ 42 + pb.toNat * 2 ^ 39 + tt.toNat * 2 ^ 35)
  | .tbegin h gd xi hoff => some (encodeHead 0x30 0 h + gd.toNat * 2 ^ 44 + bNat xi * 2 ^ 43 + hoff.toNat * 2 ^ 27)
  | .tcommit h gd => some (encodeHead 0x30 1 h + gd.toNat * 2 ^ 44)
  | .tabort h code => some (encodeHead 0x30 2 h + code.toNat * 2 ^ 36)
  | .tstat h gd => some (encodeHead 0x30 3 h + gd.toNat * 2 ^ 44)
  | .dead h aa gl => some (encodeHead 0x34 0 h + aa.toNat * 2 ^ 45 + gl.toNat * 2 ^ 41)
  | .pin h aa gl => some (encodeHead 0x34 1 h + aa.toNat * 2 ^ 45 + gl.toNat * 2 ^ 41)
  | .unpin h aa gl => some (encodeHead 0x34 2 h + aa.toNat * 2 ^ 45 + gl.toNat * 2 ^ 41)
  | .prefetch h aa gl dst => some (encodeHead 0x34 3 h + aa.toNat * 2 ^ 45 + gl.toNat * 2 ^ 41 + bNat dst * 2 ^ 40)
  | .svcCall h func ga gd => some (encodeHead 0x38 0 h + func.toNat * 2 ^ 32 + ga.toNat * 2 ^ 28 + gd.toNat * 2 ^ 24)
  | .svcPost h func ga => some (encodeHead 0x38 1 h + func.toNat * 2 ^ 32 + ga.toNat * 2 ^ 28)
  | .rdreg h gd aa => some (encodeHead 0x3C 0 h + gd.toNat * 2 ^ 44 + aa.toNat * 2 ^ 41)
  | .wrreg h gs aa => some (encodeHead 0x3C 1 h + gs.toNat * 2 ^ 44 + aa.toNat * 2 ^ 41)
  | .seed h page gs => some (encodeHead 0x3C 2 h + page.toNat * 2 ^ 40 + gs.toNat * 2 ^ 36)
  | .brC h f => some (encodeHead 0x02 2 h + encodeBrc f)
  | .wait h f => some (encodeHead 0x03 0 h + encodeWait f)
  | .signal h f => some (encodeHead 0x03 1 h + encodeSignal f)
  | .move h f => some (encodeHead 0x08 0 h + encodeD f)
  | .gather h f => some (encodeHead 0x08 1 h + encodeD f)
  | .scatter h f => some (encodeHead 0x08 2 h + encodeD f)
  | .fill h f => some (encodeHead 0x08 3 h + encodeD f)
  | .cmp h f => some (encodeHead 0x08 4 h + encodeD f)
  | .pack h f => some (encodeHead 0x08 5 h + encodeD f)
  | .cvt h f => some (encodeHead 0x10 0 h + encodeD f)
  | .cvtPr h f => some (encodeHead 0x10 1 h + encodeD f)
  | .vadd h f => some (encodeHead 0x14 0 h + encodeD f)
  | .vsub h f => some (encodeHead 0x14 1 h + encodeD f)
  | .vmul h f => some (encodeHead 0x14 2 h + encodeD f)
  | .vfma h f => some (encodeHead 0x14 3 h + encodeD f)
  | .vmin h f => some (encodeHead 0x14 4 h + encodeD f)
  | .vmax h f => some (encodeHead 0x14 5 h + encodeD f)
  | .vabs h f => some (encodeHead 0x14 6 h + encodeD f)
  | .vneg h f => some (encodeHead 0x14 7 h + encodeD f)
  | .vscale h f => some (encodeHead 0x14 8 h + encodeD f)
  | .vand h f => some (encodeHead 0x14 9 h + encodeD f)
  | .vor h f => some (encodeHead 0x14 10 h + encodeD f)
  | .vxor h f => some (encodeHead 0x14 11 h + encodeD f)
  | .vcmpeq h f => some (encodeHead 0x14 12 h + encodeD f)
  | .vcmplt h f => some (encodeHead 0x14 13 h + encodeD f)
  | .rsum h f => some (encodeHead 0x15 0 h + encodeD f)
  | .rsumsq h f => some (encodeHead 0x15 1 h + encodeD f)
  | .rdot h f => some (encodeHead 0x15 2 h + encodeD f)
  | .rmin h f => some (encodeHead 0x15 3 h + encodeD f)
  | .rmax h f => some (encodeHead 0x15 4 h + encodeD f)
  | .rargmin h f => some (encodeHead 0x15 5 h + encodeD f)
  | .rargmax h f => some (encodeHead 0x15 6 h + encodeD f)
  | .rmerge h f => some (encodeHead 0x15 7 h + encodeD f)
  | .gemv h f => some (encodeHead 0x20 0 h + encodeD f)
  | .gemvt h f => some (encodeHead 0x20 1 h + encodeD f)
  | .mm h f => some (encodeHead 0x20 2 h + encodeD f)
  | .hprobe h f => some (encodeHead 0x28 0 h + encodeD f)
  | .hinsert h f => some (encodeHead 0x28 1 h + encodeD f)
  | .hdelete h f => some (encodeHead 0x28 2 h + encodeD f)
  | .isect h f => some (encodeHead 0x28 3 h + encodeD f)
  | .topk h f => some (encodeHead 0x28 4 h + encodeD f)
  | .amin h f => some (encodeHead 0x28 5 h + encodeD f)
  | .amax h f => some (encodeHead 0x28 6 h + encodeD f)
  | .aadd h f => some (encodeHead 0x28 7 h + encodeD f)
  | .halo h f => some (encodeHead 0x28 8 h + encodeD f)
  | .add h f => some (encodeHead 0x16 0 h + encodeS f)
  | .sub h f => some (encodeHead 0x16 1 h + encodeS f)
  | .mul h f => some (encodeHead 0x16 2 h + encodeS f)
  | .mulhu h f => some (encodeHead 0x16 3 h + encodeS f)
  | .and h f => some (encodeHead 0x16 4 h + encodeS f)
  | .or h f => some (encodeHead 0x16 5 h + encodeS f)
  | .xor h f => some (encodeHead 0x16 6 h + encodeS f)
  | .shl h f => some (encodeHead 0x16 7 h + encodeS f)
  | .shr h f => some (encodeHead 0x16 8 h + encodeS f)
  | .sra h f => some (encodeHead 0x16 9 h + encodeS f)
  | .min h f => some (encodeHead 0x16 10 h + encodeS f)
  | .max h f => some (encodeHead 0x16 11 h + encodeS f)
  | .minu h f => some (encodeHead 0x16 12 h + encodeS f)
  | .maxu h f => some (encodeHead 0x16 13 h + encodeS f)
  | .faddD h f => some (encodeHead 0x16 16 h + encodeS f)
  | .fsubD h f => some (encodeHead 0x16 17 h + encodeS f)
  | .fmulD h f => some (encodeHead 0x16 18 h + encodeS f)
  | .fdivD h f => some (encodeHead 0x16 19 h + encodeS f)
  | .fsqrtD h f => some (encodeHead 0x16 20 h + encodeS f)
  | .cvtDi h f => some (encodeHead 0x16 21 h + encodeS f)
  | .cvtId h f => some (encodeHead 0x16 22 h + encodeS f)
  | _ => none

end Sys2Proof
end

