-- ==== Sys2Proof/Machine/Bytes.lean ====
section
/-! DEFINITION. Sys2Proof/Machine/Bytes.lean: bit fields, byte order (00_scope.md R8), sign extension, counters and the
CRC-32C the spec names. -/
namespace Sys2Proof.Machine

/-- Bits hi down to lo of n, as a number (R8: a range includes both ends). -/
def bits (n hi lo : Nat) : Nat := (n >>> lo) % 2 ^ (hi + 1 - lo)

/-- n with bits hi down to lo replaced by the low bits of v. -/
def setBits (n hi lo v : Nat) : Nat :=
  let w := hi + 1 - lo
  n - (bits n hi lo) * 2 ^ lo + (v % 2 ^ w) * 2 ^ lo

/-- Bit k of n as a Bool. -/
def bitAt (n k : Nat) : Bool := n.testBit k

/-- Bit k of n set to b. -/
def setBitTo (n k : Nat) (b : Bool) : Nat := setBits n k k (if b then 1 else 0)

/-- 1 for true, 0 for false. -/
def b2n (b : Bool) : Nat := if b then 1 else 0

/-- How many of the low w bits of n are 1. -/
def popcount (w n : Nat) : Nat := (List.range w).foldl (fun a k => a + b2n (n.testBit k)) 0

/-- The positions of the 1 bits among the low w bits of n, rising. -/
def onesOf (w n : Nat) : List Nat := (List.range w).filter (fun k => n.testBit k)

/-- The mask with the bits of a list of positions set. -/
def maskOf (l : List Nat) : Nat := l.foldl (fun a k => a ||| 2 ^ k) 0

/-- The two's complement value of the low w bits of n. -/
def sx (w n : Nat) : Int :=
  let m := n % 2 ^ w
  if m < 2 ^ (w - 1) then (m : Int) else (m : Int) - (2 ^ w : Nat)

/-- i modulo 2 ^ w, as a number: the w-bit two's complement encoding of i. -/
def wrapInt (w : Nat) (i : Int) : Nat := (i % ((2 ^ w : Nat) : Int)).toNat

/-- base + off modulo 2^48: a package address formed with a signed displacement. -/
def addrAdd (base : Nat) (off : Int) : Nat := wrapInt 48 ((base : Int) + off)

/-- The value of a little-endian run of bytes (R8). -/
def leNat : Bytes → Nat
  | [] => 0
  | b :: bs => b.toNat + 256 * leNat bs

/-- The little-endian run of n bytes that spells v modulo 2^(8n) (R8). -/
def toLE : Nat → Nat → Bytes
  | 0, _ => []
  | n + 1, v => BitVec.ofNat 8 v :: toLE n (v / 256)

/-- n bytes of value b. -/
def bytesOf (n : Nat) (b : Byte) : Bytes := List.replicate n b

/-- The n bytes of l from position k; bytes past the end of l read as 0. -/
def sliceB (l : Bytes) (k n : Nat) : Bytes :=
  let t := (l.drop k).take n
  t ++ List.replicate (n - t.length) 0#8

/-- l with the bytes from position k replaced by m (as far as l reaches). -/
def patchB (l : Bytes) (k : Nat) (m : Bytes) : Bytes :=
  (l.take k ++ m ++ l.drop (k + m.length)).take l.length

/-- Merges m over l where the byte mask has a 1 (bit i for byte i). -/
def mergeB (l m : Bytes) (mask : Nat) : Bytes :=
  (List.range l.length).map fun i => if mask.testBit i then m.getD i 0#8 else l.getD i 0#8

/-- A counter that stops at its largest value of w bits. -/
def satAdd (w n k : Nat) : Nat := min (n + k) (2 ^ w - 1)

/-- One bit step of the reflected CRC-32C register (polynomial 0x1EDC6F41, reflected 0x82F63B78). -/
def crcBit (c : Nat) : Nat := if c % 2 = 1 then (c / 2) ^^^ 0x82F63B78 else c / 2

/-- One byte step of the CRC-32C register. -/
def crcByte (c : Nat) (b : Byte) : Nat :=
  crcBit (crcBit (crcBit (crcBit (crcBit (crcBit (crcBit (crcBit (c ^^^ b.toNat))))))))

/-- CRC-32C (Castagnoli) of a run of bytes. (DESIGN CHOICE: notes/assumptions/13.md.) -/
def crc32c (l : Bytes) : Nat := (l.foldl crcByte 0xFFFFFFFF) ^^^ 0xFFFFFFFF

/-- Ceiling of n / d. -/
def ceilDiv (n d : Nat) : Nat := (n + d - 1) / d

/-- Replaces position k of a list (no effect past its end). -/
def listSet {α : Type} (l : List α) (k : Nat) (v : α) : List α := l.set k v

/-- Replaces the first element that satisfies p by f of it. -/
def updFirst {α : Type} (p : α → Bool) (f : α → α) : List α → List α
  | [] => []
  | a :: l => if p a then f a :: l else a :: updFirst p f l

/-- Removes the first element that satisfies p. -/
def dropFirst {α : Type} (p : α → Bool) : List α → List α
  | [] => []
  | a :: l => if p a then l else a :: dropFirst p l

/-- Folds a state through a list of keys. -/
def foldS {σ κ : Type} (l : List κ) (s : σ) (f : σ → κ → σ) : σ := l.foldl f s

end Sys2Proof.Machine
end

