-- ==== Sys2Proof/Machine/Codec.lean ====
section
/-! DEFINITION. Sys2Proof/Machine/Codec.lean: the granule code RS(68,64) (12_data_integrity.md R339 to R341), the poison marker (R342)
and the (12,8) byte code of the windows (R344). -/
namespace Sys2Proof.Machine

/-- Multiplication by α in GF(2^8) with the polynomial 0x11D (R339). -/
def gfX (a : Nat) : Nat := if a < 128 then 2 * a else (2 * a) ^^^ 0x11D

/-- Multiplication in GF(2^8): the bits of b from the highest down. -/
def gfMul (a b : Nat) : Nat :=
  (List.range 8).foldl (fun acc k => let t := gfX acc; if b.testBit (7 - k) then t ^^^ a else t) 0

/-- α to the k. -/
def gfPow : Nat → Nat
  | 0 => 1
  | k + 1 => gfX (gfPow k)

/-- The inverse of a non-zero element, a^254 by repeated squaring. -/
def gfInv (a : Nat) : Nat :=
  let a2 := gfMul a a
  let a4 := gfMul a2 a2
  let a8 := gfMul a4 a4
  let a16 := gfMul a8 a8
  let a32 := gfMul a16 a16
  let a64 := gfMul a32 a32
  let a128 := gfMul a64 a64
  gfMul a2 (gfMul a4 (gfMul a8 (gfMul a16 (gfMul a32 (gfMul a64 a128)))))

/-- One step of the division by the generator x^4 + 0x0F x^3 + 0x36 x^2 + 0x78 x + 0x40: the remainder register takes a data byte. -/
def rsStep (r : Nat × Nat × Nat × Nat) (b : Byte) : Nat × Nat × Nat × Nat :=
  let f := b.toNat ^^^ r.1
  (r.2.1 ^^^ gfMul f 0x0F, r.2.2.1 ^^^ gfMul f 0x36, r.2.2.2 ^^^ gfMul f 0x78, gfMul f 0x40)

/-- The four check bytes of a granule's 64 data bytes (R339). -/
def rsCheck (d : Bytes) : Bytes :=
  let r := d.foldl rsStep (0, 0, 0, 0)
  [BitVec.ofNat 8 r.1, BitVec.ofNat 8 r.2.1, BitVec.ofNat 8 r.2.2.1, BitVec.ofNat 8 r.2.2.2]

/-- The syndrome S_k of a codeword of 68 bytes: its value at α^k, by Horner's rule from the first byte. (DEDUCED: notes/assumptions/14.md.) -/
def rsSyn (w : Bytes) (k : Nat) : Nat :=
  let x := gfPow k
  w.foldl (fun acc b => gfMul acc x ^^^ b.toNat) 0

/-- What a decode gives (R341): the data, and the failing symbols (0 to 67 in codeword order) with their corrections. -/
inductive Dec where
  | clean (d : Bytes)
  | corrected (d : Bytes) (sym0 sym1 : Nat) (synd : Nat)
  | poisoned
  | uncorrectable (synd : Nat)
deriving DecidableEq, Repr

/-- The codeword positions p (coefficient of x^p) from 0 to 67 whose locator α^p satisfies f, least first. (DEDUCED: notes/assumptions/14.md.) -/
def rsRoots (f : Nat → Bool) : List Nat := (List.range 68).filter fun p => f (gfPow p)

/-- XORs e into byte i of a run. -/
def xorAt (w : Bytes) (i e : Nat) : Bytes := w.set i (w.getD i 0#8 ^^^ BitVec.ofNat 8 e)

/-- The poison marker outside the windows (R342): 64 zero bytes and the check word 0xA5C35A3C. -/
def markerRaw : Bytes := bytesOf 64 0#8 ++ toLE 4 0xA5C35A3C

/-- The decode of 68 bytes (64 data, 4 check) under decoder mode m (R340, R341). (DEDUCED: notes/assumptions/14.md.) -/
def rsDecode (m : Nat) (w : Bytes) : Dec :=
  if w = markerRaw then .poisoned else
  let s0 := rsSyn w 0
  let s1 := rsSyn w 1
  let s2 := rsSyn w 2
  let s3 := rsSyn w 3
  let synd := s0 + 256 * s1 + 65536 * s2 + 16777216 * s3
  if synd = 0 then .clean (w.take 64) else
  let single := rsRoots fun x => s0 != 0 && gfMul s0 x == s1 && gfMul s1 x == s2 && gfMul s2 x == s3
  match single with
  | [p] => .corrected ((xorAt w (67 - p) s0).take 64) (67 - p) 127 synd
  | _ =>
    if m = 0 then .uncorrectable synd else
    let det := gfMul s0 s2 ^^^ gfMul s1 s1
    if det = 0 then .uncorrectable synd else
    let di := gfInv det
    let g1 := gfMul di (gfMul s0 s3 ^^^ gfMul s1 s2)
    let g2 := gfMul di (gfMul s1 s3 ^^^ gfMul s2 s2)
    match rsRoots fun x => (gfMul x x ^^^ gfMul g1 x ^^^ g2) == 0 with
    | [p, q] =>
      let x1 := gfPow p
      let x2 := gfPow q
      let e2 := gfMul (gfMul s0 x1 ^^^ s1) (gfInv (x1 ^^^ x2))
      let e1 := s0 ^^^ e2
      let w2 := xorAt (xorAt w (67 - p) e1) (67 - q) e2
      .corrected (w2.take 64) (67 - q) (67 - p) synd
    | _ => .uncorrectable synd

/-- The check nibble of a data byte in a window (R344). (DEDUCED: notes/assumptions/14.md.) -/
def winNibble (b : Nat) : Nat :=
  let d := fun k => b2n (b.testBit k)
  (d 0 ^^^ d 1 ^^^ d 3 ^^^ d 4 ^^^ d 6) + 2 * (d 0 ^^^ d 2 ^^^ d 3 ^^^ d 5 ^^^ d 6) + 4 * (d 1 ^^^ d 2 ^^^ d 3 ^^^ d 7)
    + 8 * (d 4 ^^^ d 5 ^^^ d 6 ^^^ d 7)

/-- The decode of one window byte with its stored nibble: the data byte, whether it was corrected, whether it failed, and the syndrome. (DEDUCED: notes/assumptions/14.md.) -/
def winDecode (b nib : Nat) : Nat × Bool × Bool × Nat :=
  let s := nib ^^^ winNibble b
  let flip := fun k => (b ^^^ 2 ^ k, true, false, s)
  match s with
  | 0 => (b, false, false, 0)
  | 3 => flip 0
  | 5 => flip 1
  | 6 => flip 2
  | 7 => flip 3
  | 9 => flip 4
  | 10 => flip 5
  | 11 => flip 6
  | 12 => flip 7
  | 13 => (b, false, true, 13)
  | 14 => (b, false, true, 14)
  | 15 => (b, false, true, 15)
  | t => (b, true, false, t)

/-- The nibble of data byte i of a granule, from its 32 shadow bytes (R91). -/
def nibAt (sh : Bytes) (i : Nat) : Nat :=
  let b := (sh.getD (i / 2) 0#8).toNat
  if i % 2 = 0 then b % 16 else b / 16

/-- The 32 shadow bytes of 64 data bytes. -/
def winShadow (d : Bytes) : Bytes :=
  (List.range 32).map fun k =>
    BitVec.ofNat 8 (winNibble (d.getD (2 * k) 0#8).toNat + 16 * winNibble (d.getD (2 * k + 1) 0#8).toNat)

/-- The shadow that a write-back leaves: the nibble of each byte as corrected, and of a byte that fails its check the one it has (R344, R345). -/
def winRepair (d sh : Bytes) : Bytes :=
  let nib := fun i =>
    let r := winDecode (d.getD i 0#8).toNat (nibAt sh i)
    if r.2.2.1 then nibAt sh i else winNibble r.1
  (List.range 32).map fun k => BitVec.ofNat 8 (nib (2 * k) + 16 * nib (2 * k + 1))

/-- The decode of a window granule from its data and shadow bytes (R343, R344), judged on the bytes that `need` marks, those of the transfer: SYM0 is
the first failing byte. -/
def winGranule (need : Nat) (d sh : Bytes) : Dec :=
  let r := (List.range 64).map fun i => winDecode (d.getD i 0#8).toNat (nibAt sh i)
  let bad := (List.range 64).filter fun i => need.testBit i && (r.getD i (0, false, false, 0)).2.2.1
  let fixed := (List.range 64).filter fun i => (r.getD i (0, false, false, 0)).2.1
  match bad with
  | i :: _ => .uncorrectable (i * 256 + (r.getD i (0, false, false, 0)).2.2.2)
  | [] =>
    let out := r.map fun x => BitVec.ofNat 8 x.1
    match fixed with
    | [] => .clean out
    | i :: _ => .corrected out i 127 (r.getD i (0, false, false, 0)).2.2.2

end Sys2Proof.Machine
end

