-- ==== Sys2Proof/Config.lean ====
section
/-! DEFINITION. Sys2Proof/Config.lean: what the spec leaves open, as constants without a value. Each is applied to a counter that the
state holds (State.free) or to the operands it depends on, so that no proof can lean on what it is. -/
namespace Sys2Proof

/-- The 32-bit values drawn from the always-on oscillator's jitter (10_rills.md R299; 13_aqueduct_ring.md R372; 19_cascade_and_services.md
R506): the draw number n. Free value: DESIGN CHOICE, notes/assumptions/5.md. -/
opaque Config.jitter : Nat → BitVec 32

/-- The value the neighbour-refresh generator of pseudo-channel pc shows at its n-th step after the seeding s (10_rills.md R299 gives
neither the seed nor the step). Free value: DESIGN CHOICE, notes/assumptions/6.md. -/
opaque Config.rfmStep : Nat → Nat → Nat → BitVec 32

/-- Whether a low pulse of RST_N of 30 ns to 10 us, the n-th one, causes a cold reset (02_ports.md R65: not defined). Free value:
DESIGN CHOICE: notes/assumptions/7.md. -/
opaque Config.shortPulse : Nat → Bool

/-- Whether the n-th PPS edge with a high time under 1 us is ignored (02_ports.md R55: may be ignored). Free value: DESIGN CHOICE, notes/assumptions/8.md. -/
opaque Config.shortPps : Nat → Bool

/-- The level of MGR_SEL at the end of a cold reset that a lock of REFCLK ends, with the draw number n (02_ports.md R66; the row REFCLK_LOCK carries
no pins). Free value: DESIGN CHOICE, notes/assumptions/55.md. -/
opaque Config.strapMgr : Nat → Bool

/-- The levels of INST_ID there. Free value: DESIGN CHOICE, notes/assumptions/55.md. -/
opaque Config.strapInst : Nat → BitVec 4

/-- The unit-chosen result of operation op on an operand word, where the spec states the effect and not the value. Free value:
DESIGN CHOICE: notes/assumptions/9.md. -/
opaque Config.unstated : Nat → Nat → BitVec 64

end Sys2Proof
end

