-- ==== Sys2Proof/Machine/EvCodes.lean ====
section
/-! DEFINITION. Sys2Proof/Machine/EvCodes.lean: the event codes the block sends and the severity of each, from the code table of
20_events_and_sediment.md R558, and the unit numbers of R542. -/
namespace Sys2Proof.Machine

/-- RWS_DISCARD (R558). -/
def Ev.RWS_DISCARD : Nat := 0x0101
/-- WRAPPER_REFUSED (R558). -/
def Ev.WRAPPER_REFUSED : Nat := 0x0102
/-- MAP_REFUSED (R558). -/
def Ev.MAP_REFUSED : Nat := 0x0103
/-- STACK_MISMATCH (R558). -/
def Ev.STACK_MISMATCH : Nat := 0x0104
/-- MAP_EXHAUSTED (R558). -/
def Ev.MAP_EXHAUSTED : Nat := 0x0105
/-- BOOT_PHASE (R558). -/
def Ev.BOOT_PHASE : Nat := 0x0120
/-- BOOT_READY (R558). -/
def Ev.BOOT_READY : Nat := 0x0121
/-- START_TIMEOUT (R558). -/
def Ev.START_TIMEOUT : Nat := 0x0122
/-- TEST_RESULT (R558). -/
def Ev.TEST_RESULT : Nat := 0x0123
/-- WARM_RESET (R558). -/
def Ev.WARM_RESET : Nat := 0x0124
/-- COLD_RESET (R558). -/
def Ev.COLD_RESET : Nat := 0x0125
/-- PSTATE_ENTER (R558). -/
def Ev.PSTATE_ENTER : Nat := 0x0126
/-- PSTATE_EXIT (R558). -/
def Ev.PSTATE_EXIT : Nat := 0x0127
/-- GLB_CFG_REFUSED (R558). -/
def Ev.GLB_CFG_REFUSED : Nat := 0x0128
/-- MGR_ELECTED (R558). -/
def Ev.MGR_ELECTED : Nat := 0x0201
/-- MGR_NONE (R558). -/
def Ev.MGR_NONE : Nat := 0x0202
/-- MGR_DUP (R558). -/
def Ev.MGR_DUP : Nat := 0x0203
/-- INST_DUP (R558). -/
def Ev.INST_DUP : Nat := 0x0204
/-- INST_MISSING (R558). -/
def Ev.INST_MISSING : Nat := 0x0205
/-- CAS_LINK_DOWN (R558). -/
def Ev.CAS_LINK_DOWN : Nat := 0x0206
/-- CAS_LOOP_BROKEN (R558). -/
def Ev.CAS_LOOP_BROKEN : Nat := 0x0207
/-- CAS_LOOP_RESTORED (R558). -/
def Ev.CAS_LOOP_RESTORED : Nat := 0x0208
/-- MGR_LOST (R558). -/
def Ev.MGR_LOST : Nat := 0x0209
/-- RING_REPORT (R558). -/
def Ev.RING_REPORT : Nat := 0x020A
/-- CAS_CFG_REFUSED (R558). -/
def Ev.CAS_CFG_REFUSED : Nat := 0x020B
/-- TIME_STEP (R558). -/
def Ev.TIME_STEP : Nat := 0x0301
/-- PPS_LOCKED (R558). -/
def Ev.PPS_LOCKED : Nat := 0x0302
/-- PPS_LOST (R558). -/
def Ev.PPS_LOST : Nat := 0x0303
/-- TIDE_HOLDOVER (R558). -/
def Ev.TIDE_HOLDOVER : Nat := 0x0304
/-- TIDE_RESUMED (R558). -/
def Ev.TIDE_RESUMED : Nat := 0x0305
/-- TIDE_BACKWARD (R558). -/
def Ev.TIDE_BACKWARD : Nat := 0x0306
/-- TIDE_REBASE (R558). -/
def Ev.TIDE_REBASE : Nat := 0x0307
/-- TIM_CFG_REFUSED (R558). -/
def Ev.TIM_CFG_REFUSED : Nat := 0x0308
/-- PWR_CFG_REFUSED (R558). -/
def Ev.PWR_CFG_REFUSED : Nat := 0x0401
/-- PHASE_FAIL (R558). -/
def Ev.PHASE_FAIL : Nat := 0x0402
/-- REG_FAIL (R558). -/
def Ev.REG_FAIL : Nat := 0x0403
/-- REG_CAP (R558). -/
def Ev.REG_CAP : Nat := 0x0404
/-- REG_UNCAP (R558). -/
def Ev.REG_UNCAP : Nat := 0x0405
/-- DOMAIN_DARK (R558). -/
def Ev.DOMAIN_DARK : Nat := 0x0406
/-- REGION_SHUTDOWN (R558). -/
def Ev.REGION_SHUTDOWN : Nat := 0x0407
/-- WAKE_DELAYED (R558). -/
def Ev.WAKE_DELAYED : Nat := 0x0408
/-- WAKE_FAIL (R558). -/
def Ev.WAKE_FAIL : Nat := 0x0409
/-- PWR_CAP_STEP (R558). -/
def Ev.PWR_CAP_STEP : Nat := 0x040A
/-- REG_RESTORED (R558). -/
def Ev.REG_RESTORED : Nat := 0x040B
/-- THM_CFG_REFUSED (R558). -/
def Ev.THM_CFG_REFUSED : Nat := 0x0501
/-- THM_WARN (R558). -/
def Ev.THM_WARN : Nat := 0x0502
/-- THM_WARN_CLEAR (R558). -/
def Ev.THM_WARN_CLEAR : Nat := 0x0503
/-- THM_THROTTLE (R558). -/
def Ev.THM_THROTTLE : Nat := 0x0504
/-- SENSOR_EXCLUDED (R558). -/
def Ev.SENSOR_EXCLUDED : Nat := 0x0505
/-- SENSOR_QUORUM (R558). -/
def Ev.SENSOR_QUORUM : Nat := 0x0506
/-- STACK_THROTTLE (R558). -/
def Ev.STACK_THROTTLE : Nat := 0x0507
/-- THERM_TRIP (R558). -/
def Ev.THERM_TRIP : Nat := 0x0508
/-- THERM_RESTART (R558). -/
def Ev.THERM_RESTART : Nat := 0x0509
/-- RESTART_HELD (R558). -/
def Ev.RESTART_HELD : Nat := 0x050A
/-- STACK_RETENTION (R558). -/
def Ev.STACK_RETENTION : Nat := 0x050B
/-- CAL_CFG_REFUSED (R558). -/
def Ev.CAL_CFG_REFUSED : Nat := 0x0601
/-- CAL_REF_FAULT (R558). -/
def Ev.CAL_REF_FAULT : Nat := 0x0602
/-- CAL_DISAGREE (R558). -/
def Ev.CAL_DISAGREE : Nat := 0x0603
/-- CAL_DRIFT (R558). -/
def Ev.CAL_DRIFT : Nat := 0x0604
/-- TRAIN_FAIL (R558). -/
def Ev.TRAIN_FAIL : Nat := 0x0605
/-- CAL_ABANDONED (R558). -/
def Ev.CAL_ABANDONED : Nat := 0x0606
/-- CAL_NO_SPARE (R558). -/
def Ev.CAL_NO_SPARE : Nat := 0x0607
/-- FSP_SWITCHED (R558). -/
def Ev.FSP_SWITCHED : Nat := 0x0608
/-- ITK_CFG_REFUSED (R558). -/
def Ev.ITK_CFG_REFUSED : Nat := 0x0701
/-- GUARANTEE_SCALED (R558). -/
def Ev.GUARANTEE_SCALED : Nat := 0x0702
/-- GUARANTEE_RESTORED (R558). -/
def Ev.GUARANTEE_RESTORED : Nat := 0x0703
/-- FPORT_NEG_FAIL (R558). -/
def Ev.FPORT_NEG_FAIL : Nat := 0x0704
/-- SCH_CFG_REFUSED (R558). -/
def Ev.SCH_CFG_REFUSED : Nat := 0x0801
/-- REF_HOT (R558). -/
def Ev.REF_HOT : Nat := 0x0802
/-- REF_COOL (R558). -/
def Ev.REF_COOL : Nat := 0x0803
/-- STACK_TEMP_FAIL (R558). -/
def Ev.STACK_TEMP_FAIL : Nat := 0x0804
/-- DEFER_EXPIRED (R558). -/
def Ev.DEFER_EXPIRED : Nat := 0x0805
/-- FORCED_IN_WINDOW (R558). -/
def Ev.FORCED_IN_WINDOW : Nat := 0x0806
/-- TAKEOVER (R558). -/
def Ev.TAKEOVER : Nat := 0x0807
/-- RILL_FAIL (R558). -/
def Ev.RILL_FAIL : Nat := 0x0808
/-- CRESET_DONE (R558). -/
def Ev.CRESET_DONE : Nat := 0x0809
/-- MOV_HALF (R558). -/
def Ev.MOV_HALF : Nat := 0x0901
/-- MOV_FULL (R558). -/
def Ev.MOV_FULL : Nat := 0x0902
/-- BUS_ERROR (R558). -/
def Ev.BUS_ERROR : Nat := 0x0903
/-- CFG_REFUSED (R558). -/
def Ev.CFG_REFUSED : Nat := 0x0904
/-- CONT_REFUSED (R558). -/
def Ev.CONT_REFUSED : Nat := 0x0905
/-- TAIL_REFUSED (R558). -/
def Ev.TAIL_REFUSED : Nat := 0x0906
/-- CMD_DONE (R558). -/
def Ev.CMD_DONE : Nat := 0x0980
/-- SPOUT_FAULT (R558). -/
def Ev.SPOUT_FAULT : Nat := 0x0981
/-- SIGNAL_EVENT (R558). -/
def Ev.SIGNAL_EVENT : Nat := 0x0982
/-- RING_REFUSED (R558). -/
def Ev.RING_REFUSED : Nat := 0x0983
/-- TX_CFG_REFUSED (R558). -/
def Ev.TX_CFG_REFUSED : Nat := 0x0B01
/-- TX_INDOUBT (R558). -/
def Ev.TX_INDOUBT : Nat := 0x0B02
/-- TX_PKG_ABORT (R558). -/
def Ev.TX_PKG_ABORT : Nat := 0x0B03
/-- TX_RECOVERED (R558). -/
def Ev.TX_RECOVERED : Nat := 0x0B04
/-- RAS_CFG_REFUSED (R558). -/
def Ev.RAS_CFG_REFUSED : Nat := 0x0C01
/-- UE (R558). -/
def Ev.UE : Nat := 0x0C02
/-- CE_STORM (R558). -/
def Ev.CE_STORM : Nat := 0x0C03
/-- HARD_ERROR (R558). -/
def Ev.HARD_ERROR : Nat := 0x0C04
/-- REMAP_FULL (R558). -/
def Ev.REMAP_FULL : Nat := 0x0C05
/-- REPAIR_LIST_FULL (R558). -/
def Ev.REPAIR_LIST_FULL : Nat := 0x0C06
/-- REPAIR_DONE (R558). -/
def Ev.REPAIR_DONE : Nat := 0x0C07
/-- REPAIR_FAILED (R558). -/
def Ev.REPAIR_FAILED : Nat := 0x0C08
/-- REPAIR_EXHAUSTED (R558). -/
def Ev.REPAIR_EXHAUSTED : Nat := 0x0C09
/-- RMW_LOST (R558). -/
def Ev.RMW_LOST : Nat := 0x0C0A
/-- SCRUB_BEHIND (R558). -/
def Ev.SCRUB_BEHIND : Nat := 0x0C0B
/-- SCRUB_PASS (R558). -/
def Ev.SCRUB_PASS : Nat := 0x0C0C
/-- SELFTEST_FAIL (R558). -/
def Ev.SELFTEST_FAIL : Nat := 0x0C0D
/-- AUTO_RETIRE (R558). -/
def Ev.AUTO_RETIRE : Nat := 0x0C0E
/-- AQD_DETECT_FAIL (R558). -/
def Ev.AQD_DETECT_FAIL : Nat := 0x0D01
/-- AQD_QUALIFIED (R558). -/
def Ev.AQD_QUALIFIED : Nat := 0x0D02
/-- AQD_QUAL_RESTART (R558). -/
def Ev.AQD_QUAL_RESTART : Nat := 0x0D03
/-- AQD_LANE_EXCLUDED (R558). -/
def Ev.AQD_LANE_EXCLUDED : Nat := 0x0D04
/-- AQD_LANE_RESTORED (R558). -/
def Ev.AQD_LANE_RESTORED : Nat := 0x0D05
/-- AQD_PORT_UP (R558). -/
def Ev.AQD_PORT_UP : Nat := 0x0D06
/-- AQD_PORT_FAILED (R558). -/
def Ev.AQD_PORT_FAILED : Nat := 0x0D07
/-- AQD_RING_STATE (R558). -/
def Ev.AQD_RING_STATE : Nat := 0x0D08
/-- AQD_DUP_NODE (R558). -/
def Ev.AQD_DUP_NODE : Nat := 0x0D09
/-- AQD_CFG_REFUSED (R558). -/
def Ev.AQD_CFG_REFUSED : Nat := 0x0D0A
/-- WEI_CFG_REFUSED (R558). -/
def Ev.WEI_CFG_REFUSED : Nat := 0x0E01
/-- POLICE_DROP (R558). -/
def Ev.POLICE_DROP : Nat := 0x0E02
/-- LATE_CLOSE (R558). -/
def Ev.LATE_CLOSE : Nat := 0x0E03
/-- TRANSIT_FULL (R558). -/
def Ev.TRANSIT_FULL : Nat := 0x0E04
/-- BAS_CFG_REFUSED (R558). -/
def Ev.BAS_CFG_REFUSED : Nat := 0x0F01
/-- PIN_REFUSING (R558). -/
def Ev.PIN_REFUSING : Nat := 0x0F02
/-- PIN_ACCEPTING (R558). -/
def Ev.PIN_ACCEPTING : Nat := 0x0F03
/-- PIN_LOST (R558). -/
def Ev.PIN_LOST : Nat := 0x0F04
/-- DEADTAB_FULL (R558). -/
def Ev.DEADTAB_FULL : Nat := 0x0F05
/-- SED_FROZEN (R558). -/
def Ev.SED_FROZEN : Nat := 0x1001
/-- SED_REARMED (R558). -/
def Ev.SED_REARMED : Nat := 0x1002
/-- EVQ_LOST (R558). -/
def Ev.EVQ_LOST : Nat := 0x1003
/-- EVQ_ERROR (R558). -/
def Ev.EVQ_ERROR : Nat := 0x1004
/-- SED_AGG_DONE (R558). -/
def Ev.SED_AGG_DONE : Nat := 0x1005
/-- SED_CFG_REFUSED (R558). -/
def Ev.SED_CFG_REFUSED : Nat := 0x1006
/-- TIER_APPLIED (R558). -/
def Ev.TIER_APPLIED : Nat := 0x1101
/-- TIER_INVALID (R558). -/
def Ev.TIER_INVALID : Nat := 0x1102
/-- TIER_RECORD_REFUSED (R558). -/
def Ev.TIER_RECORD_REFUSED : Nat := 0x1103
/-- OVERLAY_SWITCHED (R558). -/
def Ev.OVERLAY_SWITCHED : Nat := 0x1104
/-- OVERLAY_REFUSED (R558). -/
def Ev.OVERLAY_REFUSED : Nat := 0x1105
/-- FW_LOADED (R558). -/
def Ev.FW_LOADED : Nat := 0x1201
/-- FW_INVALID (R558). -/
def Ev.FW_INVALID : Nat := 0x1202
/-- BOOT_FAILED (R558). -/
def Ev.BOOT_FAILED : Nat := 0x1203
/-- PLUME_GO (R558). -/
def Ev.PLUME_GO : Nat := 0x1204
/-- PLUME_LATE_GO (R558). -/
def Ev.PLUME_LATE_GO : Nat := 0x1205
/-- PLUME_ABORTED (R558). -/
def Ev.PLUME_ABORTED : Nat := 0x1206
/-- FNT_CFG_INVALID (R558). -/
def Ev.FNT_CFG_INVALID : Nat := 0x1207
/-- FNT_CFG_REFUSED (R558). -/
def Ev.FNT_CFG_REFUSED : Nat := 0x1208
/-- CENSUS_SKIPPED (R558). -/
def Ev.CENSUS_SKIPPED : Nat := 0x1209
/-- MBOX_DONE (R558). -/
def Ev.MBOX_DONE : Nat := 0x120A

/-- The severity of a code (R543, R558): 0 routine, 1 info, 2 warning, 3 error, 4 fatal. -/
def sevOf (code : Nat) : Nat :=
  if [0x0901, 0x0902, 0x0980, 0x0A80, 0x1280, 0x0982, 0x0A82, 0x1282, 0x120A].contains code then 0 else
  if [0x0120, 0x0121, 0x0123, 0x0124, 0x0125, 0x0126, 0x0127, 0x0201, 0x0208, 0x020A, 0x0302, 0x0305, 0x0307, 0x0405, 0x0408, 0x040A, 0x040B, 0x0503, 0x0509, 0x0604, 0x0608, 0x0703, 0x0802, 0x0803, 0x0809, 0x0B04, 0x0C07, 0x0C0C, 0x0D02, 0x0D05, 0x0D06, 0x0D08, 0x0F03, 0x1001, 0x1002, 0x1005, 0x1101, 0x1104, 0x1201, 0x1204].contains code then 1 else
  if [0x0101, 0x0102, 0x0103, 0x0122, 0x0128, 0x0202, 0x0203, 0x0205, 0x020B, 0x0301, 0x0303, 0x0304, 0x0306, 0x0308, 0x0401, 0x0402, 0x0404, 0x0409, 0x0501, 0x0502, 0x0504, 0x0505, 0x0507, 0x0601, 0x0603, 0x0606, 0x0607, 0x0701, 0x0702, 0x0704, 0x0801, 0x0805, 0x0806, 0x0807, 0x0904, 0x0905, 0x0906, 0x0A06, 0x120B, 0x0983, 0x0A83, 0x1283, 0x0B01, 0x0B03, 0x0C01, 0x0C03, 0x0C04, 0x0C0B, 0x0D01, 0x0D03, 0x0D04, 0x0D0A, 0x0E01, 0x0E02, 0x0E03, 0x0E04, 0x0F01, 0x0F02, 0x0F04, 0x0F05, 0x1003, 0x1006, 0x1103, 0x1105, 0x1205, 0x1206, 0x1208, 0x1209].contains code then 2 else
  if [0x0104, 0x0105, 0x0204, 0x0407, 0x0508].contains code then 4 else
  3

/-- UNIT of the instance (R542). -/
def Un.inst : Nat := 0
/-- UNIT of fabric port p. -/
def Un.fport (p : Nat) : Nat := 0x010 + p
/-- UNIT of an aqueduct port. -/
def Un.aport (p : Nat) : Nat := 0x020 + p
/-- UNIT of triad t. -/
def Un.triad (t : Nat) : Nat := 0x028 + t
/-- UNIT of regulator r. -/
def Un.regul (r : Nat) : Nat := 0x030 + r
/-- UNIT of sensor s. -/
def Un.sensor (s : Nat) : Nat := 0x050 + s
/-- UNIT of a pseudo-channel. -/
def Un.pc (n : Nat) : Nat := 0x060 + n
/-- UNIT of a spare rill. -/
def Un.spare (m : Nat) : Nat := 0x0A0 + m
/-- UNIT of a package transaction. -/
def Un.pkt (x : Nat) : Nat := 0x0B0 + x
/-- UNIT of a power domain. -/
def Un.domain (d : Nat) : Nat := 0x0C0 + d
/-- UNIT of a spout. -/
def Un.spout (p : Nat) : Nat := 0x200 + p
/-- UNIT of a leg. -/
def Un.leg (l : Nat) : Nat := 0x300 + l
/-- UNIT of an overlay, or of the base tier for 16. -/
def Un.tier (k : Nat) : Nat := 0x380 + k

end Sys2Proof.Machine
end

