-- ==== Sys2Proof/Machine/Num.lean ====
section
/-! DEFINITION. Sys2Proof/Machine/Num.lean: the number formats, their exact values, rounding, saturation, block scales and accumulators
(05_number_formats.md R129 to R157). Every value is exact: a sign, an integer and a power of two. -/
namespace Sys2Proof.Machine

/-! ## Exact values -/

/-- A decoded element: NaN, an infinity, or (−1)^neg × m × 2^e; a zero keeps its sign. -/
inductive Val where
  | nan
  | inf (neg : Bool)
  | fin (neg : Bool) (m : Nat) (e : Int)
deriving DecidableEq, Repr

/-- +0. -/
def Val.zero : Val := .fin false 0 0
/-- The value of an integer. -/
def Val.ofInt (i : Int) : Val := .fin (decide (i < 0)) i.natAbs 0

/-- m × 2^e as a multiple of 2^t, t at most e. -/
def scaleTo (m : Nat) (e t : Int) : Nat := m * 2 ^ (e - t).toNat

/-- The signed integer that m × 2^e with a sign is, in units of 2^t. -/
def Val.units (neg : Bool) (m : Nat) (e t : Int) : Int := if neg then -(scaleTo m e t : Int) else scaleTo m e t

/-- a + b exactly; an exact zero sum of opposite signs takes sign zs (IEEE 754-2019: − only when rounding down). -/
def Val.add (zs : Bool) : Val → Val → Val
  | .nan, _ => .nan
  | _, .nan => .nan
  | .inf s, .inf t => if s = t then .inf s else .nan
  | .inf s, _ => .inf s
  | _, .inf t => .inf t
  | .fin s m e, .fin t n f =>
    let q := if e ≤ f then e else f
    let r := Val.units s m e q + Val.units t n f q
    if r = 0 then .fin (if s = t then s else zs) 0 0 else .fin (decide (r < 0)) r.natAbs q

/-- −a. -/
def Val.neg : Val → Val
  | .nan => .nan
  | .inf s => .inf (!s)
  | .fin s m e => .fin (!s) m e

/-- |a|. -/
def Val.abs : Val → Val
  | .nan => .nan
  | .inf _ => .inf false
  | .fin _ m e => .fin false m e

/-- a × b exactly; 0 × ∞ is NaN. -/
def Val.mul : Val → Val → Val
  | .nan, _ => .nan
  | _, .nan => .nan
  | .inf s, .inf t => .inf (s != t)
  | .inf s, .fin t n _ => if n = 0 then .nan else .inf (s != t)
  | .fin s m _, .inf t => if m = 0 then .nan else .inf (s != t)
  | .fin s m e, .fin t n f => .fin (s != t) (m * n) (e + f)

/-- The value is NaN. -/
def Val.isNan : Val → Bool
  | .nan => true
  | _ => false
/-- The value is an infinity. -/
def Val.isInf : Val → Bool
  | .inf _ => true
  | _ => false
/-- The value is a zero. -/
def Val.isZero : Val → Bool
  | .fin _ 0 _ => true
  | _ => false

/-- a < b for values that are no NaN, −0 equal to +0. -/
def Val.lt : Val → Val → Bool
  | .nan, _ => false
  | _, .nan => false
  | .inf s, .inf t => s && !t
  | .inf s, _ => s
  | _, .inf t => !t
  | .fin s m e, .fin t n f =>
    let q := if e ≤ f then e else f
    decide (Val.units s m e q < Val.units t n f q)

/-- a = b for values that are no NaN, −0 equal to +0. -/
def Val.eqv (a b : Val) : Bool := !a.isNan && !b.isNan && !Val.lt a b && !Val.lt b a

/-- a comes before b in the order of VMIN and VMAX, −0 below +0 (07_jet_engines.md R198). -/
def Val.below (a b : Val) : Bool :=
  Val.lt a b || (a.isZero && b.isZero && (match a, b with | .fin s _ _, .fin t _ _ => s && !t | _, _ => false))

/-! ## Formats (R129, R132, R134) -/

/-- A float format: mantissa bits, exponent bits, bias, whether it has infinities, whether it has NaN encodings, and the position of bit 0 of its
encoding in its storage. -/
structure FloatFmt where
  mant  : Nat
  ebits : Nat
  bias  : Nat
  inf   : Bool
  nan   : Bool
  shift : Nat
deriving DecidableEq, Repr

/-- The float format of a code. -/
def floatFmt (code : Nat) : Option FloatFmt :=
  match code with
  | 0 => some ⟨52, 11, 1023, true, true, 0⟩
  | 1 => some ⟨23, 8, 127, true, true, 0⟩
  | 2 => some ⟨10, 8, 127, true, true, 13⟩
  | 3 => some ⟨7, 8, 127, true, true, 0⟩
  | 4 => some ⟨10, 5, 15, true, true, 0⟩
  | 5 => some ⟨2, 5, 15, true, true, 0⟩
  | 6 => some ⟨3, 4, 7, false, true, 0⟩
  | 7 => some ⟨2, 3, 3, false, false, 0⟩
  | 8 => some ⟨3, 2, 1, false, false, 0⟩
  | 9 => some ⟨1, 2, 1, false, false, 0⟩
  | _ => none

/-- Bits of storage of an element. -/
def fmtBits (code : Nat) : Nat := [64, 32, 32, 16, 16, 8, 8, 6, 6, 4, 32, 16, 8, 4, 8, 8].getD code 8
/-- Bytes of an element of a format of whole bytes. -/
def fmtBytes (code : Nat) : Nat := fmtBits code / 8
/-- An integer format. -/
def isIntFmt (code : Nat) : Bool := decide (10 ≤ code ∧ code ≤ 13)
/-- fp32 and fp64 formats, as codes. -/
def fp64 : Nat := 0
def fp32 : Nat := 1

/-- The exponent field of all ones. -/
def FloatFmt.eMax (f : FloatFmt) : Nat := 2 ^ f.ebits - 1
/-- The exponent of the smallest quantum, 1 − bias − mant. -/
def FloatFmt.qmin (f : FloatFmt) : Int := 1 - (f.bias : Int) - f.mant
/-- The largest finite magnitude, as its mantissa integer and exponent of two. -/
def FloatFmt.maxMag (f : FloatFmt) : Nat × Int :=
  if f.inf then (2 ^ (f.mant + 1) - 1, (f.eMax : Int) - 1 - f.bias - f.mant)
  else if f.nan then (2 ^ (f.mant + 1) - 2, (f.eMax : Int) - f.bias - f.mant)
  else (2 ^ (f.mant + 1) - 1, (f.eMax : Int) - f.bias - f.mant)

/-- The value of an encoding (R132). -/
def FloatFmt.value (f : FloatFmt) (w : Nat) : Val :=
  let x := w >>> f.shift
  let m := x % 2 ^ f.mant
  let e := (x >>> f.mant) % 2 ^ f.ebits
  let s := x.testBit (f.mant + f.ebits)
  if f.inf && e == f.eMax then (if m = 0 then .inf s else .nan)
  else if f.nan && !f.inf && e == f.eMax && m == 2 ^ f.mant - 1 then .nan
  else if e = 0 then .fin s m f.qmin
  else .fin s (2 ^ f.mant + m) ((e : Int) - f.bias - f.mant)

/-- The code value of an element's bits; `mx` is true under MX, where int8 is the OCP MXINT8 element (R135). -/
def codeValue (code w : Nat) (mx : Bool) : Val :=
  match floatFmt code with
  | some f => f.value w
  | none =>
    if code = 14 then (if w % 256 = 255 then .nan else .fin false 1 ((w % 256 : Nat) - 127))
    else
      let i := sx (fmtBits code) w
      if mx && code == 12 then .fin (decide (i < 0)) i.natAbs (-6) else Val.ofInt i

/-- The canonical NaN (R132). -/
def FloatFmt.nanBits (f : FloatFmt) : Nat :=
  if f.inf then ((f.eMax <<< f.mant) + 2 ^ (f.mant - 1)) <<< f.shift else (f.eMax <<< f.mant) + 2 ^ f.mant - 1
/-- The encoding of an infinity. -/
def FloatFmt.infBits (f : FloatFmt) (neg : Bool) : Nat := ((f.eMax <<< f.mant) + b2n neg * 2 ^ (f.mant + f.ebits)) <<< f.shift
/-- The encoding of the largest finite value with a sign. -/
def FloatFmt.maxBits (f : FloatFmt) (neg : Bool) : Nat :=
  let mag := if f.inf then (f.eMax <<< f.mant) - 1 else if f.nan then (f.eMax <<< f.mant) + 2 ^ f.mant - 2 else 2 ^ (f.mant + f.ebits) - 1
  (mag + b2n neg * 2 ^ (f.mant + f.ebits)) <<< f.shift
/-- The encoding of the representable magnitude m × 2^q, q the quantum it was rounded to. -/
def FloatFmt.packMag (f : FloatFmt) (neg : Bool) (m : Nat) (q : Int) : Nat :=
  let excess := decide (2 ^ (f.mant + 1) ≤ m)
  let m1 := if excess then m / 2 else m
  let q1 := if excess then q + 1 else q
  let mag := if m1 < 2 ^ f.mant then m1 else ((q1 + f.bias + f.mant).toNat <<< f.mant) + (m1 - 2 ^ f.mant)
  (mag + b2n neg * 2 ^ (f.mant + f.ebits)) <<< f.shift

/-! ## Rounding (R143, R144) -/

/-- floor(log2 (n / d)) for positive n and d. -/
def log2Ratio (n d : Nat) : Int :=
  let a : Int := (Nat.log2 n : Int) - Nat.log2 d
  let fits := if 0 ≤ a then decide (d * 2 ^ a.toNat ≤ n) else decide (d ≤ n * 2 ^ (-a).toNat)
  if fits then a else a - 1

/-- floor and remainder of n / d × 2^e over 2^q: the quotient, the remainder, and the divisor it is a part of. -/
def quot (n d : Nat) (e q : Int) : Nat × Nat × Nat :=
  let num := if q ≤ e then n * 2 ^ (e - q).toNat else n
  let den := if q ≤ e then d else d * 2 ^ (q - e).toNat
  (num / den, num % den, den)

/-- Does a magnitude with integer part a, and rem over den left, round away from zero under mode rm, sign neg and random value r? -/
def roundsUp (rm : Nat) (neg : Bool) (r a rem den : Nat) : Bool :=
  if rem = 0 then false
  else
    match rm with
    | 0 => decide (den < 2 * rem) || (den == 2 * rem && a % 2 == 1)
    | 1 => false
    | 2 => !neg
    | 3 => neg
    | _ => decide (r < 65536 * rem / den)

/-- The result of a conversion: its bits and the flags it sets (R150: 1 INEXACT, 2 UNDERFLOW, 4 OVERFLOW, 8 INVALID). -/
structure Conv where
  bits  : Nat
  flags : Nat
deriving DecidableEq, Repr

/-- Flag masks of JET_NFLAG (R150). -/
def fINEXACT : Nat := 1
def fUNDERFLOW : Nat := 2
def fOVERFLOW : Nat := 4
def fINVALID : Nat := 8
def fIOVF : Nat := 16
def fACCOVF : Nat := 32
def fSCALENAN : Nat := 64

/-- What beyond-range magnitudes become without saturation (R148): true for infinity, false for the largest finite value. -/
def overToInf (rm : Nat) (neg up : Bool) : Bool :=
  match rm with
  | 0 => true
  | 1 => false
  | 2 => !neg
  | 3 => neg
  | _ => up

/-- The conversion of the finite magnitude n / d × 2^e with a sign to a float format (R148). -/
def FloatFmt.round (f : FloatFmt) (rm : Nat) (sat : Bool) (r : Nat) (neg : Bool) (n d : Nat) (e : Int) : Conv :=
  if n = 0 then ⟨f.packMag neg 0 f.qmin, 0⟩
  else
    let lg := log2Ratio n d + e
    let q := if lg - f.mant ≤ f.qmin then f.qmin else lg - f.mant
    let (a, rem, den) := quot n d e q
    let up := roundsUp rm neg r a rem den
    let m := if up then a + 1 else a
    let (mm, me) := f.maxMag
    let t := if q ≤ me then q else me
    let beyond := decide (scaleTo mm me t < scaleTo m q t)
    let tiny := decide (lg < 1 - (f.bias : Int))
    if beyond then
      let toInf := overToInf rm neg up
      let b := if f.inf then (if toInf && !(sat && f.mant == 2 && f.ebits == 5) then f.infBits neg else f.maxBits neg)
        else if f.nan then (if toInf && !sat then f.nanBits else f.maxBits neg)
        else f.maxBits neg
      ⟨b, fOVERFLOW + fINEXACT⟩
    else ⟨f.packMag neg m q, if rem = 0 then 0 else if tiny then fINEXACT + fUNDERFLOW else fINEXACT⟩

/-- The conversion of the finite magnitude n / d × 2^e with a sign to an integer of w bits, which saturates (R147, R148). -/
def roundInt (w rm r : Nat) (neg : Bool) (n d : Nat) (e : Int) : Conv :=
  let (a, rem, den) := quot n d e 0
  let m := if roundsUp rm neg r a rem den then a + 1 else a
  let lim := if neg then 2 ^ (w - 1) else 2 ^ (w - 1) - 1
  if lim < m then ⟨wrapInt w (if neg then -(lim : Int) else lim), fOVERFLOW + fINEXACT⟩
  else ⟨wrapInt w (if neg then -(m : Int) else m), if rem = 0 then 0 else fINEXACT⟩

/-- A value, divided by d, as an element of a format under RM and SAT (R148): its bits and flags. -/
def convert (code rm : Nat) (sat : Bool) (r : Nat) (v : Val) (d : Nat) : Conv :=
  match floatFmt code with
  | some f =>
    match v with
    | .nan => if f.nan then ⟨f.nanBits, 0⟩ else ⟨0, fINVALID⟩
    | .inf s =>
      if f.inf then ⟨f.infBits s, 0⟩ else if f.nan then ⟨f.nanBits, fINVALID⟩ else ⟨f.maxBits s, fINEXACT⟩
    | .fin s m e => f.round rm sat r s m d e
  | none =>
    let w := fmtBits code
    match v with
    | .nan => ⟨0, fINVALID⟩
    | .inf s => ⟨if s then 2 ^ (w - 1) else 2 ^ (w - 1) - 1, fINEXACT⟩
    | .fin s m e => roundInt w rm r s m d e

/-- The value of a conversion's bits. -/
def reread (code : Nat) (c : Conv) : Val := codeValue code c.bits false

/-- fp32 and fp64 rounding, nearest-even, as values with their flags: the accumulators of R151. -/
def roundAcc (code : Nat) (v : Val) : Val × Nat :=
  let c := convert code 0 false 0 v 1
  (reread code c, c.flags &&& fOVERFLOW)

/-- The square root of a finite magnitude m × 2^e, as n × 2^t with every discarded part shown by a last odd bit: more bits than any rounding or
random draw looks at. -/
def sqrtMag (m : Nat) (e : Int) : Nat × Int :=
  let odd := e % 2 ≠ 0
  let m1 := if odd then 2 * m else m
  let e1 := if odd then e - 1 else e
  let x := m1 * 2 ^ 256
  let r := Nat.sqrt x
  (2 * r + (if r * r = x then 0 else 1), e1 / 2 - 128 - 1)

/-! ## The generator (R145) -/

/-- One step of the generator. -/
def genStep (g : Nat) : Nat :=
  let a := g ^^^ (g <<< 13) % 2 ^ 64
  let b := a ^^^ (a >>> 7)
  b ^^^ (b <<< 17) % 2 ^ 64

/-- The draws of an instruction: the generator, and how many results have drawn. -/
structure Draw where
  g : Nat
  i : Nat
deriving DecidableEq, Repr

/-- The random value of the next result under mode rm, and the draws after it; only mode 4 draws. -/
def Draw.next (d : Draw) (rm : Nat) : Nat × Draw :=
  if rm ≠ 4 then (0, d)
  else
    let g := if d.i % 4 = 0 then genStep d.g else d.g
    (bits g (16 * (d.i % 4) + 15) (16 * (d.i % 4)), { g := g, i := d.i + 1 })

/-! ## Block scales (R135 to R142) -/

/-- The mode accepts an element format (R136). -/
def scaleOk (bsm code : Nat) : Bool :=
  match bsm with
  | 0 => true
  | 1 => [5, 6, 7, 8, 9, 12].contains code
  | 2 => [6, 7, 8, 9, 13].contains code
  | _ => [3, 4, 5, 6, 7, 8, 9, 12, 13].contains code

/-- Bytes of scale data of a block, or of a row. -/
def scaleBytes (bsm : Nat) : Nat := match bsm with | 1 => 1 | 2 => 3 | 3 => 4 | _ => 0

/-- The factor of element i of a block from its scale data (R135, R139). -/
def scaleOf (bsm : Nat) (sc : Bytes) (i : Nat) : Val :=
  let b := fun k => (sc.getD k 0#8).toNat
  match bsm with
  | 1 => if b 0 = 255 then .nan else .fin false 1 ((b 0 : Int) - 127)
  | 2 =>
    let j := (i % 32) / 8
    let u := (b (1 + j / 2) / (if j % 2 = 0 then 1 else 16)) % 16
    if b 0 = 255 then .nan else .fin false 1 ((b 0 : Int) - 127 - u)
  | 3 => codeValue 1 (leNat sc) false
  | _ => .fin false 1 0

/-- The decoded value of a code under a factor (R135, R139): a NaN or infinite code keeps its class under MX and two-tier; per-row scaling follows IEEE
multiplication. -/
def scaled (bsm : Nat) (f v : Val) : Val := if bsm = 0 then v else Val.mul f v

/-- emax of an element format under a mode, as R140 uses it. -/
def emaxOf (code : Nat) : Int := match code with | 5 => 15 | 6 => 8 | 7 => 4 | 8 => 2 | 9 => 2 | 13 => 2 | _ => 0

/-- M of R142: the element format's maximum magnitude in a per-row destination, as an integer and a power of two. -/
def maxElem (code : Nat) : Nat × Int :=
  match floatFmt code with
  | some f => f.maxMag
  | none => (if code = 12 then 127 else 7, 0)

/-- floor(log2) of a positive magnitude. -/
def floorLog (m : Nat) (e : Int) : Int := (Nat.log2 m : Int) + e

/-- The larger of two magnitudes, as finite values. -/
def maxAbs (a b : Val) : Val := if Val.lt a.abs b.abs then b.abs else a.abs

/-- The largest magnitude of a list of finite values. -/
def amaxOf (l : List Val) : Val := l.foldl maxAbs Val.zero

/-- Some value of a list is NaN or infinite. -/
def anySpecial (l : List Val) : Bool := l.any fun v => v.isNan || v.isInf

/-- The scale data of a block of values (R140, R142), or none where an element is NaN or infinite. -/
def chooseScale (bsm code : Nat) (l : List Val) : Option Bytes :=
  if anySpecial l then none
  else
    match amaxOf l with
    | .fin _ m e =>
      if bsm = 3 then
        if m = 0 then some (toLE 4 0x3F800000)
        else
          let (mm, me) := maxElem code
          some (toLE 4 (convert 1 0 false 0 (.fin false m (e - me)) mm).bits)
      else if m = 0 then some (if bsm = 1 then [0#8] else [0#8, 0xFF#8, 0xFF#8])
      else
        let lg := floorLog m e
        let e' := lg - emaxOf code + 127
        let eb := BitVec.ofNat 8 (if e' < 0 then 0 else if 254 < e' then 254 else e'.toNat)
        if bsm = 1 then some [eb]
        else
          let u := fun j =>
            match amaxOf ((l.drop (8 * j)).take 8) with
            | .fin _ mj ej => if mj = 0 then 15 else min 15 (lg - floorLog mj ej).toNat
            | _ => 15
          some [eb, BitVec.ofNat 8 (u 0 + 16 * u 1), BitVec.ofNat 8 (u 2 + 16 * u 3)]
    | _ => none

/-- The scale data of a block that holds a NaN or an infinity (R140 step 1, R142). -/
def nanScale (bsm : Nat) : Bytes := if bsm = 1 then [0xFF#8] else if bsm = 2 then [0xFF#8, 0#8, 0#8] else toLE 4 0x7FC00000

/-- The integer element nearest to n / d × 2^e under a mode, its magnitude at most lim (R141). -/
def roundElem (w lim rm r : Nat) (neg : Bool) (n d : Nat) (e : Int) : Conv :=
  let (a, rem, den) := quot n d e 0
  let m := if roundsUp rm neg r a rem den then a + 1 else a
  let z := fun (k : Nat) => wrapInt w (if neg then -(k : Int) else k)
  if lim < m then ⟨z lim, fOVERFLOW + fINEXACT⟩ else ⟨z m, if rem = 0 then 0 else fINEXACT⟩

/-- The code of value v under a factor s (R140, R141): the quotient rounded once, saturated. An MXINT8 element counts units of 2^−6. A quotient by a
per-row scale that has rounded to 0 or to infinity is stated nowhere: a free value (DESIGN CHOICE: notes/assumptions/9.md). -/
def encodeScaled (bsm code rm r : Nat) (s v : Val) : Conv :=
  match s, v with
  | .fin _ sm se, .fin neg m e =>
    if sm = 0 then ⟨bits (Config.unstated 1 m).toNat (fmtBits code - 1) 0, 0⟩
    else
      match floatFmt code with
      | some f =>
        let c := f.round rm true r neg m sm (e - se)
        if c.flags &&& fOVERFLOW != 0 then ⟨f.maxBits neg, c.flags⟩ else c
      | none => roundElem (fmtBits code) (if code = 12 then 127 else 7) rm r neg m sm (e - se + (if bsm = 1 then 6 else 0))
  | .inf _, .fin neg m _ => ⟨bits (Config.unstated 3 (2 * m + b2n neg)).toNat (fmtBits code - 1) 0, 0⟩
  | _, _ => ⟨0, 0⟩

/-- The code of value v in a block or row whose values are `zero`, all of magnitude 0, or not: +0 throughout a zero block (R140 step 2). -/
def encodeBlock (bsm code rm r : Nat) (zero : Bool) (s v : Val) : Conv := if zero && bsm != 3 then ⟨0, 0⟩ else encodeScaled bsm code rm r s v

/-! ## Accumulators (R151 to R156) -/

/-- The state of the exact accumulator: its value in units of 2^−2148, flags (0 NAN, 1 PINF, 2 NINF, 3 OVF, 4 NONEMPTY, 5 ALLNEGZERO) and count. -/
structure Exa where
  acc   : Int
  flags : Nat
  count : Nat
deriving DecidableEq, Repr

/-- A cleared accumulator. -/
def Exa.clear : Exa := { acc := 0, flags := 0, count := 0 }

/-- The value with its two's-complement range kept, and OVF where it leaves the range (R155). -/
def Exa.wrap (x : Exa) : Exa :=
  let lim : Int := (2 ^ 4351 : Nat)
  if -lim ≤ x.acc ∧ x.acc < lim then x else { x with acc := sx 4352 (wrapInt 4352 x.acc), flags := x.flags ||| 8 }

/-- x with one addend (R155). -/
def Exa.add (x : Exa) (v : Val) : Exa :=
  let negz := match v with
    | .fin true 0 _ => true
    | _ => false
  let first := !x.flags.testBit 4
  let anz := negz && (first || x.flags.testBit 5)
  let x1 := { x with flags := (setBitTo x.flags 5 anz) ||| 16, count := min (x.count + 1) (2 ^ 64 - 1) }
  match v with
  | .nan => { x1 with flags := x1.flags ||| 1 }
  | .inf s => { x1 with flags := x1.flags ||| (if s then 4 else 2) }
  | .fin s m e => ({ x1 with acc := x1.acc + Val.units s m e (-2148) } : Exa).wrap

/-- The merge of two partial records (R157). -/
def Exa.merge (a b : Exa) : Exa :=
  let ne := fun (x : Exa) => x.flags.testBit 4
  let anz := fun (x : Exa) => x.flags.testBit 5
  let z := (anz a || !ne a) && (anz b || !ne b) && (ne a || ne b)
  ({ acc := a.acc + b.acc, flags := setBitTo (a.flags ||| b.flags) 5 z, count := min (a.count + b.count) (2 ^ 64 - 1) } : Exa).wrap

/-- The value that a readout gives before its rounding, and whether INVALID is set (R156). -/
def Exa.readout (x : Exa) : Val × Bool :=
  let f := x.flags
  if f.testBit 0 || f.testBit 3 || (f.testBit 1 && f.testBit 2) then (.nan, true)
  else if f.testBit 1 then (.inf false, false)
  else if f.testBit 2 then (.inf true, false)
  else if x.acc = 0 then (.fin (f.testBit 5 && f.testBit 4) 0 0, false)
  else (.fin (decide (x.acc < 0)) x.acc.natAbs (-2148), false)

/-- The 576 bytes of a partial record (R157). -/
def Exa.bytes (x : Exa) : Bytes :=
  toLE 544 (wrapInt 4352 x.acc) ++ [BitVec.ofNat 8 x.flags] ++ bytesOf 7 0#8 ++ toLE 8 x.count ++ bytesOf 16 0#8

/-- The partial record that 576 bytes spell, or none where a reserved byte or flag is not 0 (R157). -/
def Exa.ofBytes (l : Bytes) : Option Exa :=
  let fl := (l.getD 544 0#8).toNat
  let res := (sliceB l 545 7) ++ (sliceB l 560 16)
  if decide (64 ≤ fl) || res.any (fun b => b != 0#8) then none
  else some { acc := sx 4352 (leNat (sliceB l 0 544)), flags := fl, count := leNat (sliceB l 552 8) }

/-- The exact sum of a list of values, every zero sum positive. -/
def exactSum (l : List Val) : Val := l.foldl (Val.add false) (.fin false 0 0)

/-- A list cut into groups of n. -/
def groupsOf {α : Type} (n : Nat) (l : List α) : List (List α) :=
  (List.range ((l.length + n - 1) / n)).map fun k => (l.drop (n * k)).take n

/-- The fp32 accumulator over groups of 32 (R152, R196), with the flags it sets. -/
def accGroups (l : List Val) : Val × Nat :=
  (groupsOf 32 l).foldl (fun acc g => let r := roundAcc 1 (Val.add false acc.1 (exactSum g)); (r.1, acc.2 ||| r.2)) (.fin false 0 0, 0)

/-- The fp32 or fp64 accumulator, one fused rounding a step (R196), with the flags it sets. -/
def accSteps (code : Nat) (l : List Val) : Val × Nat :=
  l.foldl (fun acc p => let r := roundAcc code (Val.add false acc.1 p); (r.1, acc.2 ||| r.2)) (.fin false 0 0, 0)

/-- The int32 accumulator (R153): the sum modulo 2^32, and IOVF where a partial sum leaves the range. (DEDUCED: notes/assumptions/24.md.) -/
def accInt (l : List Val) : Val × Nat :=
  let r := l.foldl (fun (acc : Int × Nat) v =>
    match v with
    | .fin s m _ =>
      let t := acc.1 + (if s then -(m : Int) else m)
      let w := sx 32 (wrapInt 32 t)
      (w, if w = t then acc.2 else fIOVF)
    | _ => acc) ((0 : Int), 0)
  (Val.ofInt r.1, r.2)

/-- The exact accumulator over a list of addends, from a start. (DEDUCED: notes/assumptions/24.md.) -/
def accExact (x : Exa) (l : List Val) : Exa := l.foldl Exa.add x

/-! ## Updates in place (07_jet_engines.md R210) -/

/-- INVALID where a result is a NaN and no operand is (05_number_formats.md R150). A NaN that arises in decoding, a scale of 0 times an infinite
code or an infinite scale times a zero code, counts as a NaN operand. (DESIGN CHOICE: notes/assumptions/24.md.) -/
def nanMade (inputs : List Val) (v : Val) : Nat := if v.isNan && !(inputs.any Val.isNan) then fINVALID else 0

/-- The smaller of two values, −0 below +0; NaN if either is (R198). -/
def Val.vmin (a b : Val) : Val := if a.isNan || b.isNan then .nan else if Val.below b a then b else a
/-- The larger of two values. -/
def Val.vmax (a b : Val) : Val := if a.isNan || b.isNan then .nan else if Val.below a b then b else a

/-- The operations of AMIN, AMAX and AADD. -/
inductive Upd where
  | min | max | add
deriving DecidableEq, Repr

/-- The new code of a target of format `fmt` holding `old` when value v arrives, and its flags: the value converted for AMIN and AMAX, one rounding of the
sum for AADD (DEDUCED: notes/assumptions/25.md). -/
def Upd.apply (o : Upd) (fmt rm : Nat) (sat : Bool) (r : Nat) (v : Val) (old : Nat) : Nat × Nat :=
  let t := codeValue fmt old false
  match o with
  | .add =>
    let c0 := convert fmt rm sat r v 1
    let special := isIntFmt fmt && (v.isNan || v.isInf)
    let u := if special then codeValue fmt c0.bits false else v
    let y := Val.add (rm == 3) t u
    let c := convert fmt rm sat r y 1
    (c.bits, c.flags ||| (if special then c0.flags else 0) ||| nanMade [t, u] y)
  | k =>
    let c0 := convert fmt rm sat r v 1
    let u := codeValue fmt c0.bits false
    let y := if k = .min then Val.vmin t u else Val.vmax t u
    ((convert fmt 0 sat 0 y 1).bits, c0.flags)

end Sys2Proof.Machine
end

