-- ==== Sys2Proof/Machine/RegMap.lean ====
section
/-! DEFINITION. Sys2Proof/Machine/RegMap.lean: the register maps of the spec's chapters, one constructor of Reg for each register
map, one constant for each field that is not reserved, with its bits, its access code (00_scope.md R15) and its reset value;
where each register lies in the register window (03_address_map.md R96) and its reset domain (00_scope.md R17). -/
namespace Sys2Proof.Machine

/-- The register maps, under the spec's names. -/
inductive Reg where
  | GLB_ID
  | GLB_UNITS
  | ITK_FPSTAT
  | GLB_PINSTAT
  | GLB_CAPACITY
  | GLB_RETIRED
  | GLB_MAPCTL
  | GLB_MAPSTAT
  | GLB_PREG
  | GLB_BCW
  | DBL_RING
  | DBL_CTL
  | DBL_PTR
  | DBL_STAT
  | DBL_FPC
  | DBL_FADDR
  | JET_NFLAG
  | JET_STAT
  | JET_CTL
  | JET_MACCNT
  | SLC_CFG
  | SLC_CTL
  | SLC_PREQ
  | SLC_STAT
  | SLC_ELEMS
  | SLC_BYTES
  | SLC_IPC
  | SLC_GERR
  | SLC_GSTOP
  | TXU_CFG
  | TXU_RECBASE
  | TXU_OPEN
  | TXU_PKG
  | TXU_CSEQ
  | TXU_CNT
  | TXU_LAST
  | SCH_TMG0
  | SCH_TMG1
  | SCH_TMG2
  | SCH_SCHED
  | SCH_CLSRANK
  | SCH_REF
  | SCH_STAT
  | SCH_DELIV
  | PC_CTL
  | PC_STAT
  | PC_REFSTAT
  | SP_STAT
  | ITK_CLS
  | ITK_SRCREQ
  | ITK_GSTAT
  | ITK_ERR
  | ITK_CLSSTAT
  | ITK_REQ
  | ITK_EFF
  | BAS_CFG
  | BAS_STAT
  | BAS_LOOK
  | BAS_CLSPIN
  | RAS_CFG
  | RAS_SCRUB
  | RAS_SCRUBSTAT
  | RAS_STAT
  | RAS_STRILL
  | RAS_STSPARE
  | RAS_ERRPTR
  | RAS_REMAP
  | RAS_PEND
  | RAS_PCCNT
  | AQD_CTL
  | AQD_STAT
  | AQD_LANE
  | AQD_CNT
  | AQD_RING
  | AQD_RTO
  | AQD_ROUTE
  | WEI_Q
  | WEI_CLSQ
  | WEI_GATE
  | WEI_GUARD
  | WEI_STAT
  | WEI_BKT
  | WEI_QSTAT
  | WEI_POL
  | WEI_POLDROP
  | TIM_WALL
  | TIM_PPSSEC
  | TIM_WSTAT
  | TIM_PPSCNT
  | TIM_TIDE
  | TIM_TRATE
  | TIM_TCTL
  | TIM_TCNT
  | TIM_EVT0
  | TIM_EVT1
  | PWR_DCTL
  | PWR_DSTAT
  | PWR_TRI
  | PWR_REG
  | PWR_CAP
  | PWR_STAT
  | THM_CFG
  | THM_STAT
  | THM_TRIP
  | THM_SENS
  | CAL_ZQ
  | CAL_VREF
  | CAL_RDLY
  | CAL_WDLY
  | CAL_LSTAT
  | CAL_CFG
  | CAL_FSP
  | CAL_STAT
  | CAL_CNT
  | CAL_CTL
  | GLB_RESET
  | GLB_BOOTCFG
  | GLB_BOOTSTAT
  | GLB_FUSE
  | GLB_PSTATE
  | GLB_TIER
  | GLB_TIERSTAT
  | CAS_STAT
  | CAS_BUDGET
  | CAS_CNT
  | FNT_FWCTL
  | FNT_PLCTL
  | FNT_PLSTAT
  | FNT_SVCBASE
  | GLB_EVQ
  | GLB_EVQPTR
  | GLB_EVCNT
  | GLB_SEDCTL
  | GLB_SEDSTAT
  | GLB_SEDCNT
  | GLB_SEDAGG
  | GLB_SEDAGGSTAT
deriving DecidableEq, Repr

/-- Access codes (R15). -/
inductive Acc where
  | RW | RO | WO | W1C | W1S | RC | RWS
deriving DecidableEq, Repr

/-- Reset domains (R17). -/
inductive Domain where
  | AON | COLD | WARM | CHAN | ENG | FPORT
deriving DecidableEq, Repr

/-- One field of a register: bits hi down to lo, its access code and its reset value. -/
structure Field where
  reg   : Reg
  hi    : Nat
  lo    : Nat
  acc   : Acc
  reset : Nat
deriving DecidableEq, Repr

/-- Where the copies of a register lie: copy i stands at base + (i / inner) * outer + (i % inner) * stride, and there are count copies. -/
structure Place where
  base   : Nat
  outer  : Nat
  inner  : Nat
  stride : Nat
  count  : Nat
deriving DecidableEq, Repr

/-- GLB_ID.DEVICE (01_architecture.md R21). -/
def F.GLB_ID_DEVICE : Field := ⟨.GLB_ID, 63, 48, .RO, 19762⟩
/-- GLB_ID.STEP (01_architecture.md R21). -/
def F.GLB_ID_STEP : Field := ⟨.GLB_ID, 47, 40, .RO, 1⟩
/-- GLB_ID.SUBSTEP (01_architecture.md R21). -/
def F.GLB_ID_SUBSTEP : Field := ⟨.GLB_ID, 39, 32, .RO, 0⟩
/-- GLB_ID.MGR_STRAP (01_architecture.md R21). -/
def F.GLB_ID_MGR_STRAP : Field := ⟨.GLB_ID, 8, 8, .RO, 0⟩
/-- GLB_ID.INSTANCE (01_architecture.md R21). -/
def F.GLB_ID_INSTANCE : Field := ⟨.GLB_ID, 3, 0, .RO, 0⟩

/-- GLB_UNITS.FPORTS (01_architecture.md R21). -/
def F.GLB_UNITS_FPORTS : Field := ⟨.GLB_UNITS, 63, 56, .RO, 8⟩
/-- GLB_UNITS.AQD_LANES (01_architecture.md R21). -/
def F.GLB_UNITS_AQD_LANES : Field := ⟨.GLB_UNITS, 55, 48, .RO, 8⟩
/-- GLB_UNITS.PWR_DOMAINS (01_architecture.md R21). -/
def F.GLB_UNITS_PWR_DOMAINS : Field := ⟨.GLB_UNITS, 47, 40, .RO, 66⟩
/-- GLB_UNITS.BASIN_MIB (01_architecture.md R21). -/
def F.GLB_UNITS_BASIN_MIB : Field := ⟨.GLB_UNITS, 39, 32, .RO, 128⟩
/-- GLB_UNITS.SLC_CH (01_architecture.md R21). -/
def F.GLB_UNITS_SLC_CH : Field := ⟨.GLB_UNITS, 31, 24, .RO, 32⟩
/-- GLB_UNITS.JETS (01_architecture.md R21). -/
def F.GLB_UNITS_JETS : Field := ⟨.GLB_UNITS, 23, 16, .RO, 32⟩
/-- GLB_UNITS.SPARES (01_architecture.md R21). -/
def F.GLB_UNITS_SPARES : Field := ⟨.GLB_UNITS, 15, 8, .RO, 8⟩
/-- GLB_UNITS.RILLS (01_architecture.md R21). -/
def F.GLB_UNITS_RILLS : Field := ⟨.GLB_UNITS, 7, 0, .RO, 64⟩

/-- ITK_FPSTAT[p].NOTREADY_CNT (02_ports.md R50). -/
def F.ITK_FPSTAT_NOTREADY_CNT : Field := ⟨.ITK_FPSTAT, 47, 32, .RC, 0⟩
/-- ITK_FPSTAT[p].OUTSTANDING (02_ports.md R50). -/
def F.ITK_FPSTAT_OUTSTANDING : Field := ⟨.ITK_FPSTAT, 22, 12, .RO, 0⟩
/-- ITK_FPSTAT[p].TAGWAIT (02_ports.md R50). -/
def F.ITK_FPSTAT_TAGWAIT : Field := ⟨.ITK_FPSTAT, 3, 3, .W1C, 0⟩
/-- ITK_FPSTAT[p].STATE (02_ports.md R50). -/
def F.ITK_FPSTAT_STATE : Field := ⟨.ITK_FPSTAT, 2, 0, .RO, 0⟩

/-- GLB_PINSTAT.PPS_IGN (02_ports.md R71). -/
def F.GLB_PINSTAT_PPS_IGN : Field := ⟨.GLB_PINSTAT, 63, 48, .RC, 0⟩
/-- GLB_PINSTAT.TIDE_DISC (02_ports.md R71). -/
def F.GLB_PINSTAT_TIDE_DISC : Field := ⟨.GLB_PINSTAT, 47, 32, .RC, 0⟩
/-- GLB_PINSTAT.REFZ_OK (02_ports.md R71). -/
def F.GLB_PINSTAT_REFZ_OK : Field := ⟨.GLB_PINSTAT, 7, 7, .RO, 0⟩
/-- GLB_PINSTAT.REFV_OK (02_ports.md R71). -/
def F.GLB_PINSTAT_REFV_OK : Field := ⟨.GLB_PINSTAT, 6, 6, .RO, 0⟩
/-- GLB_PINSTAT.TRIP_DRV (02_ports.md R71). -/
def F.GLB_PINSTAT_TRIP_DRV : Field := ⟨.GLB_PINSTAT, 5, 5, .RO, 0⟩
/-- GLB_PINSTAT.BYP (02_ports.md R71). -/
def F.GLB_PINSTAT_BYP : Field := ⟨.GLB_PINSTAT, 4, 4, .RO, 0⟩
/-- GLB_PINSTAT.COMPUTE_RST (02_ports.md R71). -/
def F.GLB_PINSTAT_COMPUTE_RST : Field := ⟨.GLB_PINSTAT, 3, 3, .RO, 0⟩
/-- GLB_PINSTAT.PPS_SEEN (02_ports.md R71). -/
def F.GLB_PINSTAT_PPS_SEEN : Field := ⟨.GLB_PINSTAT, 2, 2, .RO, 0⟩
/-- GLB_PINSTAT.TIDE_VLD (02_ports.md R71). -/
def F.GLB_PINSTAT_TIDE_VLD : Field := ⟨.GLB_PINSTAT, 1, 1, .RO, 0⟩
/-- GLB_PINSTAT.REFCLK_LOCK (02_ports.md R71). -/
def F.GLB_PINSTAT_REFCLK_LOCK : Field := ⟨.GLB_PINSTAT, 0, 0, .RO, 0⟩

/-- GLB_CAPACITY.MODE (03_address_map.md R87). -/
def F.GLB_CAPACITY_MODE : Field := ⟨.GLB_CAPACITY, 63, 62, .RO, 0⟩
/-- GLB_CAPACITY.MAP_PCS (03_address_map.md R87). -/
def F.GLB_CAPACITY_MAP_PCS : Field := ⟨.GLB_CAPACITY, 61, 55, .RO, 0⟩
/-- GLB_CAPACITY.FENCED (03_address_map.md R87). -/
def F.GLB_CAPACITY_FENCED : Field := ⟨.GLB_CAPACITY, 54, 48, .RO, 0⟩
/-- GLB_CAPACITY.CAP (03_address_map.md R87). -/
def F.GLB_CAPACITY_CAP : Field := ⟨.GLB_CAPACITY, 36, 0, .RO, 0⟩

/-- GLB_RETIRED.RETIRED (03_address_map.md R87). -/
def F.GLB_RETIRED_RETIRED : Field := ⟨.GLB_RETIRED, 63, 0, .W1S, 0⟩

/-- GLB_MAPCTL.REMAP (03_address_map.md R87). -/
def F.GLB_MAPCTL_REMAP : Field := ⟨.GLB_MAPCTL, 0, 0, .WO, 0⟩

/-- GLB_MAPSTAT.FENCE_LOST (03_address_map.md R87). -/
def F.GLB_MAPSTAT_FENCE_LOST : Field := ⟨.GLB_MAPSTAT, 63, 32, .RC, 0⟩
/-- GLB_MAPSTAT.ERR (03_address_map.md R87). -/
def F.GLB_MAPSTAT_ERR : Field := ⟨.GLB_MAPSTAT, 15, 8, .RC, 0⟩
/-- GLB_MAPSTAT.ERR_IDX (03_address_map.md R87). -/
def F.GLB_MAPSTAT_ERR_IDX : Field := ⟨.GLB_MAPSTAT, 5, 4, .RC, 0⟩
/-- GLB_MAPSTAT.BUSY (03_address_map.md R87). -/
def F.GLB_MAPSTAT_BUSY : Field := ⟨.GLB_MAPSTAT, 0, 0, .RO, 0⟩

/-- GLB_PREG[i].EN (03_address_map.md R90). -/
def F.GLB_PREG_EN : Field := ⟨.GLB_PREG, 63, 63, .RWS, 0⟩
/-- GLB_PREG[i].SIZE (03_address_map.md R90). -/
def F.GLB_PREG_SIZE : Field := ⟨.GLB_PREG, 60, 48, .RWS, 0⟩
/-- GLB_PREG[i].BASE (03_address_map.md R90). -/
def F.GLB_PREG_BASE : Field := ⟨.GLB_PREG, 36, 21, .RWS, 0⟩

/-- GLB_BCW[i].EN (03_address_map.md R92). -/
def F.GLB_BCW_EN : Field := ⟨.GLB_BCW, 63, 63, .RWS, 0⟩
/-- GLB_BCW[i].SIZE (03_address_map.md R92). -/
def F.GLB_BCW_SIZE : Field := ⟨.GLB_BCW, 59, 48, .RWS, 0⟩
/-- GLB_BCW[i].BASE (03_address_map.md R92). -/
def F.GLB_BCW_BASE : Field := ⟨.GLB_BCW, 36, 21, .RWS, 0⟩

/-- DBL_RING.BASE (04_zynsa_model.md R115). -/
def F.DBL_RING_BASE : Field := ⟨.DBL_RING, 47, 12, .RWS, 0⟩
/-- DBL_RING.LOG2N (04_zynsa_model.md R115). -/
def F.DBL_RING_LOG2N : Field := ⟨.DBL_RING, 4, 0, .RWS, 0⟩

/-- DBL_CTL.EN (04_zynsa_model.md R115). -/
def F.DBL_CTL_EN : Field := ⟨.DBL_CTL, 63, 63, .RW, 0⟩
/-- DBL_CTL.OWNER (04_zynsa_model.md R115). -/
def F.DBL_CTL_OWNER : Field := ⟨.DBL_CTL, 62, 62, .RWS, 0⟩
/-- DBL_CTL.BLABEL (04_zynsa_model.md R115). -/
def F.DBL_CTL_BLABEL : Field := ⟨.DBL_CTL, 59, 48, .RWS, 0⟩
/-- DBL_CTL.STOP (04_zynsa_model.md R115). -/
def F.DBL_CTL_STOP : Field := ⟨.DBL_CTL, 3, 3, .WO, 0⟩
/-- DBL_CTL.RESUME (04_zynsa_model.md R115). -/
def F.DBL_CTL_RESUME : Field := ⟨.DBL_CTL, 2, 2, .WO, 0⟩

/-- DBL_PTR.HEAD (04_zynsa_model.md R115). -/
def F.DBL_PTR_HEAD : Field := ⟨.DBL_PTR, 63, 32, .RO, 0⟩
/-- DBL_PTR.TAIL (04_zynsa_model.md R115). -/
def F.DBL_PTR_TAIL : Field := ⟨.DBL_PTR, 31, 0, .RW, 0⟩

/-- DBL_STAT.PROGRESS (04_zynsa_model.md R115). -/
def F.DBL_STAT_PROGRESS : Field := ⟨.DBL_STAT, 63, 32, .RO, 0⟩
/-- DBL_STAT.FAULT (04_zynsa_model.md R115). -/
def F.DBL_STAT_FAULT : Field := ⟨.DBL_STAT, 31, 24, .RO, 0⟩
/-- DBL_STAT.IMPRECISE (04_zynsa_model.md R115). -/
def F.DBL_STAT_IMPRECISE : Field := ⟨.DBL_STAT, 16, 16, .RO, 0⟩
/-- DBL_STAT.STATE (04_zynsa_model.md R115). -/
def F.DBL_STAT_STATE : Field := ⟨.DBL_STAT, 3, 0, .RO, 0⟩

/-- DBL_FPC.PC (04_zynsa_model.md R115). -/
def F.DBL_FPC_PC : Field := ⟨.DBL_FPC, 47, 0, .RO, 0⟩

/-- DBL_FADDR.ADDR (04_zynsa_model.md R115). -/
def F.DBL_FADDR_ADDR : Field := ⟨.DBL_FADDR, 47, 0, .RO, 0⟩

/-- JET_NFLAG[e].SP3 (05_number_formats.md R150). -/
def F.JET_NFLAG_SP3 : Field := ⟨.JET_NFLAG, 31, 24, .W1C, 0⟩
/-- JET_NFLAG[e].SP2 (05_number_formats.md R150). -/
def F.JET_NFLAG_SP2 : Field := ⟨.JET_NFLAG, 23, 16, .W1C, 0⟩
/-- JET_NFLAG[e].SP1 (05_number_formats.md R150). -/
def F.JET_NFLAG_SP1 : Field := ⟨.JET_NFLAG, 15, 8, .W1C, 0⟩
/-- JET_NFLAG[e].SP0 (05_number_formats.md R150). -/
def F.JET_NFLAG_SP0 : Field := ⟨.JET_NFLAG, 7, 0, .W1C, 0⟩

/-- JET_STAT[e].MAC_OWN (07_jet_engines.md R215). -/
def F.JET_STAT_MAC_OWN : Field := ⟨.JET_STAT, 23, 22, .RO, 0⟩
/-- JET_STAT[e].MAC_BUSY (07_jet_engines.md R215). -/
def F.JET_STAT_MAC_BUSY : Field := ⟨.JET_STAT, 21, 21, .RO, 0⟩
/-- JET_STAT[e].VEC_OWN (07_jet_engines.md R215). -/
def F.JET_STAT_VEC_OWN : Field := ⟨.JET_STAT, 20, 19, .RO, 0⟩
/-- JET_STAT[e].VEC_BUSY (07_jet_engines.md R215). -/
def F.JET_STAT_VEC_BUSY : Field := ⟨.JET_STAT, 18, 18, .RO, 0⟩
/-- JET_STAT[e].HSH_OWN (07_jet_engines.md R215). -/
def F.JET_STAT_HSH_OWN : Field := ⟨.JET_STAT, 17, 16, .RO, 0⟩
/-- JET_STAT[e].HSH_BUSY (07_jet_engines.md R215). -/
def F.JET_STAT_HSH_BUSY : Field := ⟨.JET_STAT, 15, 15, .RO, 0⟩
/-- JET_STAT[e].EXA_OWN (07_jet_engines.md R215). -/
def F.JET_STAT_EXA_OWN : Field := ⟨.JET_STAT, 14, 13, .RO, 0⟩
/-- JET_STAT[e].EXA_BUSY (07_jet_engines.md R215). -/
def F.JET_STAT_EXA_BUSY : Field := ⟨.JET_STAT, 12, 12, .RO, 0⟩
/-- JET_STAT[e].MOV_OWN (07_jet_engines.md R215). -/
def F.JET_STAT_MOV_OWN : Field := ⟨.JET_STAT, 11, 10, .RO, 0⟩
/-- JET_STAT[e].MOV_BUSY (07_jet_engines.md R215). -/
def F.JET_STAT_MOV_BUSY : Field := ⟨.JET_STAT, 9, 9, .RO, 0⟩
/-- JET_STAT[e].ACTIVE (07_jet_engines.md R215). -/
def F.JET_STAT_ACTIVE : Field := ⟨.JET_STAT, 3, 0, .RO, 0⟩

/-- JET_CTL[e].ERESET (07_jet_engines.md R215). -/
def F.JET_CTL_ERESET : Field := ⟨.JET_CTL, 0, 0, .WO, 0⟩

/-- JET_MACCNT[e].MACK (07_jet_engines.md R215). -/
def F.JET_MACCNT_MACK : Field := ⟨.JET_MACCNT, 63, 0, .RC, 0⟩

/-- SLC_CFG[c].BURST (08_sluice_channels.md R250). -/
def F.SLC_CFG_BURST : Field := ⟨.SLC_CFG, 11, 8, .RWS, 8⟩
/-- SLC_CFG[c].PACED (08_sluice_channels.md R250). -/
def F.SLC_CFG_PACED : Field := ⟨.SLC_CFG, 3, 3, .RWS, 0⟩
/-- SLC_CFG[c].FULLIE (08_sluice_channels.md R250). -/
def F.SLC_CFG_FULLIE : Field := ⟨.SLC_CFG, 2, 2, .RW, 0⟩
/-- SLC_CFG[c].HALFIE (08_sluice_channels.md R250). -/
def F.SLC_CFG_HALFIE : Field := ⟨.SLC_CFG, 1, 1, .RW, 0⟩

/-- SLC_CTL[c].ERESET (08_sluice_channels.md R251). -/
def F.SLC_CTL_ERESET : Field := ⟨.SLC_CTL, 4, 4, .WO, 0⟩
/-- SLC_CTL[c].ABANDON (08_sluice_channels.md R251). -/
def F.SLC_CTL_ABANDON : Field := ⟨.SLC_CTL, 3, 3, .WO, 0⟩
/-- SLC_CTL[c].CONT (08_sluice_channels.md R251). -/
def F.SLC_CTL_CONT : Field := ⟨.SLC_CTL, 2, 2, .WO, 0⟩
/-- SLC_CTL[c].PAUSE (08_sluice_channels.md R251). -/
def F.SLC_CTL_PAUSE : Field := ⟨.SLC_CTL, 0, 0, .RW, 0⟩

/-- SLC_PREQ[c].REQ (08_sluice_channels.md R251). -/
def F.SLC_PREQ_REQ : Field := ⟨.SLC_PREQ, 0, 0, .RW, 0⟩

/-- SLC_STAT[c].POISONED (08_sluice_channels.md R251). -/
def F.SLC_STAT_POISONED : Field := ⟨.SLC_STAT, 63, 32, .RC, 0⟩
/-- SLC_STAT[c].STAGEWAIT (08_sluice_channels.md R251). -/
def F.SLC_STAT_STAGEWAIT : Field := ⟨.SLC_STAT, 7, 7, .RO, 0⟩
/-- SLC_STAT[c].STAGED (08_sluice_channels.md R251). -/
def F.SLC_STAT_STAGED : Field := ⟨.SLC_STAT, 6, 6, .RO, 0⟩
/-- SLC_STAT[c].SLOT (08_sluice_channels.md R251). -/
def F.SLC_STAT_SLOT : Field := ⟨.SLC_STAT, 5, 4, .RO, 0⟩
/-- SLC_STAT[c].SOLO (08_sluice_channels.md R251). -/
def F.SLC_STAT_SOLO : Field := ⟨.SLC_STAT, 3, 3, .RO, 0⟩
/-- SLC_STAT[c].INSTOP (08_sluice_channels.md R251). -/
def F.SLC_STAT_INSTOP : Field := ⟨.SLC_STAT, 2, 2, .RO, 0⟩
/-- SLC_STAT[c].PCAUSE (08_sluice_channels.md R251). -/
def F.SLC_STAT_PCAUSE : Field := ⟨.SLC_STAT, 1, 0, .RO, 0⟩

/-- SLC_ELEMS[c].ELEMS (08_sluice_channels.md R251). -/
def F.SLC_ELEMS_ELEMS : Field := ⟨.SLC_ELEMS, 63, 0, .RO, 0⟩

/-- SLC_BYTES[c].BYTES (08_sluice_channels.md R251). -/
def F.SLC_BYTES_BYTES : Field := ⟨.SLC_BYTES, 63, 0, .RO, 0⟩

/-- SLC_IPC[c].PC (08_sluice_channels.md R251). -/
def F.SLC_IPC_PC : Field := ⟨.SLC_IPC, 47, 0, .RO, 0⟩

/-- SLC_GERR.STOPPED (08_sluice_channels.md R251). -/
def F.SLC_GERR_STOPPED : Field := ⟨.SLC_GERR, 63, 63, .RO, 0⟩
/-- SLC_GERR.CODE (08_sluice_channels.md R251). -/
def F.SLC_GERR_CODE : Field := ⟨.SLC_GERR, 62, 60, .RO, 0⟩
/-- SLC_GERR.ADDR (08_sluice_channels.md R251). -/
def F.SLC_GERR_ADDR : Field := ⟨.SLC_GERR, 47, 0, .RO, 0⟩

/-- SLC_GSTOP.STOPS (08_sluice_channels.md R251). -/
def F.SLC_GSTOP_STOPS : Field := ⟨.SLC_GSTOP, 63, 48, .RC, 0⟩
/-- SLC_GSTOP.LATE (08_sluice_channels.md R251). -/
def F.SLC_GSTOP_LATE : Field := ⟨.SLC_GSTOP, 47, 40, .RC, 0⟩
/-- SLC_GSTOP.STOPMASK (08_sluice_channels.md R251). -/
def F.SLC_GSTOP_STOPMASK : Field := ⟨.SLC_GSTOP, 31, 0, .RO, 0⟩

/-- TXU_CFG.VOTEWAIT (09_transactions.md R277). -/
def F.TXU_CFG_VOTEWAIT : Field := ⟨.TXU_CFG, 47, 34, .RW, 200⟩
/-- TXU_CFG.LIFETIME (09_transactions.md R277). -/
def F.TXU_CFG_LIFETIME : Field := ⟨.TXU_CFG, 19, 0, .RW, 1000⟩

/-- TXU_RECBASE.VALID (09_transactions.md R278). -/
def F.TXU_RECBASE_VALID : Field := ⟨.TXU_RECBASE, 63, 63, .RO, 0⟩
/-- TXU_RECBASE.BASE (09_transactions.md R278). -/
def F.TXU_RECBASE_BASE : Field := ⟨.TXU_RECBASE, 36, 20, .RWS, 48⟩

/-- TXU_OPEN.BUSY (09_transactions.md R278). -/
def F.TXU_OPEN_BUSY : Field := ⟨.TXU_OPEN, 63, 0, .RO, 0⟩

/-- TXU_PKG.STATE (09_transactions.md R278). -/
def F.TXU_PKG_STATE : Field := ⟨.TXU_PKG, 31, 0, .RO, 0⟩

/-- TXU_CSEQ.CSEQ (09_transactions.md R278). -/
def F.TXU_CSEQ_CSEQ : Field := ⟨.TXU_CSEQ, 63, 0, .RO, 0⟩

/-- TXU_CNT.MISMATCH (09_transactions.md R278). -/
def F.TXU_CNT_MISMATCH : Field := ⟨.TXU_CNT, 63, 48, .RC, 0⟩
/-- TXU_CNT.ABORTS (09_transactions.md R278). -/
def F.TXU_CNT_ABORTS : Field := ⟨.TXU_CNT, 47, 24, .RC, 0⟩
/-- TXU_CNT.COMMITS (09_transactions.md R278). -/
def F.TXU_CNT_COMMITS : Field := ⟨.TXU_CNT, 23, 0, .RC, 0⟩

/-- TXU_LAST.WORD (09_transactions.md R278). -/
def F.TXU_LAST_WORD : Field := ⟨.TXU_LAST, 63, 0, .RO, 0⟩

/-- SCH_TMG0[f].TRCD (10_rills.md R283). -/
def F.SCH_TMG0_TRCD : Field := ⟨.SCH_TMG0, 63, 52, .RWS, 160⟩
/-- SCH_TMG0[f].TRP (10_rills.md R283). -/
def F.SCH_TMG0_TRP : Field := ⟨.SCH_TMG0, 51, 40, .RWS, 160⟩
/-- SCH_TMG0[f].TRAS (10_rills.md R283). -/
def F.SCH_TMG0_TRAS : Field := ⟨.SCH_TMG0, 39, 28, .RWS, 330⟩
/-- SCH_TMG0[f].TRC (10_rills.md R283). -/
def F.SCH_TMG0_TRC : Field := ⟨.SCH_TMG0, 27, 16, .RWS, 490⟩
/-- SCH_TMG0[f].TRRDS (10_rills.md R283). -/
def F.SCH_TMG0_TRRDS : Field := ⟨.SCH_TMG0, 15, 8, .RWS, 20⟩
/-- SCH_TMG0[f].TRRDL (10_rills.md R283). -/
def F.SCH_TMG0_TRRDL : Field := ⟨.SCH_TMG0, 7, 0, .RWS, 40⟩

/-- SCH_TMG1[f].TFAW (10_rills.md R283). -/
def F.SCH_TMG1_TFAW : Field := ⟨.SCH_TMG1, 63, 54, .RWS, 160⟩
/-- SCH_TMG1[f].TCCDL (10_rills.md R283). -/
def F.SCH_TMG1_TCCDL : Field := ⟨.SCH_TMG1, 53, 48, .RWS, 20⟩
/-- SCH_TMG1[f].TRL (10_rills.md R283). -/
def F.SCH_TMG1_TRL : Field := ⟨.SCH_TMG1, 47, 39, .RWS, 200⟩
/-- SCH_TMG1[f].TWL (10_rills.md R283). -/
def F.SCH_TMG1_TWL : Field := ⟨.SCH_TMG1, 38, 31, .RWS, 80⟩
/-- SCH_TMG1[f].TWR (10_rills.md R283). -/
def F.SCH_TMG1_TWR : Field := ⟨.SCH_TMG1, 30, 22, .RWS, 160⟩
/-- SCH_TMG1[f].TRTP (10_rills.md R283). -/
def F.SCH_TMG1_TRTP : Field := ⟨.SCH_TMG1, 21, 16, .RWS, 40⟩
/-- SCH_TMG1[f].TWTRS (10_rills.md R283). -/
def F.SCH_TMG1_TWTRS : Field := ⟨.SCH_TMG1, 15, 10, .RWS, 30⟩
/-- SCH_TMG1[f].TXP (10_rills.md R283). -/
def F.SCH_TMG1_TXP : Field := ⟨.SCH_TMG1, 9, 2, .RWS, 80⟩

/-- SCH_TMG2[f].TWTRL (10_rills.md R283). -/
def F.SCH_TMG2_TWTRL : Field := ⟨.SCH_TMG2, 63, 56, .RWS, 80⟩
/-- SCH_TMG2[f].TRFCPB (10_rills.md R283). -/
def F.SCH_TMG2_TRFCPB : Field := ⟨.SCH_TMG2, 55, 42, .RWS, 2000⟩
/-- SCH_TMG2[f].TRFM (10_rills.md R283). -/
def F.SCH_TMG2_TRFM : Field := ⟨.SCH_TMG2, 41, 28, .RWS, 2000⟩
/-- SCH_TMG2[f].TREFI (10_rills.md R283). -/
def F.SCH_TMG2_TREFI : Field := ⟨.SCH_TMG2, 27, 12, .RWS, 39000⟩
/-- SCH_TMG2[f].TXS (10_rills.md R283). -/
def F.SCH_TMG2_TXS : Field := ⟨.SCH_TMG2, 11, 0, .RWS, 2100⟩

/-- SCH_SCHED.WRLO (10_rills.md R306). -/
def F.SCH_SCHED_WRLO : Field := ⟨.SCH_SCHED, 53, 48, .RW, 8⟩
/-- SCH_SCHED.WRHI (10_rills.md R306). -/
def F.SCH_SCHED_WRHI : Field := ⟨.SCH_SCHED, 41, 36, .RW, 32⟩
/-- SCH_SCHED.QHI (10_rills.md R306). -/
def F.SCH_SCHED_QHI : Field := ⟨.SCH_SCHED, 29, 24, .RW, 48⟩
/-- SCH_SCHED.AGE (10_rills.md R306). -/
def F.SCH_SCHED_AGE : Field := ⟨.SCH_SCHED, 15, 0, .RW, 2048⟩

/-- SCH_CLSRANK.RANK (10_rills.md R306). -/
def F.SCH_CLSRANK_RANK : Field := ⟨.SCH_CLSRANK, 31, 0, .RW, 1431655765⟩

/-- SCH_REF.DEFERMAX (10_rills.md R306). -/
def F.SCH_REF_DEFERMAX : Field := ⟨.SCH_REF, 55, 50, .RW, 25⟩
/-- SCH_REF.PHASE (10_rills.md R306). -/
def F.SCH_REF_PHASE : Field := ⟨.SCH_REF, 47, 44, .RW, 0⟩
/-- SCH_REF.RFMD (10_rills.md R306). -/
def F.SCH_REF_RFMD : Field := ⟨.SCH_REF, 13, 0, .RW, 1024⟩

/-- SCH_STAT.ERR (10_rills.md R306). -/
def F.SCH_STAT_ERR : Field := ⟨.SCH_STAT, 63, 56, .RC, 0⟩
/-- SCH_STAT.DEFER (10_rills.md R306). -/
def F.SCH_STAT_DEFER : Field := ⟨.SCH_STAT, 15, 15, .RO, 0⟩
/-- SCH_STAT.HOT (10_rills.md R306). -/
def F.SCH_STAT_HOT : Field := ⟨.SCH_STAT, 14, 14, .RO, 0⟩
/-- SCH_STAT.TEMPFAIL (10_rills.md R306). -/
def F.SCH_STAT_TEMPFAIL : Field := ⟨.SCH_STAT, 13, 13, .RO, 0⟩
/-- SCH_STAT.STEMP (10_rills.md R306). -/
def F.SCH_STAT_STEMP : Field := ⟨.SCH_STAT, 7, 0, .RO, 0⟩

/-- SCH_DELIV.DELIV (10_rills.md R306). -/
def F.SCH_DELIV_DELIV : Field := ⟨.SCH_DELIV, 31, 0, .RO, 0⟩

/-- PC_CTL[n].CRESET (10_rills.md R306). -/
def F.PC_CTL_CRESET : Field := ⟨.PC_CTL, 0, 0, .WO, 0⟩

/-- PC_STAT[n].OPENROWS (10_rills.md R306). -/
def F.PC_STAT_OPENROWS : Field := ⟨.PC_STAT, 55, 48, .RO, 0⟩
/-- PC_STAT[n].QLEVEL (10_rills.md R306). -/
def F.PC_STAT_QLEVEL : Field := ⟨.PC_STAT, 41, 36, .RO, 0⟩
/-- PC_STAT[n].BGLEVEL (10_rills.md R306). -/
def F.PC_STAT_BGLEVEL : Field := ⟨.PC_STAT, 32, 30, .RO, 0⟩
/-- PC_STAT[n].DRAIN (10_rills.md R306). -/
def F.PC_STAT_DRAIN : Field := ⟨.PC_STAT, 9, 9, .RO, 0⟩
/-- PC_STAT[n].SPARE (10_rills.md R306). -/
def F.PC_STAT_SPARE : Field := ⟨.PC_STAT, 8, 8, .RO, 0⟩
/-- PC_STAT[n].STATE (10_rills.md R306). -/
def F.PC_STAT_STATE : Field := ⟨.PC_STAT, 2, 0, .RO, 0⟩

/-- PC_REFSTAT[n].FORCED (10_rills.md R306). -/
def F.PC_REFSTAT_FORCED : Field := ⟨.PC_REFSTAT, 63, 48, .RC, 0⟩
/-- PC_REFSTAT[n].RFM (10_rills.md R306). -/
def F.PC_REFSTAT_RFM : Field := ⟨.PC_REFSTAT, 47, 32, .RC, 0⟩
/-- PC_REFSTAT[n].MAXOWED (10_rills.md R306). -/
def F.PC_REFSTAT_MAXOWED : Field := ⟨.PC_REFSTAT, 3, 0, .RO, 0⟩

/-- SP_STAT[m].PC (10_rills.md R306). -/
def F.SP_STAT_PC : Field := ⟨.SP_STAT, 4, 2, .RO, 0⟩
/-- SP_STAT[m].USE (10_rills.md R306). -/
def F.SP_STAT_USE : Field := ⟨.SP_STAT, 1, 0, .RO, 0⟩

/-- ITK_CLS[c].OUTMAX (11_intake_and_basin.md R335). -/
def F.ITK_CLS_OUTMAX : Field := ⟨.ITK_CLS, 15, 4, .RW, 256⟩
/-- ITK_CLS[c].DEADF (11_intake_and_basin.md R335). -/
def F.ITK_CLS_DEADF : Field := ⟨.ITK_CLS, 3, 3, .RW, 0⟩
/-- ITK_CLS[c].PIN (11_intake_and_basin.md R335). -/
def F.ITK_CLS_PIN : Field := ⟨.ITK_CLS, 2, 2, .RW, 0⟩
/-- ITK_CLS[c].ALLOC (11_intake_and_basin.md R335). -/
def F.ITK_CLS_ALLOC : Field := ⟨.ITK_CLS, 1, 1, .RW, 1⟩
/-- ITK_CLS[c].KIND (11_intake_and_basin.md R335). -/
def F.ITK_CLS_KIND : Field := ⟨.ITK_CLS, 0, 0, .RW, 0⟩

/-- ITK_SRCREQ.FONT (11_intake_and_basin.md R335). -/
def F.ITK_SRCREQ_FONT : Field := ⟨.ITK_SRCREQ, 29, 24, .RW, 0⟩
/-- ITK_SRCREQ.AQW (11_intake_and_basin.md R335). -/
def F.ITK_SRCREQ_AQW : Field := ⟨.ITK_SRCREQ, 23, 18, .RW, 0⟩
/-- ITK_SRCREQ.AQE (11_intake_and_basin.md R335). -/
def F.ITK_SRCREQ_AQE : Field := ⟨.ITK_SRCREQ, 17, 12, .RW, 0⟩
/-- ITK_SRCREQ.JET (11_intake_and_basin.md R335). -/
def F.ITK_SRCREQ_JET : Field := ⟨.ITK_SRCREQ, 11, 6, .RW, 0⟩
/-- ITK_SRCREQ.SLC (11_intake_and_basin.md R335). -/
def F.ITK_SRCREQ_SLC : Field := ⟨.ITK_SRCREQ, 5, 0, .RW, 0⟩

/-- ITK_GSTAT.SUM (11_intake_and_basin.md R335). -/
def F.ITK_GSTAT_SUM : Field := ⟨.ITK_GSTAT, 63, 32, .RO, 0⟩
/-- ITK_GSTAT.LIMIT (11_intake_and_basin.md R335). -/
def F.ITK_GSTAT_LIMIT : Field := ⟨.ITK_GSTAT, 31, 0, .RO, 0⟩

/-- ITK_ERR.ERR (11_intake_and_basin.md R335). -/
def F.ITK_ERR_ERR : Field := ⟨.ITK_ERR, 63, 56, .RC, 0⟩
/-- ITK_ERR.IDX (11_intake_and_basin.md R335). -/
def F.ITK_ERR_IDX : Field := ⟨.ITK_ERR, 53, 48, .RC, 0⟩
/-- ITK_ERR.SCALED (11_intake_and_basin.md R335). -/
def F.ITK_ERR_SCALED : Field := ⟨.ITK_ERR, 0, 0, .RO, 0⟩

/-- ITK_CLSSTAT[c].DEADREADS (11_intake_and_basin.md R335). -/
def F.ITK_CLSSTAT_DEADREADS : Field := ⟨.ITK_CLSSTAT, 63, 32, .RC, 0⟩
/-- ITK_CLSSTAT[c].OUTSTANDING (11_intake_and_basin.md R335). -/
def F.ITK_CLSSTAT_OUTSTANDING : Field := ⟨.ITK_CLSSTAT, 11, 0, .RO, 0⟩

/-- ITK_REQ[j].WT (11_intake_and_basin.md R335). -/
def F.ITK_REQ_WT : Field := ⟨.ITK_REQ, 63, 56, .RW, 1⟩
/-- ITK_REQ[j].BURST (11_intake_and_basin.md R335). -/
def F.ITK_REQ_BURST : Field := ⟨.ITK_REQ, 55, 48, .RW, 64⟩
/-- ITK_REQ[j].MINBW (11_intake_and_basin.md R335). -/
def F.ITK_REQ_MINBW : Field := ⟨.ITK_REQ, 31, 0, .RW, 0⟩

/-- ITK_EFF[j].EFF (11_intake_and_basin.md R335). -/
def F.ITK_EFF_EFF : Field := ⟨.ITK_EFF, 31, 0, .RO, 0⟩

/-- BAS_CFG.GUARD (11_intake_and_basin.md R336). -/
def F.BAS_CFG_GUARD : Field := ⟨.BAS_CFG, 23, 16, .RW, 40⟩
/-- BAS_CFG.FLOOR (11_intake_and_basin.md R336). -/
def F.BAS_CFG_FLOOR : Field := ⟨.BAS_CFG, 15, 8, .RW, 20⟩
/-- BAS_CFG.DEADCLR (11_intake_and_basin.md R336). -/
def F.BAS_CFG_DEADCLR : Field := ⟨.BAS_CFG, 7, 7, .WO, 0⟩
/-- BAS_CFG.PINCAP (11_intake_and_basin.md R336). -/
def F.BAS_CFG_PINCAP : Field := ⟨.BAS_CFG, 6, 0, .RW, 50⟩

/-- BAS_STAT.ERR (11_intake_and_basin.md R336). -/
def F.BAS_STAT_ERR : Field := ⟨.BAS_STAT, 63, 56, .RC, 0⟩
/-- BAS_STAT.UHIT (11_intake_and_basin.md R336). -/
def F.BAS_STAT_UHIT : Field := ⟨.BAS_STAT, 55, 48, .RO, 255⟩
/-- BAS_STAT.REFUSING (11_intake_and_basin.md R336). -/
def F.BAS_STAT_REFUSING : Field := ⟨.BAS_STAT, 33, 33, .RO, 0⟩
/-- BAS_STAT.BGATED (11_intake_and_basin.md R336). -/
def F.BAS_STAT_BGATED : Field := ⟨.BAS_STAT, 32, 32, .RO, 0⟩
/-- BAS_STAT.DEADENT (11_intake_and_basin.md R336). -/
def F.BAS_STAT_DEADENT : Field := ⟨.BAS_STAT, 31, 19, .RO, 0⟩
/-- BAS_STAT.PINNED (11_intake_and_basin.md R336). -/
def F.BAS_STAT_PINNED : Field := ⟨.BAS_STAT, 18, 0, .RO, 0⟩

/-- BAS_LOOK[c].LOOKUPS (11_intake_and_basin.md R336). -/
def F.BAS_LOOK_LOOKUPS : Field := ⟨.BAS_LOOK, 63, 32, .RC, 0⟩
/-- BAS_LOOK[c].HITS (11_intake_and_basin.md R336). -/
def F.BAS_LOOK_HITS : Field := ⟨.BAS_LOOK, 31, 0, .RC, 0⟩

/-- BAS_CLSPIN[c].PINNED (11_intake_and_basin.md R336). -/
def F.BAS_CLSPIN_PINNED : Field := ⟨.BAS_CLSPIN, 18, 0, .RO, 0⟩

/-- RAS_CFG.CETHR (12_data_integrity.md R363). -/
def F.RAS_CFG_CETHR : Field := ⟨.RAS_CFG, 63, 48, .RW, 64⟩
/-- RAS_CFG.AUTORET (12_data_integrity.md R363). -/
def F.RAS_CFG_AUTORET : Field := ⟨.RAS_CFG, 1, 1, .RW, 1⟩
/-- RAS_CFG.CMODE (12_data_integrity.md R363). -/
def F.RAS_CFG_CMODE : Field := ⟨.RAS_CFG, 0, 0, .RW, 0⟩

/-- RAS_SCRUB.PERIOD (12_data_integrity.md R363). -/
def F.RAS_SCRUB_PERIOD : Field := ⟨.RAS_SCRUB, 15, 0, .RW, 1440⟩

/-- RAS_SCRUBSTAT.PASSES (12_data_integrity.md R363). -/
def F.RAS_SCRUBSTAT_PASSES : Field := ⟨.RAS_SCRUBSTAT, 63, 48, .RO, 0⟩
/-- RAS_SCRUBSTAT.LAG (12_data_integrity.md R363). -/
def F.RAS_SCRUBSTAT_LAG : Field := ⟨.RAS_SCRUBSTAT, 47, 40, .RO, 0⟩
/-- RAS_SCRUBSTAT.BEHIND (12_data_integrity.md R363). -/
def F.RAS_SCRUBSTAT_BEHIND : Field := ⟨.RAS_SCRUBSTAT, 39, 39, .RO, 0⟩
/-- RAS_SCRUBSTAT.MINPAGE (12_data_integrity.md R363). -/
def F.RAS_SCRUBSTAT_MINPAGE : Field := ⟨.RAS_SCRUBSTAT, 20, 0, .RO, 0⟩

/-- RAS_STAT.ERR (12_data_integrity.md R363). -/
def F.RAS_STAT_ERR : Field := ⟨.RAS_STAT, 63, 56, .RC, 0⟩
/-- RAS_STAT.FILLS (12_data_integrity.md R363). -/
def F.RAS_STAT_FILLS : Field := ⟨.RAS_STAT, 55, 48, .RO, 0⟩
/-- RAS_STAT.REMAPS (12_data_integrity.md R363). -/
def F.RAS_STAT_REMAPS : Field := ⟨.RAS_STAT, 47, 40, .RO, 0⟩
/-- RAS_STAT.PENDING (12_data_integrity.md R363). -/
def F.RAS_STAT_PENDING : Field := ⟨.RAS_STAT, 39, 32, .RO, 0⟩
/-- RAS_STAT.CWBDROP (12_data_integrity.md R363). -/
def F.RAS_STAT_CWBDROP : Field := ⟨.RAS_STAT, 31, 16, .RC, 0⟩

/-- RAS_STRILL.FAIL (12_data_integrity.md R363). -/
def F.RAS_STRILL_FAIL : Field := ⟨.RAS_STRILL, 63, 0, .RO, 0⟩

/-- RAS_STSPARE.DONE (12_data_integrity.md R363). -/
def F.RAS_STSPARE_DONE : Field := ⟨.RAS_STSPARE, 10, 10, .RO, 0⟩
/-- RAS_STSPARE.SRAMFAIL (12_data_integrity.md R363). -/
def F.RAS_STSPARE_SRAMFAIL : Field := ⟨.RAS_STSPARE, 9, 9, .RO, 0⟩
/-- RAS_STSPARE.WINFAIL (12_data_integrity.md R363). -/
def F.RAS_STSPARE_WINFAIL : Field := ⟨.RAS_STSPARE, 8, 8, .RO, 0⟩
/-- RAS_STSPARE.SPFAIL (12_data_integrity.md R363). -/
def F.RAS_STSPARE_SPFAIL : Field := ⟨.RAS_STSPARE, 7, 0, .RO, 0⟩

/-- RAS_ERRPTR.LOST (12_data_integrity.md R363). -/
def F.RAS_ERRPTR_LOST : Field := ⟨.RAS_ERRPTR, 63, 32, .RC, 0⟩
/-- RAS_ERRPTR.COUNT (12_data_integrity.md R363). -/
def F.RAS_ERRPTR_COUNT : Field := ⟨.RAS_ERRPTR, 31, 0, .RO, 0⟩

/-- RAS_REMAP[i].VALID (12_data_integrity.md R363). -/
def F.RAS_REMAP_VALID : Field := ⟨.RAS_REMAP, 63, 63, .RO, 0⟩
/-- RAS_REMAP[i].POISON (12_data_integrity.md R363). -/
def F.RAS_REMAP_POISON : Field := ⟨.RAS_REMAP, 62, 62, .RO, 0⟩
/-- RAS_REMAP[i].PC (12_data_integrity.md R363). -/
def F.RAS_REMAP_PC : Field := ⟨.RAS_REMAP, 30, 25, .RO, 0⟩
/-- RAS_REMAP[i].PAGE (12_data_integrity.md R363). -/
def F.RAS_REMAP_PAGE : Field := ⟨.RAS_REMAP, 24, 4, .RO, 0⟩
/-- RAS_REMAP[i].SLOT (12_data_integrity.md R363). -/
def F.RAS_REMAP_SLOT : Field := ⟨.RAS_REMAP, 3, 0, .RO, 0⟩

/-- RAS_PEND[i].VALID (12_data_integrity.md R363). -/
def F.RAS_PEND_VALID : Field := ⟨.RAS_PEND, 63, 63, .RO, 0⟩
/-- RAS_PEND[i].TRIES (12_data_integrity.md R363). -/
def F.RAS_PEND_TRIES : Field := ⟨.RAS_PEND, 62, 61, .RO, 0⟩
/-- RAS_PEND[i].PC (12_data_integrity.md R363). -/
def F.RAS_PEND_PC : Field := ⟨.RAS_PEND, 26, 21, .RO, 0⟩
/-- RAS_PEND[i].PAGE (12_data_integrity.md R363). -/
def F.RAS_PEND_PAGE : Field := ⟨.RAS_PEND, 20, 0, .RO, 0⟩

/-- RAS_PCCNT[n].CE (12_data_integrity.md R363). -/
def F.RAS_PCCNT_CE : Field := ⟨.RAS_PCCNT, 63, 40, .RC, 0⟩
/-- RAS_PCCNT[n].UE (12_data_integrity.md R363). -/
def F.RAS_PCCNT_UE : Field := ⟨.RAS_PCCNT, 39, 24, .RC, 0⟩
/-- RAS_PCCNT[n].HARD (12_data_integrity.md R363). -/
def F.RAS_PCCNT_HARD : Field := ⟨.RAS_PCCNT, 23, 16, .RC, 0⟩
/-- RAS_PCCNT[n].POISONRD (12_data_integrity.md R363). -/
def F.RAS_PCCNT_POISONRD : Field := ⟨.RAS_PCCNT, 15, 8, .RC, 0⟩
/-- RAS_PCCNT[n].RMWLOST (12_data_integrity.md R363). -/
def F.RAS_PCCNT_RMWLOST : Field := ⟨.RAS_PCCNT, 7, 0, .RC, 0⟩

/-- AQD_CTL.DISABLE (13_aqueduct_ring.md R386). -/
def F.AQD_CTL_DISABLE : Field := ⟨.AQD_CTL, 3, 3, .RW, 0⟩
/-- AQD_CTL.RETRAIN (13_aqueduct_ring.md R386). -/
def F.AQD_CTL_RETRAIN : Field := ⟨.AQD_CTL, 2, 2, .WO, 0⟩
/-- AQD_CTL.LANERETRY (13_aqueduct_ring.md R386). -/
def F.AQD_CTL_LANERETRY : Field := ⟨.AQD_CTL, 1, 1, .WO, 0⟩

/-- AQD_STAT.PARTNER (13_aqueduct_ring.md R386). -/
def F.AQD_STAT_PARTNER : Field := ⟨.AQD_STAT, 39, 34, .RO, 0⟩
/-- AQD_STAT.SELF (13_aqueduct_ring.md R386). -/
def F.AQD_STAT_SELF : Field := ⟨.AQD_STAT, 33, 33, .RO, 0⟩
/-- AQD_STAT.LUP (13_aqueduct_ring.md R386). -/
def F.AQD_STAT_LUP : Field := ⟨.AQD_STAT, 15, 12, .RO, 0⟩
/-- AQD_STAT.LEXCL (13_aqueduct_ring.md R386). -/
def F.AQD_STAT_LEXCL : Field := ⟨.AQD_STAT, 11, 8, .RO, 0⟩
/-- AQD_STAT.WIDTH (13_aqueduct_ring.md R386). -/
def F.AQD_STAT_WIDTH : Field := ⟨.AQD_STAT, 7, 4, .RO, 0⟩
/-- AQD_STAT.STATE (13_aqueduct_ring.md R386). -/
def F.AQD_STAT_STATE : Field := ⟨.AQD_STAT, 2, 0, .RO, 0⟩

/-- AQD_LANE[l].BITERR (13_aqueduct_ring.md R386). -/
def F.AQD_LANE_BITERR : Field := ⟨.AQD_LANE, 63, 24, .RC, 0⟩
/-- AQD_LANE[l].CAUSE (13_aqueduct_ring.md R386). -/
def F.AQD_LANE_CAUSE : Field := ⟨.AQD_LANE, 3, 2, .RO, 0⟩
/-- AQD_LANE[l].DETECT (13_aqueduct_ring.md R386). -/
def F.AQD_LANE_DETECT : Field := ⟨.AQD_LANE, 1, 1, .RO, 0⟩
/-- AQD_LANE[l].EXCL (13_aqueduct_ring.md R386). -/
def F.AQD_LANE_EXCL : Field := ⟨.AQD_LANE, 0, 0, .RO, 0⟩

/-- AQD_CNT.REPLAY (13_aqueduct_ring.md R386). -/
def F.AQD_CNT_REPLAY : Field := ⟨.AQD_CNT, 63, 48, .RC, 0⟩
/-- AQD_CNT.UNCORR (13_aqueduct_ring.md R386). -/
def F.AQD_CNT_UNCORR : Field := ⟨.AQD_CNT, 47, 32, .RC, 0⟩
/-- AQD_CNT.CRCERR (13_aqueduct_ring.md R386). -/
def F.AQD_CNT_CRCERR : Field := ⟨.AQD_CNT, 31, 16, .RC, 0⟩
/-- AQD_CNT.DROP (13_aqueduct_ring.md R386). -/
def F.AQD_CNT_DROP : Field := ⟨.AQD_CNT, 15, 0, .RC, 0⟩

/-- AQD_RING.REQUAL (13_aqueduct_ring.md R386). -/
def F.AQD_RING_REQUAL : Field := ⟨.AQD_RING, 63, 63, .WO, 0⟩
/-- AQD_RING.NODE (13_aqueduct_ring.md R386). -/
def F.AQD_RING_NODE : Field := ⟨.AQD_RING, 37, 32, .RW, 0⟩
/-- AQD_RING.SIZE (13_aqueduct_ring.md R386). -/
def F.AQD_RING_SIZE : Field := ⟨.AQD_RING, 31, 24, .RO, 0⟩
/-- AQD_RING.ERR (13_aqueduct_ring.md R386). -/
def F.AQD_RING_ERR : Field := ⟨.AQD_RING, 23, 16, .RC, 0⟩
/-- AQD_RING.RSTATE (13_aqueduct_ring.md R386). -/
def F.AQD_RING_RSTATE : Field := ⟨.AQD_RING, 9, 8, .RO, 0⟩
/-- AQD_RING.DUP (13_aqueduct_ring.md R386). -/
def F.AQD_RING_DUP : Field := ⟨.AQD_RING, 1, 1, .RO, 0⟩
/-- AQD_RING.QUAL (13_aqueduct_ring.md R386). -/
def F.AQD_RING_QUAL : Field := ⟨.AQD_RING, 0, 0, .RO, 0⟩

/-- AQD_RTO.LATE (13_aqueduct_ring.md R386). -/
def F.AQD_RTO_LATE : Field := ⟨.AQD_RTO, 63, 52, .RC, 0⟩
/-- AQD_RTO.RTO (13_aqueduct_ring.md R386). -/
def F.AQD_RTO_RTO : Field := ⟨.AQD_RTO, 19, 0, .RW, 2000⟩

/-- AQD_ROUTE[N].HOPS (13_aqueduct_ring.md R387). -/
def F.AQD_ROUTE_HOPS : Field := ⟨.AQD_ROUTE, 15, 8, .RO, 0⟩
/-- AQD_ROUTE[N].DIR (13_aqueduct_ring.md R387). -/
def F.AQD_ROUTE_DIR : Field := ⟨.AQD_ROUTE, 1, 0, .RO, 0⟩

/-- WEI_Q[q].WT (14_weir_shaping.md R404). -/
def F.WEI_Q_WT : Field := ⟨.WEI_Q, 63, 56, .RW, 1⟩
/-- WEI_Q[q].QDEPTH (14_weir_shaping.md R404). -/
def F.WEI_Q_QDEPTH : Field := ⟨.WEI_Q, 53, 44, .RW, 256⟩
/-- WEI_Q[q].BURST (14_weir_shaping.md R404). -/
def F.WEI_Q_BURST : Field := ⟨.WEI_Q, 43, 24, .RW, 1048575⟩
/-- WEI_Q[q].RATE (14_weir_shaping.md R404). -/
def F.WEI_Q_RATE : Field := ⟨.WEI_Q, 13, 0, .RW, 16383⟩

/-- WEI_CLSQ.QUEUE (14_weir_shaping.md R404). -/
def F.WEI_CLSQ_QUEUE : Field := ⟨.WEI_CLSQ, 47, 0, .RW, 80421421917330⟩

/-- WEI_GATE.OPEN (14_weir_shaping.md R404). -/
def F.WEI_GATE_OPEN : Field := ⟨.WEI_GATE, 7, 0, .RW, 255⟩

/-- WEI_GUARD.GMARGIN (14_weir_shaping.md R404). -/
def F.WEI_GUARD_GMARGIN : Field := ⟨.WEI_GUARD, 15, 0, .RW, 64⟩

/-- WEI_STAT.ERR (14_weir_shaping.md R404). -/
def F.WEI_STAT_ERR : Field := ⟨.WEI_STAT, 63, 56, .RC, 0⟩
/-- WEI_STAT.IDX (14_weir_shaping.md R404). -/
def F.WEI_STAT_IDX : Field := ⟨.WEI_STAT, 51, 48, .RC, 0⟩
/-- WEI_STAT.TFULL (14_weir_shaping.md R404). -/
def F.WEI_STAT_TFULL : Field := ⟨.WEI_STAT, 47, 32, .RC, 0⟩
/-- WEI_STAT.LATECLOSE (14_weir_shaping.md R404). -/
def F.WEI_STAT_LATECLOSE : Field := ⟨.WEI_STAT, 31, 16, .RC, 0⟩

/-- WEI_BKT[q].DEFICIT (14_weir_shaping.md R404). -/
def F.WEI_BKT_DEFICIT : Field := ⟨.WEI_BKT, 40, 24, .RO, 0⟩
/-- WEI_BKT[q].LEVEL (14_weir_shaping.md R404). -/
def F.WEI_BKT_LEVEL : Field := ⟨.WEI_BKT, 21, 0, .RO, 0⟩

/-- WEI_QSTAT[q].FRAMES (14_weir_shaping.md R404). -/
def F.WEI_QSTAT_FRAMES : Field := ⟨.WEI_QSTAT, 63, 32, .RC, 0⟩
/-- WEI_QSTAT[q].QLEN (14_weir_shaping.md R404). -/
def F.WEI_QSTAT_QLEN : Field := ⟨.WEI_QSTAT, 9, 0, .RO, 0⟩

/-- WEI_POL[c].EN (14_weir_shaping.md R404). -/
def F.WEI_POL_EN : Field := ⟨.WEI_POL, 63, 63, .RW, 0⟩
/-- WEI_POL[c].BURST (14_weir_shaping.md R404). -/
def F.WEI_POL_BURST : Field := ⟨.WEI_POL, 43, 24, .RW, 1048575⟩
/-- WEI_POL[c].RATE (14_weir_shaping.md R404). -/
def F.WEI_POL_RATE : Field := ⟨.WEI_POL, 13, 0, .RW, 16383⟩

/-- WEI_POLDROP[c].DROPS (14_weir_shaping.md R404). -/
def F.WEI_POLDROP_DROPS : Field := ⟨.WEI_POLDROP, 31, 0, .RC, 0⟩

/-- TIM_WALL.NS (15_time_and_tide.md R421). -/
def F.TIM_WALL_NS : Field := ⟨.TIM_WALL, 63, 0, .RW, 0⟩

/-- TIM_PPSSEC.ARM (15_time_and_tide.md R421). -/
def F.TIM_PPSSEC_ARM : Field := ⟨.TIM_PPSSEC, 63, 63, .RW, 0⟩
/-- TIM_PPSSEC.SEC (15_time_and_tide.md R421). -/
def F.TIM_PPSSEC_SEC : Field := ⟨.TIM_PPSSEC, 33, 0, .RW, 0⟩

/-- TIM_WSTAT.WSTATE (15_time_and_tide.md R421). -/
def F.TIM_WSTAT_WSTATE : Field := ⟨.TIM_WSTAT, 63, 62, .RO, 0⟩
/-- TIM_WSTAT.YF (15_time_and_tide.md R421). -/
def F.TIM_WSTAT_YF : Field := ⟨.TIM_WSTAT, 55, 32, .RO, 0⟩
/-- TIM_WSTAT.LASTERR (15_time_and_tide.md R421). -/
def F.TIM_WSTAT_LASTERR : Field := ⟨.TIM_WSTAT, 31, 0, .RO, 0⟩

/-- TIM_PPSCNT.OUTLIER (15_time_and_tide.md R421). -/
def F.TIM_PPSCNT_OUTLIER : Field := ⟨.TIM_PPSCNT, 63, 48, .RC, 0⟩
/-- TIM_PPSCNT.STEPS (15_time_and_tide.md R421). -/
def F.TIM_PPSCNT_STEPS : Field := ⟨.TIM_PPSCNT, 47, 32, .RC, 0⟩
/-- TIM_PPSCNT.EDGES (15_time_and_tide.md R421). -/
def F.TIM_PPSCNT_EDGES : Field := ⟨.TIM_PPSCNT, 31, 0, .RC, 0⟩

/-- TIM_TIDE.TSTATE (15_time_and_tide.md R421). -/
def F.TIM_TIDE_TSTATE : Field := ⟨.TIM_TIDE, 63, 62, .RO, 0⟩
/-- TIM_TIDE.RATEV (15_time_and_tide.md R421). -/
def F.TIM_TIDE_RATEV : Field := ⟨.TIM_TIDE, 61, 61, .RO, 0⟩
/-- TIM_TIDE.TIDE (15_time_and_tide.md R421). -/
def F.TIM_TIDE_TIDE : Field := ⟨.TIM_TIDE, 31, 0, .RO, 0⟩

/-- TIM_TRATE.RATE (15_time_and_tide.md R421). -/
def F.TIM_TRATE_RATE : Field := ⟨.TIM_TRATE, 31, 0, .RO, 0⟩

/-- TIM_TCTL.STALL (15_time_and_tide.md R421). -/
def F.TIM_TCTL_STALL : Field := ⟨.TIM_TCTL, 31, 16, .RW, 200⟩
/-- TIM_TCTL.REBASE (15_time_and_tide.md R421). -/
def F.TIM_TCTL_REBASE : Field := ⟨.TIM_TCTL, 2, 2, .WO, 0⟩
/-- TIM_TCTL.HOLDMODE (15_time_and_tide.md R421). -/
def F.TIM_TCTL_HOLDMODE : Field := ⟨.TIM_TCTL, 1, 1, .RW, 0⟩

/-- TIM_TCNT.ERR (15_time_and_tide.md R421). -/
def F.TIM_TCNT_ERR : Field := ⟨.TIM_TCNT, 63, 56, .RC, 0⟩
/-- TIM_TCNT.IDX (15_time_and_tide.md R421). -/
def F.TIM_TCNT_IDX : Field := ⟨.TIM_TCNT, 55, 48, .RC, 0⟩
/-- TIM_TCNT.BACKWARD (15_time_and_tide.md R421). -/
def F.TIM_TCNT_BACKWARD : Field := ⟨.TIM_TCNT, 47, 40, .RC, 0⟩
/-- TIM_TCNT.HOLDOVERS (15_time_and_tide.md R421). -/
def F.TIM_TCNT_HOLDOVERS : Field := ⟨.TIM_TCNT, 39, 32, .RC, 0⟩
/-- TIM_TCNT.LASTREAL (15_time_and_tide.md R421). -/
def F.TIM_TCNT_LASTREAL : Field := ⟨.TIM_TCNT, 31, 0, .RO, 0⟩

/-- TIM_EVT0[i].EN (15_time_and_tide.md R421). -/
def F.TIM_EVT0_EN : Field := ⟨.TIM_EVT0, 63, 63, .RW, 0⟩
/-- TIM_EVT0[i].PER (15_time_and_tide.md R421). -/
def F.TIM_EVT0_PER : Field := ⟨.TIM_EVT0, 62, 62, .RW, 0⟩
/-- TIM_EVT0[i].ACTION (15_time_and_tide.md R421). -/
def F.TIM_EVT0_ACTION : Field := ⟨.TIM_EVT0, 61, 56, .RW, 0⟩
/-- TIM_EVT0[i].N (15_time_and_tide.md R421). -/
def F.TIM_EVT0_N : Field := ⟨.TIM_EVT0, 55, 44, .RW, 1⟩
/-- TIM_EVT0[i].RES (15_time_and_tide.md R421). -/
def F.TIM_EVT0_RES : Field := ⟨.TIM_EVT0, 43, 32, .RW, 0⟩
/-- TIM_EVT0[i].POINT (15_time_and_tide.md R421). -/
def F.TIM_EVT0_POINT : Field := ⟨.TIM_EVT0, 31, 0, .RW, 0⟩

/-- TIM_EVT1[i].FIRED (15_time_and_tide.md R421). -/
def F.TIM_EVT1_FIRED : Field := ⟨.TIM_EVT1, 63, 63, .RO, 0⟩
/-- TIM_EVT1[i].EXPIRED (15_time_and_tide.md R421). -/
def F.TIM_EVT1_EXPIRED : Field := ⟨.TIM_EVT1, 62, 62, .RO, 0⟩
/-- TIM_EVT1[i].ARG (15_time_and_tide.md R421). -/
def F.TIM_EVT1_ARG : Field := ⟨.TIM_EVT1, 31, 0, .RW, 0⟩

/-- PWR_DCTL[d].N2 (16_power_and_thermal.md R450). -/
def F.PWR_DCTL_N2 : Field := ⟨.PWR_DCTL, 15, 12, .RW, 2⟩
/-- PWR_DCTL[d].N1 (16_power_and_thermal.md R450). -/
def F.PWR_DCTL_N1 : Field := ⟨.PWR_DCTL, 11, 8, .RW, 4⟩
/-- PWR_DCTL[d].METHOD (16_power_and_thermal.md R450). -/
def F.PWR_DCTL_METHOD : Field := ⟨.PWR_DCTL, 1, 1, .RW, 0⟩
/-- PWR_DCTL[d].ON (16_power_and_thermal.md R450). -/
def F.PWR_DCTL_ON : Field := ⟨.PWR_DCTL, 0, 0, .RW, 1⟩

/-- PWR_DSTAT[d].WAKES (16_power_and_thermal.md R450). -/
def F.PWR_DSTAT_WAKES : Field := ⟨.PWR_DSTAT, 63, 48, .RC, 0⟩
/-- PWR_DSTAT[d].LEVEL (16_power_and_thermal.md R450). -/
def F.PWR_DSTAT_LEVEL : Field := ⟨.PWR_DSTAT, 7, 6, .RO, 0⟩
/-- PWR_DSTAT[d].SLOW (16_power_and_thermal.md R450). -/
def F.PWR_DSTAT_SLOW : Field := ⟨.PWR_DSTAT, 3, 3, .RO, 0⟩
/-- PWR_DSTAT[d].STATE (16_power_and_thermal.md R450). -/
def F.PWR_DSTAT_STATE : Field := ⟨.PWR_DSTAT, 2, 0, .RO, 0⟩

/-- PWR_TRI[t].CUR (16_power_and_thermal.md R450). -/
def F.PWR_TRI_CUR : Field := ⟨.PWR_TRI, 63, 48, .RO, 0⟩
/-- PWR_TRI[t].CAPLVL (16_power_and_thermal.md R450). -/
def F.PWR_TRI_CAPLVL : Field := ⟨.PWR_TRI, 41, 40, .RO, 0⟩
/-- PWR_TRI[t].GANGED (16_power_and_thermal.md R450). -/
def F.PWR_TRI_GANGED : Field := ⟨.PWR_TRI, 39, 39, .RO, 0⟩
/-- PWR_TRI[t].FAILED (16_power_and_thermal.md R450). -/
def F.PWR_TRI_FAILED : Field := ⟨.PWR_TRI, 38, 36, .RO, 0⟩
/-- PWR_TRI[t].VOUT (16_power_and_thermal.md R450). -/
def F.PWR_TRI_VOUT : Field := ⟨.PWR_TRI, 35, 26, .RO, 0⟩
/-- PWR_TRI[t].SETMV (16_power_and_thermal.md R450). -/
def F.PWR_TRI_SETMV : Field := ⟨.PWR_TRI, 9, 0, .RW, 750⟩

/-- PWR_REG[r].REENABLE (16_power_and_thermal.md R450). -/
def F.PWR_REG_REENABLE : Field := ⟨.PWR_REG, 63, 63, .WO, 0⟩
/-- PWR_REG[r].RTEMP (16_power_and_thermal.md R450). -/
def F.PWR_REG_RTEMP : Field := ⟨.PWR_REG, 15, 8, .RO, 0⟩
/-- PWR_REG[r].FAILED (16_power_and_thermal.md R450). -/
def F.PWR_REG_FAILED : Field := ⟨.PWR_REG, 7, 7, .RO, 0⟩
/-- PWR_REG[r].PHFAIL (16_power_and_thermal.md R450). -/
def F.PWR_REG_PHFAIL : Field := ⟨.PWR_REG, 5, 0, .RO, 0⟩

/-- PWR_CAP.CAP (16_power_and_thermal.md R450). -/
def F.PWR_CAP_CAP : Field := ⟨.PWR_CAP, 15, 0, .RW, 60000⟩

/-- PWR_STAT.ERR (16_power_and_thermal.md R450). -/
def F.PWR_STAT_ERR : Field := ⟨.PWR_STAT, 63, 56, .RC, 0⟩
/-- PWR_STAT.IDX (16_power_and_thermal.md R450). -/
def F.PWR_STAT_IDX : Field := ⟨.PWR_STAT, 55, 48, .RC, 0⟩
/-- PWR_STAT.LADDER (16_power_and_thermal.md R450). -/
def F.PWR_STAT_LADDER : Field := ⟨.PWR_STAT, 34, 32, .RO, 0⟩
/-- PWR_STAT.PAVG (16_power_and_thermal.md R450). -/
def F.PWR_STAT_PAVG : Field := ⟨.PWR_STAT, 15, 0, .RO, 0⟩

/-- THM_CFG.RLIM (16_power_and_thermal.md R451). -/
def F.THM_CFG_RLIM : Field := ⟨.THM_CFG, 31, 28, .RW, 0⟩
/-- THM_CFG.HYST (16_power_and_thermal.md R451). -/
def F.THM_CFG_HYST : Field := ⟨.THM_CFG, 27, 24, .RW, 4⟩
/-- THM_CFG.SHUT (16_power_and_thermal.md R451). -/
def F.THM_CFG_SHUT : Field := ⟨.THM_CFG, 23, 16, .RW, 118⟩
/-- THM_CFG.THROT (16_power_and_thermal.md R451). -/
def F.THM_CFG_THROT : Field := ⟨.THM_CFG, 15, 8, .RO, 105⟩
/-- THM_CFG.WARN (16_power_and_thermal.md R451). -/
def F.THM_CFG_WARN : Field := ⟨.THM_CFG, 7, 0, .RO, 95⟩

/-- THM_STAT.ERR (16_power_and_thermal.md R451). -/
def F.THM_STAT_ERR : Field := ⟨.THM_STAT, 63, 56, .RC, 0⟩
/-- THM_STAT.EXCL (16_power_and_thermal.md R451). -/
def F.THM_STAT_EXCL : Field := ⟨.THM_STAT, 47, 32, .RO, 0⟩
/-- THM_STAT.MAXT (16_power_and_thermal.md R451). -/
def F.THM_STAT_MAXT : Field := ⟨.THM_STAT, 31, 24, .RO, 0⟩
/-- THM_STAT.RILLLVL (16_power_and_thermal.md R451). -/
def F.THM_STAT_RILLLVL : Field := ⟨.THM_STAT, 23, 22, .RO, 0⟩
/-- THM_STAT.FAST (16_power_and_thermal.md R451). -/
def F.THM_STAT_FAST : Field := ⟨.THM_STAT, 17, 17, .RO, 0⟩
/-- THM_STAT.STACKTHR (16_power_and_thermal.md R451). -/
def F.THM_STAT_STACKTHR : Field := ⟨.THM_STAT, 16, 16, .RO, 0⟩
/-- THM_STAT.JETLVL (16_power_and_thermal.md R451). -/
def F.THM_STAT_JETLVL : Field := ⟨.THM_STAT, 7, 0, .RO, 0⟩

/-- THM_TRIP.RESTART (16_power_and_thermal.md R451). -/
def F.THM_TRIP_RESTART : Field := ⟨.THM_TRIP, 63, 63, .WO, 0⟩
/-- THM_TRIP.HELD (16_power_and_thermal.md R451). -/
def F.THM_TRIP_HELD : Field := ⟨.THM_TRIP, 62, 62, .RO, 0⟩
/-- THM_TRIP.SENSOR (16_power_and_thermal.md R451). -/
def F.THM_TRIP_SENSOR : Field := ⟨.THM_TRIP, 55, 52, .RO, 0⟩
/-- THM_TRIP.PEAK (16_power_and_thermal.md R451). -/
def F.THM_TRIP_PEAK : Field := ⟨.THM_TRIP, 47, 40, .RO, 0⟩
/-- THM_TRIP.TRIPS (16_power_and_thermal.md R451). -/
def F.THM_TRIP_TRIPS : Field := ⟨.THM_TRIP, 39, 32, .RO, 0⟩
/-- THM_TRIP.LASTSEC (16_power_and_thermal.md R451). -/
def F.THM_TRIP_LASTSEC : Field := ⟨.THM_TRIP, 31, 0, .RO, 0⟩

/-- THM_SENS[s].EXCL (16_power_and_thermal.md R451). -/
def F.THM_SENS_EXCL : Field := ⟨.THM_SENS, 16, 16, .W1C, 0⟩
/-- THM_SENS[s].RAW (16_power_and_thermal.md R451). -/
def F.THM_SENS_RAW : Field := ⟨.THM_SENS, 15, 8, .RO, 0⟩
/-- THM_SENS[s].TEMP (16_power_and_thermal.md R451). -/
def F.THM_SENS_TEMP : Field := ⟨.THM_SENS, 7, 0, .RO, 0⟩

/-- CAL_ZQ[L].VERIFIED (17_calibration_and_training.md R470). -/
def F.CAL_ZQ_VERIFIED : Field := ⟨.CAL_ZQ, 63, 63, .RO, 0⟩
/-- CAL_ZQ[L].ODT (17_calibration_and_training.md R470). -/
def F.CAL_ZQ_ODT : Field := ⟨.CAL_ZQ, 29, 20, .RWS, 512⟩
/-- CAL_ZQ[L].DRVN (17_calibration_and_training.md R470). -/
def F.CAL_ZQ_DRVN : Field := ⟨.CAL_ZQ, 19, 10, .RWS, 512⟩
/-- CAL_ZQ[L].DRVP (17_calibration_and_training.md R470). -/
def F.CAL_ZQ_DRVP : Field := ⟨.CAL_ZQ, 9, 0, .RWS, 512⟩

/-- CAL_VREF[L].VERIFIED (17_calibration_and_training.md R470). -/
def F.CAL_VREF_VERIFIED : Field := ⟨.CAL_VREF, 63, 63, .RO, 0⟩
/-- CAL_VREF[L].V3 (17_calibration_and_training.md R470). -/
def F.CAL_VREF_V3 : Field := ⟨.CAL_VREF, 39, 30, .RWS, 512⟩
/-- CAL_VREF[L].V2 (17_calibration_and_training.md R470). -/
def F.CAL_VREF_V2 : Field := ⟨.CAL_VREF, 29, 20, .RWS, 512⟩
/-- CAL_VREF[L].V1 (17_calibration_and_training.md R470). -/
def F.CAL_VREF_V1 : Field := ⟨.CAL_VREF, 19, 10, .RWS, 512⟩
/-- CAL_VREF[L].V0 (17_calibration_and_training.md R470). -/
def F.CAL_VREF_V0 : Field := ⟨.CAL_VREF, 9, 0, .RWS, 512⟩

/-- CAL_RDLY[L][f].VALID (17_calibration_and_training.md R470). -/
def F.CAL_RDLY_VALID : Field := ⟨.CAL_RDLY, 63, 63, .RWS, 0⟩
/-- CAL_RDLY[L][f].VERIFIED (17_calibration_and_training.md R470). -/
def F.CAL_RDLY_VERIFIED : Field := ⟨.CAL_RDLY, 62, 62, .RO, 0⟩
/-- CAL_RDLY[L][f].L3 (17_calibration_and_training.md R470). -/
def F.CAL_RDLY_L3 : Field := ⟨.CAL_RDLY, 35, 27, .RWS, 0⟩
/-- CAL_RDLY[L][f].L2 (17_calibration_and_training.md R470). -/
def F.CAL_RDLY_L2 : Field := ⟨.CAL_RDLY, 26, 18, .RWS, 0⟩
/-- CAL_RDLY[L][f].L1 (17_calibration_and_training.md R470). -/
def F.CAL_RDLY_L1 : Field := ⟨.CAL_RDLY, 17, 9, .RWS, 0⟩
/-- CAL_RDLY[L][f].L0 (17_calibration_and_training.md R470). -/
def F.CAL_RDLY_L0 : Field := ⟨.CAL_RDLY, 8, 0, .RWS, 0⟩

/-- CAL_WDLY[L][f].VALID (17_calibration_and_training.md R470). -/
def F.CAL_WDLY_VALID : Field := ⟨.CAL_WDLY, 63, 63, .RWS, 0⟩
/-- CAL_WDLY[L][f].VERIFIED (17_calibration_and_training.md R470). -/
def F.CAL_WDLY_VERIFIED : Field := ⟨.CAL_WDLY, 62, 62, .RO, 0⟩
/-- CAL_WDLY[L][f].CA (17_calibration_and_training.md R470). -/
def F.CAL_WDLY_CA : Field := ⟨.CAL_WDLY, 44, 36, .RWS, 0⟩
/-- CAL_WDLY[L][f].L3 (17_calibration_and_training.md R470). -/
def F.CAL_WDLY_L3 : Field := ⟨.CAL_WDLY, 35, 27, .RWS, 0⟩
/-- CAL_WDLY[L][f].L2 (17_calibration_and_training.md R470). -/
def F.CAL_WDLY_L2 : Field := ⟨.CAL_WDLY, 26, 18, .RWS, 0⟩
/-- CAL_WDLY[L][f].L1 (17_calibration_and_training.md R470). -/
def F.CAL_WDLY_L1 : Field := ⟨.CAL_WDLY, 17, 9, .RWS, 0⟩
/-- CAL_WDLY[L][f].L0 (17_calibration_and_training.md R470). -/
def F.CAL_WDLY_L0 : Field := ⟨.CAL_WDLY, 8, 0, .RWS, 0⟩

/-- CAL_LSTAT[L].MINEYE (17_calibration_and_training.md R470). -/
def F.CAL_LSTAT_MINEYE : Field := ⟨.CAL_LSTAT, 47, 40, .RO, 0⟩
/-- CAL_LSTAT[L].LASTT (17_calibration_and_training.md R470). -/
def F.CAL_LSTAT_LASTT : Field := ⟨.CAL_LSTAT, 39, 32, .RO, 0⟩
/-- CAL_LSTAT[L].BAD (17_calibration_and_training.md R470). -/
def F.CAL_LSTAT_BAD : Field := ⟨.CAL_LSTAT, 3, 3, .RO, 0⟩
/-- CAL_LSTAT[L].ACT (17_calibration_and_training.md R470). -/
def F.CAL_LSTAT_ACT : Field := ⟨.CAL_LSTAT, 2, 0, .RO, 0⟩

/-- CAL_CFG.WINMAX (17_calibration_and_training.md R470). -/
def F.CAL_CFG_WINMAX : Field := ⟨.CAL_CFG, 63, 56, .RW, 10⟩
/-- CAL_CFG.WINONLY (17_calibration_and_training.md R470). -/
def F.CAL_CFG_WINONLY : Field := ⟨.CAL_CFG, 55, 55, .RW, 0⟩
/-- CAL_CFG.ZQPER (17_calibration_and_training.md R470). -/
def F.CAL_CFG_ZQPER : Field := ⟨.CAL_CFG, 47, 40, .RW, 10⟩
/-- CAL_CFG.DRVDIV (17_calibration_and_training.md R470). -/
def F.CAL_CFG_DRVDIV : Field := ⟨.CAL_CFG, 39, 36, .RW, 6⟩
/-- CAL_CFG.ODTDIV (17_calibration_and_training.md R470). -/
def F.CAL_CFG_ODTDIV : Field := ⟨.CAL_CFG, 35, 32, .RW, 4⟩
/-- CAL_CFG.VRF (17_calibration_and_training.md R470). -/
def F.CAL_CFG_VRF : Field := ⟨.CAL_CFG, 31, 22, .RW, 512⟩
/-- CAL_CFG.EYEMIN (17_calibration_and_training.md R470). -/
def F.CAL_CFG_EYEMIN : Field := ⟨.CAL_CFG, 15, 8, .RW, 16⟩
/-- CAL_CFG.DRIFTTHR (17_calibration_and_training.md R470). -/
def F.CAL_CFG_DRIFTTHR : Field := ⟨.CAL_CFG, 7, 0, .RW, 3⟩

/-- CAL_FSP.REQ (17_calibration_and_training.md R470). -/
def F.CAL_FSP_REQ : Field := ⟨.CAL_FSP, 63, 63, .WO, 0⟩
/-- CAL_FSP.ACTIVE (17_calibration_and_training.md R470). -/
def F.CAL_FSP_ACTIVE : Field := ⟨.CAL_FSP, 8, 8, .RO, 0⟩
/-- CAL_FSP.RATE1 (17_calibration_and_training.md R470). -/
def F.CAL_FSP_RATE1 : Field := ⟨.CAL_FSP, 6, 4, .RW, 0⟩
/-- CAL_FSP.RATE0 (17_calibration_and_training.md R470). -/
def F.CAL_FSP_RATE0 : Field := ⟨.CAL_FSP, 2, 0, .RW, 3⟩

/-- CAL_STAT.ERR (17_calibration_and_training.md R470). -/
def F.CAL_STAT_ERR : Field := ⟨.CAL_STAT, 63, 56, .RC, 0⟩
/-- CAL_STAT.ACTIVITIES (17_calibration_and_training.md R470). -/
def F.CAL_STAT_ACTIVITIES : Field := ⟨.CAL_STAT, 23, 16, .RO, 0⟩
/-- CAL_STAT.SWITCH (17_calibration_and_training.md R470). -/
def F.CAL_STAT_SWITCH : Field := ⟨.CAL_STAT, 1, 1, .RO, 0⟩
/-- CAL_STAT.HOLD (17_calibration_and_training.md R470). -/
def F.CAL_STAT_HOLD : Field := ⟨.CAL_STAT, 0, 0, .RO, 0⟩

/-- CAL_CNT.DRIFTFIX (17_calibration_and_training.md R470). -/
def F.CAL_CNT_DRIFTFIX : Field := ⟨.CAL_CNT, 63, 48, .RC, 0⟩
/-- CAL_CNT.DISAGREE (17_calibration_and_training.md R470). -/
def F.CAL_CNT_DISAGREE : Field := ⟨.CAL_CNT, 47, 32, .RC, 0⟩
/-- CAL_CNT.ABANDON (17_calibration_and_training.md R470). -/
def F.CAL_CNT_ABANDON : Field := ⟨.CAL_CNT, 31, 16, .RC, 0⟩
/-- CAL_CNT.SKIP (17_calibration_and_training.md R470). -/
def F.CAL_CNT_SKIP : Field := ⟨.CAL_CNT, 15, 0, .RC, 0⟩

/-- CAL_CTL.RECAL (17_calibration_and_training.md R470). -/
def F.CAL_CTL_RECAL : Field := ⟨.CAL_CTL, 9, 9, .WO, 0⟩
/-- CAL_CTL.RETRAIN (17_calibration_and_training.md R470). -/
def F.CAL_CTL_RETRAIN : Field := ⟨.CAL_CTL, 8, 8, .WO, 0⟩
/-- CAL_CTL.PC (17_calibration_and_training.md R470). -/
def F.CAL_CTL_PC : Field := ⟨.CAL_CTL, 5, 0, .RW, 0⟩

/-- GLB_RESET.WARM (18_bringup_reset_lowpower.md R498). -/
def F.GLB_RESET_WARM : Field := ⟨.GLB_RESET, 0, 0, .WO, 0⟩

/-- GLB_BOOTCFG.COLDTEST (18_bringup_reset_lowpower.md R498). -/
def F.GLB_BOOTCFG_COLDTEST : Field := ⟨.GLB_BOOTCFG, 1, 0, .RW, 0⟩

/-- GLB_BOOTSTAT.ERR (18_bringup_reset_lowpower.md R498). -/
def F.GLB_BOOTSTAT_ERR : Field := ⟨.GLB_BOOTSTAT, 63, 56, .RC, 0⟩
/-- GLB_BOOTSTAT.OPENPCS (18_bringup_reset_lowpower.md R498). -/
def F.GLB_BOOTSTAT_OPENPCS : Field := ⟨.GLB_BOOTSTAT, 47, 40, .RO, 0⟩
/-- GLB_BOOTSTAT.TESTED (18_bringup_reset_lowpower.md R498). -/
def F.GLB_BOOTSTAT_TESTED : Field := ⟨.GLB_BOOTSTAT, 39, 32, .RO, 0⟩
/-- GLB_BOOTSTAT.TESTSEC (18_bringup_reset_lowpower.md R498). -/
def F.GLB_BOOTSTAT_TESTSEC : Field := ⟨.GLB_BOOTSTAT, 31, 16, .RO, 0⟩
/-- GLB_BOOTSTAT.CAUSE (18_bringup_reset_lowpower.md R498). -/
def F.GLB_BOOTSTAT_CAUSE : Field := ⟨.GLB_BOOTSTAT, 11, 8, .RO, 0⟩
/-- GLB_BOOTSTAT.PHASE (18_bringup_reset_lowpower.md R498). -/
def F.GLB_BOOTSTAT_PHASE : Field := ⟨.GLB_BOOTSTAT, 3, 0, .RO, 0⟩

/-- GLB_FUSE.TV (18_bringup_reset_lowpower.md R498). -/
def F.GLB_FUSE_TV : Field := ⟨.GLB_FUSE, 31, 31, .RO, 0⟩
/-- GLB_FUSE.TPC (18_bringup_reset_lowpower.md R498). -/
def F.GLB_FUSE_TPC : Field := ⟨.GLB_FUSE, 27, 22, .RO, 0⟩
/-- GLB_FUSE.RV1 (18_bringup_reset_lowpower.md R498). -/
def F.GLB_FUSE_RV1 : Field := ⟨.GLB_FUSE, 15, 15, .RO, 0⟩
/-- GLB_FUSE.RV0 (18_bringup_reset_lowpower.md R498). -/
def F.GLB_FUSE_RV0 : Field := ⟨.GLB_FUSE, 14, 14, .RO, 0⟩
/-- GLB_FUSE.RPC1 (18_bringup_reset_lowpower.md R498). -/
def F.GLB_FUSE_RPC1 : Field := ⟨.GLB_FUSE, 11, 6, .RO, 0⟩
/-- GLB_FUSE.RPC0 (18_bringup_reset_lowpower.md R498). -/
def F.GLB_FUSE_RPC0 : Field := ⟨.GLB_FUSE, 5, 0, .RO, 0⟩

/-- GLB_PSTATE.IDLENS (18_bringup_reset_lowpower.md R498). -/
def F.GLB_PSTATE_IDLENS : Field := ⟨.GLB_PSTATE, 31, 16, .RW, 1000⟩
/-- GLB_PSTATE.WAKE (18_bringup_reset_lowpower.md R498). -/
def F.GLB_PSTATE_WAKE : Field := ⟨.GLB_PSTATE, 15, 12, .RO, 0⟩
/-- GLB_PSTATE.CUR (18_bringup_reset_lowpower.md R498). -/
def F.GLB_PSTATE_CUR : Field := ⟨.GLB_PSTATE, 10, 8, .RO, 0⟩
/-- GLB_PSTATE.REQ (18_bringup_reset_lowpower.md R498). -/
def F.GLB_PSTATE_REQ : Field := ⟨.GLB_PSTATE, 2, 0, .RW, 0⟩

/-- GLB_TIER.APPLY (18_bringup_reset_lowpower.md R498). -/
def F.GLB_TIER_APPLY : Field := ⟨.GLB_TIER, 15, 15, .WO, 0⟩
/-- GLB_TIER.SWREQ (18_bringup_reset_lowpower.md R498). -/
def F.GLB_TIER_SWREQ : Field := ⟨.GLB_TIER, 14, 14, .WO, 0⟩
/-- GLB_TIER.NBASE (18_bringup_reset_lowpower.md R498). -/
def F.GLB_TIER_NBASE : Field := ⟨.GLB_TIER, 12, 12, .RW, 0⟩
/-- GLB_TIER.NEXT (18_bringup_reset_lowpower.md R498). -/
def F.GLB_TIER_NEXT : Field := ⟨.GLB_TIER, 11, 8, .RW, 0⟩
/-- GLB_TIER.BASEONLY (18_bringup_reset_lowpower.md R498). -/
def F.GLB_TIER_BASEONLY : Field := ⟨.GLB_TIER, 4, 4, .RO, 1⟩
/-- GLB_TIER.CUR (18_bringup_reset_lowpower.md R498). -/
def F.GLB_TIER_CUR : Field := ⟨.GLB_TIER, 3, 0, .RO, 0⟩

/-- GLB_TIERSTAT.REFUSED (18_bringup_reset_lowpower.md R498). -/
def F.GLB_TIERSTAT_REFUSED : Field := ⟨.GLB_TIERSTAT, 63, 48, .RC, 0⟩
/-- GLB_TIERSTAT.LASTIDX (18_bringup_reset_lowpower.md R498). -/
def F.GLB_TIERSTAT_LASTIDX : Field := ⟨.GLB_TIERSTAT, 47, 32, .RO, 0⟩
/-- GLB_TIERSTAT.LASTTIER (18_bringup_reset_lowpower.md R498). -/
def F.GLB_TIERSTAT_LASTTIER : Field := ⟨.GLB_TIERSTAT, 31, 27, .RO, 0⟩
/-- GLB_TIERSTAT.LASTERR (18_bringup_reset_lowpower.md R498). -/
def F.GLB_TIERSTAT_LASTERR : Field := ⟨.GLB_TIERSTAT, 23, 16, .RO, 0⟩
/-- GLB_TIERSTAT.OVL_OK (18_bringup_reset_lowpower.md R498). -/
def F.GLB_TIERSTAT_OVL_OK : Field := ⟨.GLB_TIERSTAT, 3, 3, .RO, 0⟩
/-- GLB_TIERSTAT.BASE_OK (18_bringup_reset_lowpower.md R498). -/
def F.GLB_TIERSTAT_BASE_OK : Field := ⟨.GLB_TIERSTAT, 2, 2, .RO, 0⟩
/-- GLB_TIERSTAT.PEND (18_bringup_reset_lowpower.md R498). -/
def F.GLB_TIERSTAT_PEND : Field := ⟨.GLB_TIERSTAT, 1, 1, .RO, 0⟩
/-- GLB_TIERSTAT.BUSY (18_bringup_reset_lowpower.md R498). -/
def F.GLB_TIERSTAT_BUSY : Field := ⟨.GLB_TIERSTAT, 0, 0, .RO, 0⟩

/-- CAS_STAT.MEMBERS (19_cascade_and_services.md R538). -/
def F.CAS_STAT_MEMBERS : Field := ⟨.CAS_STAT, 63, 48, .RO, 0⟩
/-- CAS_STAT.MGR (19_cascade_and_services.md R538). -/
def F.CAS_STAT_MGR : Field := ⟨.CAS_STAT, 47, 44, .RO, 0⟩
/-- CAS_STAT.ROLE (19_cascade_and_services.md R538). -/
def F.CAS_STAT_ROLE : Field := ⟨.CAS_STAT, 43, 42, .RO, 0⟩
/-- CAS_STAT.LOOPOK (19_cascade_and_services.md R538). -/
def F.CAS_STAT_LOOPOK : Field := ⟨.CAS_STAT, 41, 41, .RO, 0⟩
/-- CAS_STAT.RINGS (19_cascade_and_services.md R538). -/
def F.CAS_STAT_RINGS : Field := ⟨.CAS_STAT, 31, 0, .RO, 0⟩

/-- CAS_BUDGET.BUDGET (19_cascade_and_services.md R538). -/
def F.CAS_BUDGET_BUDGET : Field := ⟨.CAS_BUDGET, 19, 0, .RW, 960000⟩

/-- CAS_CNT.CRCERR (19_cascade_and_services.md R538). -/
def F.CAS_CNT_CRCERR : Field := ⟨.CAS_CNT, 63, 48, .RC, 0⟩
/-- CAS_CNT.OVFDROP (19_cascade_and_services.md R538). -/
def F.CAS_CNT_OVFDROP : Field := ⟨.CAS_CNT, 47, 32, .RC, 0⟩
/-- CAS_CNT.UNDELIV (19_cascade_and_services.md R538). -/
def F.CAS_CNT_UNDELIV : Field := ⟨.CAS_CNT, 31, 16, .RC, 0⟩

/-- FNT_FWCTL.LOAD (19_cascade_and_services.md R538). -/
def F.FNT_FWCTL_LOAD : Field := ⟨.FNT_FWCTL, 63, 63, .WO, 0⟩
/-- FNT_FWCTL.FWERR (19_cascade_and_services.md R538). -/
def F.FNT_FWCTL_FWERR : Field := ⟨.FNT_FWCTL, 47, 44, .RO, 0⟩
/-- FNT_FWCTL.RUNNING (19_cascade_and_services.md R538). -/
def F.FNT_FWCTL_RUNNING : Field := ⟨.FNT_FWCTL, 43, 43, .RO, 0⟩
/-- FNT_FWCTL.BASE (19_cascade_and_services.md R538). -/
def F.FNT_FWCTL_BASE : Field := ⟨.FNT_FWCTL, 36, 21, .RW, 0⟩

/-- FNT_PLCTL.START (19_cascade_and_services.md R538). -/
def F.FNT_PLCTL_START : Field := ⟨.FNT_PLCTL, 63, 63, .WO, 0⟩
/-- FNT_PLCTL.CANCEL (19_cascade_and_services.md R538). -/
def F.FNT_PLCTL_CANCEL : Field := ⟨.FNT_PLCTL, 62, 62, .WO, 0⟩
/-- FNT_PLCTL.AUTOGO (19_cascade_and_services.md R538). -/
def F.FNT_PLCTL_AUTOGO : Field := ⟨.FNT_PLCTL, 61, 61, .RW, 0⟩
/-- FNT_PLCTL.ARMWAIT (19_cascade_and_services.md R538). -/
def F.FNT_PLCTL_ARMWAIT : Field := ⟨.FNT_PLCTL, 57, 48, .RW, 100⟩
/-- FNT_PLCTL.ROLLWAIT (19_cascade_and_services.md R538). -/
def F.FNT_PLCTL_ROLLWAIT : Field := ⟨.FNT_PLCTL, 47, 40, .RW, 10⟩

/-- FNT_PLSTAT.PSTATE (19_cascade_and_services.md R538). -/
def F.FNT_PLSTAT_PSTATE : Field := ⟨.FNT_PLSTAT, 63, 60, .RO, 0⟩
/-- FNT_PLSTAT.ROUND (19_cascade_and_services.md R538). -/
def F.FNT_PLSTAT_ROUND : Field := ⟨.FNT_PLSTAT, 59, 56, .RO, 0⟩
/-- FNT_PLSTAT.ERR (19_cascade_and_services.md R538). -/
def F.FNT_PLSTAT_ERR : Field := ⟨.FNT_PLSTAT, 55, 48, .RC, 0⟩
/-- FNT_PLSTAT.IMAGE (19_cascade_and_services.md R538). -/
def F.FNT_PLSTAT_IMAGE : Field := ⟨.FNT_PLSTAT, 47, 32, .RO, 0⟩
/-- FNT_PLSTAT.FAILED (19_cascade_and_services.md R538). -/
def F.FNT_PLSTAT_FAILED : Field := ⟨.FNT_PLSTAT, 31, 16, .RO, 0⟩
/-- FNT_PLSTAT.READY (19_cascade_and_services.md R538). -/
def F.FNT_PLSTAT_READY : Field := ⟨.FNT_PLSTAT, 15, 0, .RO, 0⟩

/-- FNT_SVCBASE.VALID (19_cascade_and_services.md R538). -/
def F.FNT_SVCBASE_VALID : Field := ⟨.FNT_SVCBASE, 63, 63, .RO, 0⟩
/-- FNT_SVCBASE.CFGERR (19_cascade_and_services.md R538). -/
def F.FNT_SVCBASE_CFGERR : Field := ⟨.FNT_SVCBASE, 55, 48, .RO, 0⟩
/-- FNT_SVCBASE.BASE (19_cascade_and_services.md R538). -/
def F.FNT_SVCBASE_BASE : Field := ⟨.FNT_SVCBASE, 36, 12, .RW, 0⟩

/-- GLB_EVQ[q].EN (20_events_and_sediment.md R558). -/
def F.GLB_EVQ_EN : Field := ⟨.GLB_EVQ, 63, 63, .RW, 0⟩
/-- GLB_EVQ[q].QLEVEL (20_events_and_sediment.md R558). -/
def F.GLB_EVQ_QLEVEL : Field := ⟨.GLB_EVQ, 62, 60, .RW, 1⟩
/-- GLB_EVQ[q].VECTOR (20_events_and_sediment.md R558). -/
def F.GLB_EVQ_VECTOR : Field := ⟨.GLB_EVQ, 55, 48, .RW, 0⟩
/-- GLB_EVQ[q].BASE (20_events_and_sediment.md R558). -/
def F.GLB_EVQ_BASE : Field := ⟨.GLB_EVQ, 36, 12, .RWS, 0⟩
/-- GLB_EVQ[q].LOG2N (20_events_and_sediment.md R558). -/
def F.GLB_EVQ_LOG2N : Field := ⟨.GLB_EVQ, 4, 0, .RWS, 0⟩

/-- GLB_EVQPTR[q].PROD (20_events_and_sediment.md R558). -/
def F.GLB_EVQPTR_PROD : Field := ⟨.GLB_EVQPTR, 63, 32, .RO, 0⟩
/-- GLB_EVQPTR[q].CONS (20_events_and_sediment.md R558). -/
def F.GLB_EVQPTR_CONS : Field := ⟨.GLB_EVQPTR, 31, 0, .RW, 0⟩

/-- GLB_EVCNT.LOST1 (20_events_and_sediment.md R558). -/
def F.GLB_EVCNT_LOST1 : Field := ⟨.GLB_EVCNT, 63, 48, .RC, 0⟩
/-- GLB_EVCNT.LOST0 (20_events_and_sediment.md R558). -/
def F.GLB_EVCNT_LOST0 : Field := ⟨.GLB_EVCNT, 47, 32, .RC, 0⟩
/-- GLB_EVCNT.DROPPED (20_events_and_sediment.md R558). -/
def F.GLB_EVCNT_DROPPED : Field := ⟨.GLB_EVCNT, 31, 16, .RC, 0⟩
/-- GLB_EVCNT.ERR (20_events_and_sediment.md R558). -/
def F.GLB_EVCNT_ERR : Field := ⟨.GLB_EVCNT, 15, 8, .RC, 0⟩
/-- GLB_EVCNT.QERR1 (20_events_and_sediment.md R558). -/
def F.GLB_EVCNT_QERR1 : Field := ⟨.GLB_EVCNT, 3, 3, .RO, 0⟩
/-- GLB_EVCNT.QERR0 (20_events_and_sediment.md R558). -/
def F.GLB_EVCNT_QERR0 : Field := ⟨.GLB_EVCNT, 2, 2, .RO, 0⟩
/-- GLB_EVCNT.ARMED1 (20_events_and_sediment.md R558). -/
def F.GLB_EVCNT_ARMED1 : Field := ⟨.GLB_EVCNT, 1, 1, .RO, 0⟩
/-- GLB_EVCNT.ARMED0 (20_events_and_sediment.md R558). -/
def F.GLB_EVCNT_ARMED0 : Field := ⟨.GLB_EVCNT, 0, 0, .RO, 0⟩

/-- GLB_SEDCTL.FREEZE (20_events_and_sediment.md R558). -/
def F.GLB_SEDCTL_FREEZE : Field := ⟨.GLB_SEDCTL, 63, 63, .WO, 0⟩
/-- GLB_SEDCTL.REARM (20_events_and_sediment.md R558). -/
def F.GLB_SEDCTL_REARM : Field := ⟨.GLB_SEDCTL, 62, 62, .WO, 0⟩
/-- GLB_SEDCTL.CLEAR (20_events_and_sediment.md R558). -/
def F.GLB_SEDCTL_CLEAR : Field := ⟨.GLB_SEDCTL, 61, 61, .WO, 0⟩
/-- GLB_SEDCTL.LEVEL (20_events_and_sediment.md R558). -/
def F.GLB_SEDCTL_LEVEL : Field := ⟨.GLB_SEDCTL, 18, 16, .RW, 1⟩
/-- GLB_SEDCTL.POST (20_events_and_sediment.md R558). -/
def F.GLB_SEDCTL_POST : Field := ⟨.GLB_SEDCTL, 7, 0, .RW, 32⟩

/-- GLB_SEDSTAT.FROZEN (20_events_and_sediment.md R558). -/
def F.GLB_SEDSTAT_FROZEN : Field := ⟨.GLB_SEDSTAT, 63, 63, .RO, 0⟩
/-- GLB_SEDSTAT.POSTING (20_events_and_sediment.md R558). -/
def F.GLB_SEDSTAT_POSTING : Field := ⟨.GLB_SEDSTAT, 62, 62, .RO, 0⟩
/-- GLB_SEDSTAT.FIDX (20_events_and_sediment.md R558). -/
def F.GLB_SEDSTAT_FIDX : Field := ⟨.GLB_SEDSTAT, 59, 48, .RO, 0⟩
/-- GLB_SEDSTAT.FCODE (20_events_and_sediment.md R558). -/
def F.GLB_SEDSTAT_FCODE : Field := ⟨.GLB_SEDSTAT, 47, 32, .RO, 0⟩
/-- GLB_SEDSTAT.WRAPS (20_events_and_sediment.md R558). -/
def F.GLB_SEDSTAT_WRAPS : Field := ⟨.GLB_SEDSTAT, 31, 16, .RO, 0⟩
/-- GLB_SEDSTAT.WIDX (20_events_and_sediment.md R558). -/
def F.GLB_SEDSTAT_WIDX : Field := ⟨.GLB_SEDSTAT, 11, 0, .RO, 0⟩

/-- GLB_SEDCNT.LOGGED (20_events_and_sediment.md R558). -/
def F.GLB_SEDCNT_LOGGED : Field := ⟨.GLB_SEDCNT, 63, 32, .RC, 0⟩
/-- GLB_SEDCNT.MISSED (20_events_and_sediment.md R558). -/
def F.GLB_SEDCNT_MISSED : Field := ⟨.GLB_SEDCNT, 31, 16, .RC, 0⟩

/-- GLB_SEDAGG.START (20_events_and_sediment.md R558). -/
def F.GLB_SEDAGG_START : Field := ⟨.GLB_SEDAGG, 63, 63, .WO, 0⟩
/-- GLB_SEDAGG.FREEZE (20_events_and_sediment.md R558). -/
def F.GLB_SEDAGG_FREEZE : Field := ⟨.GLB_SEDAGG, 62, 62, .RW, 0⟩
/-- GLB_SEDAGG.BASE (20_events_and_sediment.md R558). -/
def F.GLB_SEDAGG_BASE : Field := ⟨.GLB_SEDAGG, 36, 21, .RW, 0⟩

/-- GLB_SEDAGGSTAT.STATE (20_events_and_sediment.md R558). -/
def F.GLB_SEDAGGSTAT_STATE : Field := ⟨.GLB_SEDAGGSTAT, 63, 60, .RO, 0⟩
/-- GLB_SEDAGGSTAT.CUR (20_events_and_sediment.md R558). -/
def F.GLB_SEDAGGSTAT_CUR : Field := ⟨.GLB_SEDAGGSTAT, 55, 52, .RO, 0⟩
/-- GLB_SEDAGGSTAT.INCOMPLETE (20_events_and_sediment.md R558). -/
def F.GLB_SEDAGGSTAT_INCOMPLETE : Field := ⟨.GLB_SEDAGGSTAT, 31, 16, .RO, 0⟩
/-- GLB_SEDAGGSTAT.COMPLETE (20_events_and_sediment.md R558). -/
def F.GLB_SEDAGGSTAT_COMPLETE : Field := ⟨.GLB_SEDAGGSTAT, 15, 0, .RO, 0⟩

/-- The fields of a register, from the highest bits down. -/
def Reg.fields : Reg → List Field
  | .GLB_ID => [F.GLB_ID_DEVICE, F.GLB_ID_STEP, F.GLB_ID_SUBSTEP, F.GLB_ID_MGR_STRAP, F.GLB_ID_INSTANCE]
  | .GLB_UNITS => [F.GLB_UNITS_FPORTS, F.GLB_UNITS_AQD_LANES, F.GLB_UNITS_PWR_DOMAINS, F.GLB_UNITS_BASIN_MIB, F.GLB_UNITS_SLC_CH, F.GLB_UNITS_JETS, F.GLB_UNITS_SPARES, F.GLB_UNITS_RILLS]
  | .ITK_FPSTAT => [F.ITK_FPSTAT_NOTREADY_CNT, F.ITK_FPSTAT_OUTSTANDING, F.ITK_FPSTAT_TAGWAIT, F.ITK_FPSTAT_STATE]
  | .GLB_PINSTAT => [F.GLB_PINSTAT_PPS_IGN, F.GLB_PINSTAT_TIDE_DISC, F.GLB_PINSTAT_REFZ_OK, F.GLB_PINSTAT_REFV_OK, F.GLB_PINSTAT_TRIP_DRV, F.GLB_PINSTAT_BYP, F.GLB_PINSTAT_COMPUTE_RST, F.GLB_PINSTAT_PPS_SEEN, F.GLB_PINSTAT_TIDE_VLD, F.GLB_PINSTAT_REFCLK_LOCK]
  | .GLB_CAPACITY => [F.GLB_CAPACITY_MODE, F.GLB_CAPACITY_MAP_PCS, F.GLB_CAPACITY_FENCED, F.GLB_CAPACITY_CAP]
  | .GLB_RETIRED => [F.GLB_RETIRED_RETIRED]
  | .GLB_MAPCTL => [F.GLB_MAPCTL_REMAP]
  | .GLB_MAPSTAT => [F.GLB_MAPSTAT_FENCE_LOST, F.GLB_MAPSTAT_ERR, F.GLB_MAPSTAT_ERR_IDX, F.GLB_MAPSTAT_BUSY]
  | .GLB_PREG => [F.GLB_PREG_EN, F.GLB_PREG_SIZE, F.GLB_PREG_BASE]
  | .GLB_BCW => [F.GLB_BCW_EN, F.GLB_BCW_SIZE, F.GLB_BCW_BASE]
  | .DBL_RING => [F.DBL_RING_BASE, F.DBL_RING_LOG2N]
  | .DBL_CTL => [F.DBL_CTL_EN, F.DBL_CTL_OWNER, F.DBL_CTL_BLABEL, F.DBL_CTL_STOP, F.DBL_CTL_RESUME]
  | .DBL_PTR => [F.DBL_PTR_HEAD, F.DBL_PTR_TAIL]
  | .DBL_STAT => [F.DBL_STAT_PROGRESS, F.DBL_STAT_FAULT, F.DBL_STAT_IMPRECISE, F.DBL_STAT_STATE]
  | .DBL_FPC => [F.DBL_FPC_PC]
  | .DBL_FADDR => [F.DBL_FADDR_ADDR]
  | .JET_NFLAG => [F.JET_NFLAG_SP3, F.JET_NFLAG_SP2, F.JET_NFLAG_SP1, F.JET_NFLAG_SP0]
  | .JET_STAT => [F.JET_STAT_MAC_OWN, F.JET_STAT_MAC_BUSY, F.JET_STAT_VEC_OWN, F.JET_STAT_VEC_BUSY, F.JET_STAT_HSH_OWN, F.JET_STAT_HSH_BUSY, F.JET_STAT_EXA_OWN, F.JET_STAT_EXA_BUSY, F.JET_STAT_MOV_OWN, F.JET_STAT_MOV_BUSY, F.JET_STAT_ACTIVE]
  | .JET_CTL => [F.JET_CTL_ERESET]
  | .JET_MACCNT => [F.JET_MACCNT_MACK]
  | .SLC_CFG => [F.SLC_CFG_BURST, F.SLC_CFG_PACED, F.SLC_CFG_FULLIE, F.SLC_CFG_HALFIE]
  | .SLC_CTL => [F.SLC_CTL_ERESET, F.SLC_CTL_ABANDON, F.SLC_CTL_CONT, F.SLC_CTL_PAUSE]
  | .SLC_PREQ => [F.SLC_PREQ_REQ]
  | .SLC_STAT => [F.SLC_STAT_POISONED, F.SLC_STAT_STAGEWAIT, F.SLC_STAT_STAGED, F.SLC_STAT_SLOT, F.SLC_STAT_SOLO, F.SLC_STAT_INSTOP, F.SLC_STAT_PCAUSE]
  | .SLC_ELEMS => [F.SLC_ELEMS_ELEMS]
  | .SLC_BYTES => [F.SLC_BYTES_BYTES]
  | .SLC_IPC => [F.SLC_IPC_PC]
  | .SLC_GERR => [F.SLC_GERR_STOPPED, F.SLC_GERR_CODE, F.SLC_GERR_ADDR]
  | .SLC_GSTOP => [F.SLC_GSTOP_STOPS, F.SLC_GSTOP_LATE, F.SLC_GSTOP_STOPMASK]
  | .TXU_CFG => [F.TXU_CFG_VOTEWAIT, F.TXU_CFG_LIFETIME]
  | .TXU_RECBASE => [F.TXU_RECBASE_VALID, F.TXU_RECBASE_BASE]
  | .TXU_OPEN => [F.TXU_OPEN_BUSY]
  | .TXU_PKG => [F.TXU_PKG_STATE]
  | .TXU_CSEQ => [F.TXU_CSEQ_CSEQ]
  | .TXU_CNT => [F.TXU_CNT_MISMATCH, F.TXU_CNT_ABORTS, F.TXU_CNT_COMMITS]
  | .TXU_LAST => [F.TXU_LAST_WORD]
  | .SCH_TMG0 => [F.SCH_TMG0_TRCD, F.SCH_TMG0_TRP, F.SCH_TMG0_TRAS, F.SCH_TMG0_TRC, F.SCH_TMG0_TRRDS, F.SCH_TMG0_TRRDL]
  | .SCH_TMG1 => [F.SCH_TMG1_TFAW, F.SCH_TMG1_TCCDL, F.SCH_TMG1_TRL, F.SCH_TMG1_TWL, F.SCH_TMG1_TWR, F.SCH_TMG1_TRTP, F.SCH_TMG1_TWTRS, F.SCH_TMG1_TXP]
  | .SCH_TMG2 => [F.SCH_TMG2_TWTRL, F.SCH_TMG2_TRFCPB, F.SCH_TMG2_TRFM, F.SCH_TMG2_TREFI, F.SCH_TMG2_TXS]
  | .SCH_SCHED => [F.SCH_SCHED_WRLO, F.SCH_SCHED_WRHI, F.SCH_SCHED_QHI, F.SCH_SCHED_AGE]
  | .SCH_CLSRANK => [F.SCH_CLSRANK_RANK]
  | .SCH_REF => [F.SCH_REF_DEFERMAX, F.SCH_REF_PHASE, F.SCH_REF_RFMD]
  | .SCH_STAT => [F.SCH_STAT_ERR, F.SCH_STAT_DEFER, F.SCH_STAT_HOT, F.SCH_STAT_TEMPFAIL, F.SCH_STAT_STEMP]
  | .SCH_DELIV => [F.SCH_DELIV_DELIV]
  | .PC_CTL => [F.PC_CTL_CRESET]
  | .PC_STAT => [F.PC_STAT_OPENROWS, F.PC_STAT_QLEVEL, F.PC_STAT_BGLEVEL, F.PC_STAT_DRAIN, F.PC_STAT_SPARE, F.PC_STAT_STATE]
  | .PC_REFSTAT => [F.PC_REFSTAT_FORCED, F.PC_REFSTAT_RFM, F.PC_REFSTAT_MAXOWED]
  | .SP_STAT => [F.SP_STAT_PC, F.SP_STAT_USE]
  | .ITK_CLS => [F.ITK_CLS_OUTMAX, F.ITK_CLS_DEADF, F.ITK_CLS_PIN, F.ITK_CLS_ALLOC, F.ITK_CLS_KIND]
  | .ITK_SRCREQ => [F.ITK_SRCREQ_FONT, F.ITK_SRCREQ_AQW, F.ITK_SRCREQ_AQE, F.ITK_SRCREQ_JET, F.ITK_SRCREQ_SLC]
  | .ITK_GSTAT => [F.ITK_GSTAT_SUM, F.ITK_GSTAT_LIMIT]
  | .ITK_ERR => [F.ITK_ERR_ERR, F.ITK_ERR_IDX, F.ITK_ERR_SCALED]
  | .ITK_CLSSTAT => [F.ITK_CLSSTAT_DEADREADS, F.ITK_CLSSTAT_OUTSTANDING]
  | .ITK_REQ => [F.ITK_REQ_WT, F.ITK_REQ_BURST, F.ITK_REQ_MINBW]
  | .ITK_EFF => [F.ITK_EFF_EFF]
  | .BAS_CFG => [F.BAS_CFG_GUARD, F.BAS_CFG_FLOOR, F.BAS_CFG_DEADCLR, F.BAS_CFG_PINCAP]
  | .BAS_STAT => [F.BAS_STAT_ERR, F.BAS_STAT_UHIT, F.BAS_STAT_REFUSING, F.BAS_STAT_BGATED, F.BAS_STAT_DEADENT, F.BAS_STAT_PINNED]
  | .BAS_LOOK => [F.BAS_LOOK_LOOKUPS, F.BAS_LOOK_HITS]
  | .BAS_CLSPIN => [F.BAS_CLSPIN_PINNED]
  | .RAS_CFG => [F.RAS_CFG_CETHR, F.RAS_CFG_AUTORET, F.RAS_CFG_CMODE]
  | .RAS_SCRUB => [F.RAS_SCRUB_PERIOD]
  | .RAS_SCRUBSTAT => [F.RAS_SCRUBSTAT_PASSES, F.RAS_SCRUBSTAT_LAG, F.RAS_SCRUBSTAT_BEHIND, F.RAS_SCRUBSTAT_MINPAGE]
  | .RAS_STAT => [F.RAS_STAT_ERR, F.RAS_STAT_FILLS, F.RAS_STAT_REMAPS, F.RAS_STAT_PENDING, F.RAS_STAT_CWBDROP]
  | .RAS_STRILL => [F.RAS_STRILL_FAIL]
  | .RAS_STSPARE => [F.RAS_STSPARE_DONE, F.RAS_STSPARE_SRAMFAIL, F.RAS_STSPARE_WINFAIL, F.RAS_STSPARE_SPFAIL]
  | .RAS_ERRPTR => [F.RAS_ERRPTR_LOST, F.RAS_ERRPTR_COUNT]
  | .RAS_REMAP => [F.RAS_REMAP_VALID, F.RAS_REMAP_POISON, F.RAS_REMAP_PC, F.RAS_REMAP_PAGE, F.RAS_REMAP_SLOT]
  | .RAS_PEND => [F.RAS_PEND_VALID, F.RAS_PEND_TRIES, F.RAS_PEND_PC, F.RAS_PEND_PAGE]
  | .RAS_PCCNT => [F.RAS_PCCNT_CE, F.RAS_PCCNT_UE, F.RAS_PCCNT_HARD, F.RAS_PCCNT_POISONRD, F.RAS_PCCNT_RMWLOST]
  | .AQD_CTL => [F.AQD_CTL_DISABLE, F.AQD_CTL_RETRAIN, F.AQD_CTL_LANERETRY]
  | .AQD_STAT => [F.AQD_STAT_PARTNER, F.AQD_STAT_SELF, F.AQD_STAT_LUP, F.AQD_STAT_LEXCL, F.AQD_STAT_WIDTH, F.AQD_STAT_STATE]
  | .AQD_LANE => [F.AQD_LANE_BITERR, F.AQD_LANE_CAUSE, F.AQD_LANE_DETECT, F.AQD_LANE_EXCL]
  | .AQD_CNT => [F.AQD_CNT_REPLAY, F.AQD_CNT_UNCORR, F.AQD_CNT_CRCERR, F.AQD_CNT_DROP]
  | .AQD_RING => [F.AQD_RING_REQUAL, F.AQD_RING_NODE, F.AQD_RING_SIZE, F.AQD_RING_ERR, F.AQD_RING_RSTATE, F.AQD_RING_DUP, F.AQD_RING_QUAL]
  | .AQD_RTO => [F.AQD_RTO_LATE, F.AQD_RTO_RTO]
  | .AQD_ROUTE => [F.AQD_ROUTE_HOPS, F.AQD_ROUTE_DIR]
  | .WEI_Q => [F.WEI_Q_WT, F.WEI_Q_QDEPTH, F.WEI_Q_BURST, F.WEI_Q_RATE]
  | .WEI_CLSQ => [F.WEI_CLSQ_QUEUE]
  | .WEI_GATE => [F.WEI_GATE_OPEN]
  | .WEI_GUARD => [F.WEI_GUARD_GMARGIN]
  | .WEI_STAT => [F.WEI_STAT_ERR, F.WEI_STAT_IDX, F.WEI_STAT_TFULL, F.WEI_STAT_LATECLOSE]
  | .WEI_BKT => [F.WEI_BKT_DEFICIT, F.WEI_BKT_LEVEL]
  | .WEI_QSTAT => [F.WEI_QSTAT_FRAMES, F.WEI_QSTAT_QLEN]
  | .WEI_POL => [F.WEI_POL_EN, F.WEI_POL_BURST, F.WEI_POL_RATE]
  | .WEI_POLDROP => [F.WEI_POLDROP_DROPS]
  | .TIM_WALL => [F.TIM_WALL_NS]
  | .TIM_PPSSEC => [F.TIM_PPSSEC_ARM, F.TIM_PPSSEC_SEC]
  | .TIM_WSTAT => [F.TIM_WSTAT_WSTATE, F.TIM_WSTAT_YF, F.TIM_WSTAT_LASTERR]
  | .TIM_PPSCNT => [F.TIM_PPSCNT_OUTLIER, F.TIM_PPSCNT_STEPS, F.TIM_PPSCNT_EDGES]
  | .TIM_TIDE => [F.TIM_TIDE_TSTATE, F.TIM_TIDE_RATEV, F.TIM_TIDE_TIDE]
  | .TIM_TRATE => [F.TIM_TRATE_RATE]
  | .TIM_TCTL => [F.TIM_TCTL_STALL, F.TIM_TCTL_REBASE, F.TIM_TCTL_HOLDMODE]
  | .TIM_TCNT => [F.TIM_TCNT_ERR, F.TIM_TCNT_IDX, F.TIM_TCNT_BACKWARD, F.TIM_TCNT_HOLDOVERS, F.TIM_TCNT_LASTREAL]
  | .TIM_EVT0 => [F.TIM_EVT0_EN, F.TIM_EVT0_PER, F.TIM_EVT0_ACTION, F.TIM_EVT0_N, F.TIM_EVT0_RES, F.TIM_EVT0_POINT]
  | .TIM_EVT1 => [F.TIM_EVT1_FIRED, F.TIM_EVT1_EXPIRED, F.TIM_EVT1_ARG]
  | .PWR_DCTL => [F.PWR_DCTL_N2, F.PWR_DCTL_N1, F.PWR_DCTL_METHOD, F.PWR_DCTL_ON]
  | .PWR_DSTAT => [F.PWR_DSTAT_WAKES, F.PWR_DSTAT_LEVEL, F.PWR_DSTAT_SLOW, F.PWR_DSTAT_STATE]
  | .PWR_TRI => [F.PWR_TRI_CUR, F.PWR_TRI_CAPLVL, F.PWR_TRI_GANGED, F.PWR_TRI_FAILED, F.PWR_TRI_VOUT, F.PWR_TRI_SETMV]
  | .PWR_REG => [F.PWR_REG_REENABLE, F.PWR_REG_RTEMP, F.PWR_REG_FAILED, F.PWR_REG_PHFAIL]
  | .PWR_CAP => [F.PWR_CAP_CAP]
  | .PWR_STAT => [F.PWR_STAT_ERR, F.PWR_STAT_IDX, F.PWR_STAT_LADDER, F.PWR_STAT_PAVG]
  | .THM_CFG => [F.THM_CFG_RLIM, F.THM_CFG_HYST, F.THM_CFG_SHUT, F.THM_CFG_THROT, F.THM_CFG_WARN]
  | .THM_STAT => [F.THM_STAT_ERR, F.THM_STAT_EXCL, F.THM_STAT_MAXT, F.THM_STAT_RILLLVL, F.THM_STAT_FAST, F.THM_STAT_STACKTHR, F.THM_STAT_JETLVL]
  | .THM_TRIP => [F.THM_TRIP_RESTART, F.THM_TRIP_HELD, F.THM_TRIP_SENSOR, F.THM_TRIP_PEAK, F.THM_TRIP_TRIPS, F.THM_TRIP_LASTSEC]
  | .THM_SENS => [F.THM_SENS_EXCL, F.THM_SENS_RAW, F.THM_SENS_TEMP]
  | .CAL_ZQ => [F.CAL_ZQ_VERIFIED, F.CAL_ZQ_ODT, F.CAL_ZQ_DRVN, F.CAL_ZQ_DRVP]
  | .CAL_VREF => [F.CAL_VREF_VERIFIED, F.CAL_VREF_V3, F.CAL_VREF_V2, F.CAL_VREF_V1, F.CAL_VREF_V0]
  | .CAL_RDLY => [F.CAL_RDLY_VALID, F.CAL_RDLY_VERIFIED, F.CAL_RDLY_L3, F.CAL_RDLY_L2, F.CAL_RDLY_L1, F.CAL_RDLY_L0]
  | .CAL_WDLY => [F.CAL_WDLY_VALID, F.CAL_WDLY_VERIFIED, F.CAL_WDLY_CA, F.CAL_WDLY_L3, F.CAL_WDLY_L2, F.CAL_WDLY_L1, F.CAL_WDLY_L0]
  | .CAL_LSTAT => [F.CAL_LSTAT_MINEYE, F.CAL_LSTAT_LASTT, F.CAL_LSTAT_BAD, F.CAL_LSTAT_ACT]
  | .CAL_CFG => [F.CAL_CFG_WINMAX, F.CAL_CFG_WINONLY, F.CAL_CFG_ZQPER, F.CAL_CFG_DRVDIV, F.CAL_CFG_ODTDIV, F.CAL_CFG_VRF, F.CAL_CFG_EYEMIN, F.CAL_CFG_DRIFTTHR]
  | .CAL_FSP => [F.CAL_FSP_REQ, F.CAL_FSP_ACTIVE, F.CAL_FSP_RATE1, F.CAL_FSP_RATE0]
  | .CAL_STAT => [F.CAL_STAT_ERR, F.CAL_STAT_ACTIVITIES, F.CAL_STAT_SWITCH, F.CAL_STAT_HOLD]
  | .CAL_CNT => [F.CAL_CNT_DRIFTFIX, F.CAL_CNT_DISAGREE, F.CAL_CNT_ABANDON, F.CAL_CNT_SKIP]
  | .CAL_CTL => [F.CAL_CTL_RECAL, F.CAL_CTL_RETRAIN, F.CAL_CTL_PC]
  | .GLB_RESET => [F.GLB_RESET_WARM]
  | .GLB_BOOTCFG => [F.GLB_BOOTCFG_COLDTEST]
  | .GLB_BOOTSTAT => [F.GLB_BOOTSTAT_ERR, F.GLB_BOOTSTAT_OPENPCS, F.GLB_BOOTSTAT_TESTED, F.GLB_BOOTSTAT_TESTSEC, F.GLB_BOOTSTAT_CAUSE, F.GLB_BOOTSTAT_PHASE]
  | .GLB_FUSE => [F.GLB_FUSE_TV, F.GLB_FUSE_TPC, F.GLB_FUSE_RV1, F.GLB_FUSE_RV0, F.GLB_FUSE_RPC1, F.GLB_FUSE_RPC0]
  | .GLB_PSTATE => [F.GLB_PSTATE_IDLENS, F.GLB_PSTATE_WAKE, F.GLB_PSTATE_CUR, F.GLB_PSTATE_REQ]
  | .GLB_TIER => [F.GLB_TIER_APPLY, F.GLB_TIER_SWREQ, F.GLB_TIER_NBASE, F.GLB_TIER_NEXT, F.GLB_TIER_BASEONLY, F.GLB_TIER_CUR]
  | .GLB_TIERSTAT => [F.GLB_TIERSTAT_REFUSED, F.GLB_TIERSTAT_LASTIDX, F.GLB_TIERSTAT_LASTTIER, F.GLB_TIERSTAT_LASTERR, F.GLB_TIERSTAT_OVL_OK, F.GLB_TIERSTAT_BASE_OK, F.GLB_TIERSTAT_PEND, F.GLB_TIERSTAT_BUSY]
  | .CAS_STAT => [F.CAS_STAT_MEMBERS, F.CAS_STAT_MGR, F.CAS_STAT_ROLE, F.CAS_STAT_LOOPOK, F.CAS_STAT_RINGS]
  | .CAS_BUDGET => [F.CAS_BUDGET_BUDGET]
  | .CAS_CNT => [F.CAS_CNT_CRCERR, F.CAS_CNT_OVFDROP, F.CAS_CNT_UNDELIV]
  | .FNT_FWCTL => [F.FNT_FWCTL_LOAD, F.FNT_FWCTL_FWERR, F.FNT_FWCTL_RUNNING, F.FNT_FWCTL_BASE]
  | .FNT_PLCTL => [F.FNT_PLCTL_START, F.FNT_PLCTL_CANCEL, F.FNT_PLCTL_AUTOGO, F.FNT_PLCTL_ARMWAIT, F.FNT_PLCTL_ROLLWAIT]
  | .FNT_PLSTAT => [F.FNT_PLSTAT_PSTATE, F.FNT_PLSTAT_ROUND, F.FNT_PLSTAT_ERR, F.FNT_PLSTAT_IMAGE, F.FNT_PLSTAT_FAILED, F.FNT_PLSTAT_READY]
  | .FNT_SVCBASE => [F.FNT_SVCBASE_VALID, F.FNT_SVCBASE_CFGERR, F.FNT_SVCBASE_BASE]
  | .GLB_EVQ => [F.GLB_EVQ_EN, F.GLB_EVQ_QLEVEL, F.GLB_EVQ_VECTOR, F.GLB_EVQ_BASE, F.GLB_EVQ_LOG2N]
  | .GLB_EVQPTR => [F.GLB_EVQPTR_PROD, F.GLB_EVQPTR_CONS]
  | .GLB_EVCNT => [F.GLB_EVCNT_LOST1, F.GLB_EVCNT_LOST0, F.GLB_EVCNT_DROPPED, F.GLB_EVCNT_ERR, F.GLB_EVCNT_QERR1, F.GLB_EVCNT_QERR0, F.GLB_EVCNT_ARMED1, F.GLB_EVCNT_ARMED0]
  | .GLB_SEDCTL => [F.GLB_SEDCTL_FREEZE, F.GLB_SEDCTL_REARM, F.GLB_SEDCTL_CLEAR, F.GLB_SEDCTL_LEVEL, F.GLB_SEDCTL_POST]
  | .GLB_SEDSTAT => [F.GLB_SEDSTAT_FROZEN, F.GLB_SEDSTAT_POSTING, F.GLB_SEDSTAT_FIDX, F.GLB_SEDSTAT_FCODE, F.GLB_SEDSTAT_WRAPS, F.GLB_SEDSTAT_WIDX]
  | .GLB_SEDCNT => [F.GLB_SEDCNT_LOGGED, F.GLB_SEDCNT_MISSED]
  | .GLB_SEDAGG => [F.GLB_SEDAGG_START, F.GLB_SEDAGG_FREEZE, F.GLB_SEDAGG_BASE]
  | .GLB_SEDAGGSTAT => [F.GLB_SEDAGGSTAT_STATE, F.GLB_SEDAGGSTAT_CUR, F.GLB_SEDAGGSTAT_INCOMPLETE, F.GLB_SEDAGGSTAT_COMPLETE]

/-- The reset domain of a register. -/
def Reg.domain : Reg → Domain
  | .GLB_ID => .COLD
  | .GLB_UNITS => .COLD
  | .ITK_FPSTAT => .FPORT
  | .GLB_PINSTAT => .WARM
  | .GLB_CAPACITY => .WARM
  | .GLB_RETIRED => .AON
  | .GLB_MAPCTL => .WARM
  | .GLB_MAPSTAT => .WARM
  | .GLB_PREG => .WARM
  | .GLB_BCW => .WARM
  | .DBL_RING => .ENG
  | .DBL_CTL => .ENG
  | .DBL_PTR => .ENG
  | .DBL_STAT => .ENG
  | .DBL_FPC => .ENG
  | .DBL_FADDR => .ENG
  | .JET_NFLAG => .ENG
  | .JET_STAT => .ENG
  | .JET_CTL => .WARM
  | .JET_MACCNT => .ENG
  | .SLC_CFG => .WARM
  | .SLC_CTL => .ENG
  | .SLC_PREQ => .WARM
  | .SLC_STAT => .ENG
  | .SLC_ELEMS => .ENG
  | .SLC_BYTES => .ENG
  | .SLC_IPC => .ENG
  | .SLC_GERR => .WARM
  | .SLC_GSTOP => .WARM
  | .TXU_CFG => .WARM
  | .TXU_RECBASE => .WARM
  | .TXU_OPEN => .WARM
  | .TXU_PKG => .WARM
  | .TXU_CSEQ => .COLD
  | .TXU_CNT => .WARM
  | .TXU_LAST => .WARM
  | .SCH_TMG0 => .WARM
  | .SCH_TMG1 => .WARM
  | .SCH_TMG2 => .WARM
  | .SCH_SCHED => .WARM
  | .SCH_CLSRANK => .WARM
  | .SCH_REF => .WARM
  | .SCH_STAT => .WARM
  | .SCH_DELIV => .WARM
  | .PC_CTL => .CHAN
  | .PC_STAT => .CHAN
  | .PC_REFSTAT => .CHAN
  | .SP_STAT => .WARM
  | .ITK_CLS => .WARM
  | .ITK_SRCREQ => .WARM
  | .ITK_GSTAT => .WARM
  | .ITK_ERR => .WARM
  | .ITK_CLSSTAT => .WARM
  | .ITK_REQ => .WARM
  | .ITK_EFF => .WARM
  | .BAS_CFG => .WARM
  | .BAS_STAT => .WARM
  | .BAS_LOOK => .WARM
  | .BAS_CLSPIN => .WARM
  | .RAS_CFG => .WARM
  | .RAS_SCRUB => .WARM
  | .RAS_SCRUBSTAT => .WARM
  | .RAS_STAT => .WARM
  | .RAS_STRILL => .WARM
  | .RAS_STSPARE => .WARM
  | .RAS_ERRPTR => .WARM
  | .RAS_REMAP => .AON
  | .RAS_PEND => .AON
  | .RAS_PCCNT => .WARM
  | .AQD_CTL => .WARM
  | .AQD_STAT => .WARM
  | .AQD_LANE => .WARM
  | .AQD_CNT => .WARM
  | .AQD_RING => .WARM
  | .AQD_RTO => .WARM
  | .AQD_ROUTE => .WARM
  | .WEI_Q => .WARM
  | .WEI_CLSQ => .WARM
  | .WEI_GATE => .WARM
  | .WEI_GUARD => .WARM
  | .WEI_STAT => .WARM
  | .WEI_BKT => .WARM
  | .WEI_QSTAT => .WARM
  | .WEI_POL => .WARM
  | .WEI_POLDROP => .WARM
  | .TIM_WALL => .COLD
  | .TIM_PPSSEC => .COLD
  | .TIM_WSTAT => .COLD
  | .TIM_PPSCNT => .COLD
  | .TIM_TIDE => .WARM
  | .TIM_TRATE => .WARM
  | .TIM_TCTL => .WARM
  | .TIM_TCNT => .WARM
  | .TIM_EVT0 => .WARM
  | .TIM_EVT1 => .WARM
  | .PWR_DCTL => .WARM
  | .PWR_DSTAT => .WARM
  | .PWR_TRI => .WARM
  | .PWR_REG => .COLD
  | .PWR_CAP => .WARM
  | .PWR_STAT => .WARM
  | .THM_CFG => .WARM
  | .THM_STAT => .WARM
  | .THM_TRIP => .COLD
  | .THM_SENS => .WARM
  | .CAL_ZQ => .AON
  | .CAL_VREF => .AON
  | .CAL_RDLY => .AON
  | .CAL_WDLY => .AON
  | .CAL_LSTAT => .AON
  | .CAL_CFG => .WARM
  | .CAL_FSP => .WARM
  | .CAL_STAT => .WARM
  | .CAL_CNT => .WARM
  | .CAL_CTL => .WARM
  | .GLB_RESET => .WARM
  | .GLB_BOOTCFG => .AON
  | .GLB_BOOTSTAT => .WARM
  | .GLB_FUSE => .COLD
  | .GLB_PSTATE => .WARM
  | .GLB_TIER => .AON
  | .GLB_TIERSTAT => .WARM
  | .CAS_STAT => .COLD
  | .CAS_BUDGET => .WARM
  | .CAS_CNT => .WARM
  | .FNT_FWCTL => .WARM
  | .FNT_PLCTL => .WARM
  | .FNT_PLSTAT => .WARM
  | .FNT_SVCBASE => .WARM
  | .GLB_EVQ => .WARM
  | .GLB_EVQPTR => .WARM
  | .GLB_EVCNT => .WARM
  | .GLB_SEDCTL => .AON
  | .GLB_SEDSTAT => .AON
  | .GLB_SEDCNT => .AON
  | .GLB_SEDAGG => .WARM
  | .GLB_SEDAGGSTAT => .WARM

/-- Where a register lies in the window. -/
def Reg.place : Reg → Place
  | .GLB_ID => ⟨0x0, 0x0, 1, 0x0, 1⟩
  | .GLB_UNITS => ⟨0x10, 0x0, 1, 0x0, 1⟩
  | .ITK_FPSTAT => ⟨0x80800, 0x0, 8, 0x8, 8⟩
  | .GLB_PINSTAT => ⟨0x30, 0x0, 1, 0x0, 1⟩
  | .GLB_CAPACITY => ⟨0x40, 0x0, 1, 0x0, 1⟩
  | .GLB_RETIRED => ⟨0x48, 0x0, 1, 0x0, 1⟩
  | .GLB_MAPCTL => ⟨0x50, 0x0, 1, 0x0, 1⟩
  | .GLB_MAPSTAT => ⟨0x58, 0x0, 1, 0x0, 1⟩
  | .GLB_PREG => ⟨0x100, 0x0, 4, 0x8, 4⟩
  | .GLB_BCW => ⟨0x140, 0x0, 4, 0x8, 4⟩
  | .DBL_RING => ⟨0xf00000, 0x1000, 1, 0x0, 161⟩
  | .DBL_CTL => ⟨0xf00008, 0x1000, 1, 0x0, 161⟩
  | .DBL_PTR => ⟨0xf00010, 0x1000, 1, 0x0, 161⟩
  | .DBL_STAT => ⟨0xf00018, 0x1000, 1, 0x0, 161⟩
  | .DBL_FPC => ⟨0xf00020, 0x1000, 1, 0x0, 161⟩
  | .DBL_FADDR => ⟨0xf00028, 0x1000, 1, 0x0, 161⟩
  | .JET_NFLAG => ⟨0x300080, 0x4000, 1, 0x0, 32⟩
  | .JET_STAT => ⟨0x300000, 0x4000, 1, 0x0, 32⟩
  | .JET_CTL => ⟨0x300008, 0x4000, 1, 0x0, 32⟩
  | .JET_MACCNT => ⟨0x300010, 0x4000, 1, 0x0, 32⟩
  | .SLC_CFG => ⟨0x200000, 0x1000, 1, 0x0, 32⟩
  | .SLC_CTL => ⟨0x200008, 0x1000, 1, 0x0, 32⟩
  | .SLC_PREQ => ⟨0x200010, 0x1000, 1, 0x0, 32⟩
  | .SLC_STAT => ⟨0x200018, 0x1000, 1, 0x0, 32⟩
  | .SLC_ELEMS => ⟨0x200020, 0x1000, 1, 0x0, 32⟩
  | .SLC_BYTES => ⟨0x200028, 0x1000, 1, 0x0, 32⟩
  | .SLC_IPC => ⟨0x200030, 0x1000, 1, 0x0, 32⟩
  | .SLC_GERR => ⟨0x200f00, 0x1000, 1, 0x0, 32⟩
  | .SLC_GSTOP => ⟨0x200f08, 0x1000, 1, 0x0, 32⟩
  | .TXU_CFG => ⟨0x400000, 0x0, 1, 0x0, 1⟩
  | .TXU_RECBASE => ⟨0x400008, 0x0, 1, 0x0, 1⟩
  | .TXU_OPEN => ⟨0x400010, 0x0, 1, 0x0, 1⟩
  | .TXU_PKG => ⟨0x400018, 0x0, 1, 0x0, 1⟩
  | .TXU_CSEQ => ⟨0x400020, 0x0, 1, 0x0, 1⟩
  | .TXU_CNT => ⟨0x400028, 0x0, 1, 0x0, 1⟩
  | .TXU_LAST => ⟨0x400030, 0x0, 1, 0x0, 1⟩
  | .SCH_TMG0 => ⟨0xa0000, 0x0, 2, 0x20, 2⟩
  | .SCH_TMG1 => ⟨0xa0008, 0x0, 2, 0x20, 2⟩
  | .SCH_TMG2 => ⟨0xa0010, 0x0, 2, 0x20, 2⟩
  | .SCH_SCHED => ⟨0xa0040, 0x0, 1, 0x0, 1⟩
  | .SCH_CLSRANK => ⟨0xa0048, 0x0, 1, 0x0, 1⟩
  | .SCH_REF => ⟨0xa0050, 0x0, 1, 0x0, 1⟩
  | .SCH_STAT => ⟨0xa0058, 0x0, 1, 0x0, 1⟩
  | .SCH_DELIV => ⟨0xa0060, 0x0, 1, 0x0, 1⟩
  | .PC_CTL => ⟨0x100000, 0x1000, 1, 0x0, 64⟩
  | .PC_STAT => ⟨0x100008, 0x1000, 1, 0x0, 64⟩
  | .PC_REFSTAT => ⟨0x100010, 0x1000, 1, 0x0, 64⟩
  | .SP_STAT => ⟨0x140000, 0x1000, 1, 0x0, 8⟩
  | .ITK_CLS => ⟨0x80000, 0x0, 16, 0x8, 16⟩
  | .ITK_SRCREQ => ⟨0x80100, 0x0, 1, 0x0, 1⟩
  | .ITK_GSTAT => ⟨0x80108, 0x0, 1, 0x0, 1⟩
  | .ITK_ERR => ⟨0x80110, 0x0, 1, 0x0, 1⟩
  | .ITK_CLSSTAT => ⟨0x80200, 0x0, 16, 0x8, 16⟩
  | .ITK_REQ => ⟨0x81000, 0x0, 64, 0x8, 64⟩
  | .ITK_EFF => ⟨0x81400, 0x0, 64, 0x8, 64⟩
  | .BAS_CFG => ⟨0x600000, 0x0, 1, 0x0, 1⟩
  | .BAS_STAT => ⟨0x600008, 0x0, 1, 0x0, 1⟩
  | .BAS_LOOK => ⟨0x600100, 0x0, 16, 0x8, 16⟩
  | .BAS_CLSPIN => ⟨0x600200, 0x0, 16, 0x8, 16⟩
  | .RAS_CFG => ⟨0x480000, 0x0, 1, 0x0, 1⟩
  | .RAS_SCRUB => ⟨0x480008, 0x0, 1, 0x0, 1⟩
  | .RAS_SCRUBSTAT => ⟨0x480010, 0x0, 1, 0x0, 1⟩
  | .RAS_STAT => ⟨0x480018, 0x0, 1, 0x0, 1⟩
  | .RAS_STRILL => ⟨0x480020, 0x0, 1, 0x0, 1⟩
  | .RAS_STSPARE => ⟨0x480028, 0x0, 1, 0x0, 1⟩
  | .RAS_ERRPTR => ⟨0x480030, 0x0, 1, 0x0, 1⟩
  | .RAS_REMAP => ⟨0x480100, 0x0, 32, 0x8, 32⟩
  | .RAS_PEND => ⟨0x480200, 0x0, 16, 0x8, 16⟩
  | .RAS_PCCNT => ⟨0x481000, 0x0, 64, 0x8, 64⟩
  | .AQD_CTL => ⟨0x500000, 0x8000, 1, 0x0, 2⟩
  | .AQD_STAT => ⟨0x500008, 0x8000, 1, 0x0, 2⟩
  | .AQD_LANE => ⟨0x500010, 0x8000, 4, 0x8, 8⟩
  | .AQD_CNT => ⟨0x500030, 0x8000, 1, 0x0, 2⟩
  | .AQD_RING => ⟨0x500100, 0x0, 1, 0x0, 1⟩
  | .AQD_RTO => ⟨0x500108, 0x0, 1, 0x0, 1⟩
  | .AQD_ROUTE => ⟨0x500200, 0x0, 64, 0x8, 64⟩
  | .WEI_Q => ⟨0x580000, 0x8000, 8, 0x8, 16⟩
  | .WEI_CLSQ => ⟨0x580040, 0x8000, 1, 0x0, 2⟩
  | .WEI_GATE => ⟨0x580048, 0x8000, 1, 0x0, 2⟩
  | .WEI_GUARD => ⟨0x580050, 0x8000, 1, 0x0, 2⟩
  | .WEI_STAT => ⟨0x580058, 0x8000, 1, 0x0, 2⟩
  | .WEI_BKT => ⟨0x580080, 0x8000, 8, 0x8, 16⟩
  | .WEI_QSTAT => ⟨0x5800c0, 0x8000, 8, 0x8, 16⟩
  | .WEI_POL => ⟨0x580100, 0x8000, 16, 0x8, 32⟩
  | .WEI_POLDROP => ⟨0x580180, 0x8000, 16, 0x8, 32⟩
  | .TIM_WALL => ⟨0x20000, 0x0, 1, 0x0, 1⟩
  | .TIM_PPSSEC => ⟨0x20008, 0x0, 1, 0x0, 1⟩
  | .TIM_WSTAT => ⟨0x20010, 0x0, 1, 0x0, 1⟩
  | .TIM_PPSCNT => ⟨0x20018, 0x0, 1, 0x0, 1⟩
  | .TIM_TIDE => ⟨0x20100, 0x0, 1, 0x0, 1⟩
  | .TIM_TRATE => ⟨0x20108, 0x0, 1, 0x0, 1⟩
  | .TIM_TCTL => ⟨0x20110, 0x0, 1, 0x0, 1⟩
  | .TIM_TCNT => ⟨0x20118, 0x0, 1, 0x0, 1⟩
  | .TIM_EVT0 => ⟨0x21000, 0x0, 256, 0x10, 256⟩
  | .TIM_EVT1 => ⟨0x21008, 0x0, 256, 0x10, 256⟩
  | .PWR_DCTL => ⟨0x40000, 0x0, 66, 0x8, 66⟩
  | .PWR_DSTAT => ⟨0x40400, 0x0, 66, 0x8, 66⟩
  | .PWR_TRI => ⟨0x40800, 0x0, 8, 0x8, 8⟩
  | .PWR_REG => ⟨0x40900, 0x0, 24, 0x8, 24⟩
  | .PWR_CAP => ⟨0x40a00, 0x0, 1, 0x0, 1⟩
  | .PWR_STAT => ⟨0x40a08, 0x0, 1, 0x0, 1⟩
  | .THM_CFG => ⟨0x50000, 0x0, 1, 0x0, 1⟩
  | .THM_STAT => ⟨0x50008, 0x0, 1, 0x0, 1⟩
  | .THM_TRIP => ⟨0x50010, 0x0, 1, 0x0, 1⟩
  | .THM_SENS => ⟨0x50100, 0x0, 16, 0x8, 16⟩
  | .CAL_ZQ => ⟨0x61000, 0x40, 1, 0x0, 128⟩
  | .CAL_VREF => ⟨0x61008, 0x40, 1, 0x0, 128⟩
  | .CAL_RDLY => ⟨0x61010, 0x40, 2, 0x10, 256⟩
  | .CAL_WDLY => ⟨0x61018, 0x40, 2, 0x10, 256⟩
  | .CAL_LSTAT => ⟨0x61030, 0x40, 1, 0x0, 128⟩
  | .CAL_CFG => ⟨0x60000, 0x0, 1, 0x0, 1⟩
  | .CAL_FSP => ⟨0x60008, 0x0, 1, 0x0, 1⟩
  | .CAL_STAT => ⟨0x60010, 0x0, 1, 0x0, 1⟩
  | .CAL_CNT => ⟨0x60018, 0x0, 1, 0x0, 1⟩
  | .CAL_CTL => ⟨0x60020, 0x0, 1, 0x0, 1⟩
  | .GLB_RESET => ⟨0x200, 0x0, 1, 0x0, 1⟩
  | .GLB_BOOTCFG => ⟨0x208, 0x0, 1, 0x0, 1⟩
  | .GLB_BOOTSTAT => ⟨0x210, 0x0, 1, 0x0, 1⟩
  | .GLB_FUSE => ⟨0x218, 0x0, 1, 0x0, 1⟩
  | .GLB_PSTATE => ⟨0x220, 0x0, 1, 0x0, 1⟩
  | .GLB_TIER => ⟨0x228, 0x0, 1, 0x0, 1⟩
  | .GLB_TIERSTAT => ⟨0x230, 0x0, 1, 0x0, 1⟩
  | .CAS_STAT => ⟨0x10000, 0x0, 1, 0x0, 1⟩
  | .CAS_BUDGET => ⟨0x10008, 0x0, 1, 0x0, 1⟩
  | .CAS_CNT => ⟨0x10010, 0x0, 1, 0x0, 1⟩
  | .FNT_FWCTL => ⟨0x900000, 0x0, 1, 0x0, 1⟩
  | .FNT_PLCTL => ⟨0x900010, 0x0, 1, 0x0, 1⟩
  | .FNT_PLSTAT => ⟨0x900018, 0x0, 1, 0x0, 1⟩
  | .FNT_SVCBASE => ⟨0x900020, 0x0, 1, 0x0, 1⟩
  | .GLB_EVQ => ⟨0x300, 0x0, 2, 0x8, 2⟩
  | .GLB_EVQPTR => ⟨0x310, 0x0, 2, 0x8, 2⟩
  | .GLB_EVCNT => ⟨0x320, 0x0, 1, 0x0, 1⟩
  | .GLB_SEDCTL => ⟨0x340, 0x0, 1, 0x0, 1⟩
  | .GLB_SEDSTAT => ⟨0x348, 0x0, 1, 0x0, 1⟩
  | .GLB_SEDCNT => ⟨0x350, 0x0, 1, 0x0, 1⟩
  | .GLB_SEDAGG => ⟨0x358, 0x0, 1, 0x0, 1⟩
  | .GLB_SEDAGGSTAT => ⟨0x360, 0x0, 1, 0x0, 1⟩

/-- Every register. -/
def Reg.all : List Reg := [
  .GLB_ID, .GLB_UNITS, .ITK_FPSTAT, .GLB_PINSTAT, .GLB_CAPACITY, .GLB_RETIRED, .GLB_MAPCTL, .GLB_MAPSTAT,
  .GLB_PREG, .GLB_BCW, .DBL_RING, .DBL_CTL, .DBL_PTR, .DBL_STAT, .DBL_FPC, .DBL_FADDR,
  .JET_NFLAG, .JET_STAT, .JET_CTL, .JET_MACCNT, .SLC_CFG, .SLC_CTL, .SLC_PREQ, .SLC_STAT,
  .SLC_ELEMS, .SLC_BYTES, .SLC_IPC, .SLC_GERR, .SLC_GSTOP, .TXU_CFG, .TXU_RECBASE, .TXU_OPEN,
  .TXU_PKG, .TXU_CSEQ, .TXU_CNT, .TXU_LAST, .SCH_TMG0, .SCH_TMG1, .SCH_TMG2, .SCH_SCHED,
  .SCH_CLSRANK, .SCH_REF, .SCH_STAT, .SCH_DELIV, .PC_CTL, .PC_STAT, .PC_REFSTAT, .SP_STAT,
  .ITK_CLS, .ITK_SRCREQ, .ITK_GSTAT, .ITK_ERR, .ITK_CLSSTAT, .ITK_REQ, .ITK_EFF, .BAS_CFG,
  .BAS_STAT, .BAS_LOOK, .BAS_CLSPIN, .RAS_CFG, .RAS_SCRUB, .RAS_SCRUBSTAT, .RAS_STAT, .RAS_STRILL,
  .RAS_STSPARE, .RAS_ERRPTR, .RAS_REMAP, .RAS_PEND, .RAS_PCCNT, .AQD_CTL, .AQD_STAT, .AQD_LANE,
  .AQD_CNT, .AQD_RING, .AQD_RTO, .AQD_ROUTE, .WEI_Q, .WEI_CLSQ, .WEI_GATE, .WEI_GUARD,
  .WEI_STAT, .WEI_BKT, .WEI_QSTAT, .WEI_POL, .WEI_POLDROP, .TIM_WALL, .TIM_PPSSEC, .TIM_WSTAT,
  .TIM_PPSCNT, .TIM_TIDE, .TIM_TRATE, .TIM_TCTL, .TIM_TCNT, .TIM_EVT0, .TIM_EVT1, .PWR_DCTL,
  .PWR_DSTAT, .PWR_TRI, .PWR_REG, .PWR_CAP, .PWR_STAT, .THM_CFG, .THM_STAT, .THM_TRIP,
  .THM_SENS, .CAL_ZQ, .CAL_VREF, .CAL_RDLY, .CAL_WDLY, .CAL_LSTAT, .CAL_CFG, .CAL_FSP,
  .CAL_STAT, .CAL_CNT, .CAL_CTL, .GLB_RESET, .GLB_BOOTCFG, .GLB_BOOTSTAT, .GLB_FUSE, .GLB_PSTATE,
  .GLB_TIER, .GLB_TIERSTAT, .CAS_STAT, .CAS_BUDGET, .CAS_CNT, .FNT_FWCTL, .FNT_PLCTL, .FNT_PLSTAT,
  .FNT_SVCBASE, .GLB_EVQ, .GLB_EVQPTR, .GLB_EVCNT, .GLB_SEDCTL, .GLB_SEDSTAT, .GLB_SEDCNT, .GLB_SEDAGG,
  .GLB_SEDAGGSTAT]

/-- The window offset of copy i of a register. -/
def Reg.addr (r : Reg) (i : Nat) : Nat :=
  let p := r.place
  p.base + (i / p.inner) * p.outer + (i % p.inner) * p.stride

/-- The copy of r that lies at window offset a, if one does. -/
def Reg.copyAt (r : Reg) (a : Nat) : Option Nat :=
  let p := r.place
  if a < p.base then none else
  let d := a - p.base
  let o := if p.outer = 0 then 0 else d / p.outer
  let e := if p.outer = 0 then d else d % p.outer
  let k := if p.stride = 0 then 0 else e / p.stride
  let i := o * p.inner + k
  if k < p.inner ∧ e = k * p.stride ∧ i < p.count then some i else none

/-- The register and copy at window offset a (R96). The two bus-error registers of the sluice stand once, and every channel's window
shows them (08_sluice_channels.md R251). -/
def regAt (a : Nat) : Option (Reg × Nat) :=
  Reg.all.findSome? fun r =>
    match r.copyAt a with
    | none => none
    | some i => if r = .SLC_GERR ∨ r = .SLC_GSTOP then some (r, 0) else some (r, i)

/-- The reset value of field f in copy i of its register, with the maps' own exceptions: privileged region 0 resets enabled and of 64 MiB
(03_address_map.md R90) and the set point of triads 4 and 5 resets to 800 mV (16_power_and_thermal.md R450). (DESIGN CHOICE: notes/assumptions/3.md.) -/
def Field.resetAt (f : Field) (i : Nat) : Nat :=
  if f.reg = .GLB_PREG ∧ i = 0 ∧ f.hi = 63 then 1
  else if f.reg = .GLB_PREG ∧ i = 0 ∧ f.hi = 60 then 0x20
  else if f.reg = .PWR_TRI ∧ f.hi = 9 ∧ (i = 4 ∨ i = 5) then 0x320
  else f.reset

/-- The access code of field f in copy i of its register: privileged region 0 is always enabled (R90). -/
def Field.accAt (f : Field) (i : Nat) : Acc :=
  if f.reg = .GLB_PREG ∧ i = 0 ∧ f.hi = 63 then .RO else f.acc

/-- The reset value of copy i of a register, fields at their reset values and reserved bits 0. -/
def Reg.resetVal (r : Reg) (i : Nat) : Nat :=
  r.fields.foldl (fun a f => setBits a f.hi f.lo (f.resetAt i)) 0

end Sys2Proof.Machine
end

