-- ==== Sys2Proof/Machine/Store.lean ====
section
/-! DEFINITION. Sys2Proof/Machine/Store.lean: a sparse store, a list of key and value pairs with keys strictly rising and
no entry equal to what an unlisted key reads as, so that equal stores are equal lists; and a set of numbers kept as
rising, separate ranges (the valid bitmap). -/
namespace Sys2Proof.Machine

/-- Key and value pairs in rising key order. -/
abbrev Store (α : Type) := List (Nat × α)

/-- The value listed at k. -/
def Store.find {α : Type} : Store α → Nat → Option α
  | [], _ => none
  | (j, v) :: l, k => if j = k then some v else Store.find l k

/-- The value at k: the listed one, else d. -/
def Store.get {α : Type} (d : α) (m : Store α) (k : Nat) : α := (Store.find m k).getD d

/-- m with v listed at k, the keys staying in order. -/
def Store.insert {α : Type} : Store α → Nat → α → Store α
  | [], k, v => [(k, v)]
  | (j, w) :: l, k, v =>
    if k < j then (k, v) :: (j, w) :: l
    else if k = j then (k, v) :: l
    else (j, w) :: Store.insert l k v

/-- m with nothing listed at k. -/
def Store.erase {α : Type} : Store α → Nat → Store α
  | [], _ => []
  | (j, w) :: l, k => if j = k then Store.erase l k else (j, w) :: Store.erase l k

/-- m with k reading as v, where an unlisted k reads as d: v is listed only where it differs from d. -/
def Store.put {α : Type} [DecidableEq α] (d : α) (m : Store α) (k : Nat) (v : α) : Store α :=
  if v = d then Store.erase m k else Store.insert m k v

/-- The keys strictly rise from above b. -/
def Store.risesFrom {α : Type} : Option Nat → Store α → Bool
  | _, [] => true
  | none, (j, _) :: l => Store.risesFrom (some j) l
  | some b, (j, _) :: l => decide (b < j) && Store.risesFrom (some j) l

/-- The keys strictly rise and no entry equals the value df gives an unlisted key. -/
def Store.canon {α : Type} [DecidableEq α] (df : Nat → α) (m : Store α) : Bool :=
  Store.risesFrom none m && m.all (fun e => decide (e.2 ≠ df e.1))

/-- A memory of bytes, (address, byte) pairs as Host.Cell, is in its one canonical form: addresses strictly rise and no entry equals 0, what an
unlisted address reads as. -/
def Memory.wf (m : Store Byte) : Bool := Store.canon (fun _ => 0#8) m

/-- A set of numbers as rising ranges [lo, hi), none empty, none touching the next. -/
abbrev Ranges := List (Nat × Nat)

/-- k is in the set. -/
def Ranges.mem (r : Ranges) (k : Nat) : Bool := r.any (fun p => decide (p.1 ≤ k ∧ k < p.2))

/-- The set with [lo, hi) removed. -/
def Ranges.del : Ranges → Nat → Nat → Ranges
  | [], _, _ => []
  | (a, b) :: r, lo, hi =>
    let left := if a < min b lo then [(a, min b lo)] else []
    let right := if max a hi < b then [(max a hi, b)] else []
    if lo < hi then left ++ right ++ Ranges.del r lo hi else (a, b) :: Ranges.del r lo hi

/-- Puts the range [lo, hi) into a set that does not meet it, joining it to ranges it touches. -/
def Ranges.put : Ranges → Nat → Nat → Ranges
  | [], lo, hi => [(lo, hi)]
  | (a, b) :: r, lo, hi =>
    if hi < a then (lo, hi) :: (a, b) :: r
    else if hi = a then (lo, b) :: r
    else if b = lo then Ranges.put r a hi
    else (a, b) :: Ranges.put r lo hi

/-- The set with [lo, hi) added. -/
def Ranges.add (r : Ranges) (lo hi : Nat) : Ranges :=
  if lo < hi then Ranges.put (Ranges.del r lo hi) lo hi else r

/-- How many numbers are in the set. -/
def Ranges.count (r : Ranges) : Nat := r.foldl (fun a p => a + (p.2 - p.1)) 0

end Sys2Proof.Machine
end

