-- ==== Sys2Proof/Machine/State.lean ====
section
/-! DEFINITION. Sys2Proof/Machine/State.lean: everything the spec gives one instance, as plain data, the queue of waiting commands, and
the reasons a command can stop for. Registers have one home (regs); what a register reports of a queue or a table is computed
when it is read. -/
namespace Sys2Proof.Machine

/-! ## Stops -/

/-- Why a command stops with a fault: never. The block leaves no action undefined (00_scope.md R5), so no meaning raises a fault and the
type has no constructor. Safe. -/
inductive Fault where
deriving DecidableEq, Repr

/-- Why a command is refused. -/
inductive Refusal where
  /-- The row has no meaning yet; raised by the arms of exec only. Safe. -/
  | notModelled (mnemonic : String)
deriving DecidableEq, Repr

/-! ## Requests and the ordering points -/

/-- What a memory request does: a read; a write under its byte mask; the poison marker written to a whole granule (04_zynsa_model.md R124); an
indivisible update of ew bytes with the operation number of 13_aqueduct_ring.md R377 (0 store, 1 add, 2 OR, 3 unsigned maximum, 4 add, 5 signed
minimum, 6 signed maximum); an update of an element by AMIN, AMAX or AADD with the value that arrives (07_jet_engines.md R210); or one on a bucket
of a hash table with keys and values of w bytes (R206: 1 the key stored in the first free slot unless it is there, 2 the key removed, 3 as 1 but
only where the bucket has an EMPTY slot). -/
inductive ReqKind where
  | rd
  | wr
  | mark
  | atom (op ew : Nat)
  | num (op : Upd) (fmt rm : Nat) (sat : Bool) (rnd : Nat) (v : Val)
  | bucket (op w key val : Nat)
deriving DecidableEq, Repr

/-- Where a request comes from and where its response goes. -/
inductive Origin where
  /-- Fabric port and tag (02_ports.md R42). -/
  | fabric (p tag : Nat)
  /-- Outstanding request number idx of a spout. -/
  | spout (sp idx : Nat)
  /-- Aqueduct inbound request: port, originating node and tag (13_aqueduct_ring.md R385). -/
  | remote (port src rtag : Nat)
  /-- Log write of a transaction slot (09_transactions.md R267). -/
  | log (slot : Nat)
  /-- Zero-fill write of a block (12_data_integrity.md R349). -/
  | fill (block : Nat)
  /-- Shadow write of a window granule (R345). -/
  | shadow (granule : Nat)
  /-- Write-back of a corrected granule, or of the poison marker (R353, R341). -/
  | cwb
  /-- Verify read (R354). -/
  | verify
  /-- Scrub read (R355). -/
  | scrub
  /-- Census read of a source of a set (19_cascade_and_services.md R536). -/
  | census (set src : Nat)
  /-- A request whose response is discarded (02_ports.md R49). -/
  | gone
  /-- Prefetch read of a spout to the cache or the buffer (11_intake_and_basin.md R329). -/
  | prefetch (sp : Nat) (buffer : Bool)
deriving DecidableEq, Repr

/-- A request to local memory: the bytes [addr, addr + size) of one chunk; a write enables byte i of the transfer where bit i of mask
is 1. `rd` is the read/write kind, and the privilege is true for host or maintenance. -/
structure Req where
  origin : Origin
  kind   : ReqKind
  addr   : Nat
  size   : Nat
  mask   : Nat
  data   : Bytes
  label  : Nat
  reqNo  : Nat
  priv   : Bool
  tx     : Option Nat
deriving DecidableEq, Repr

/-- The pseudo-channel a chunk lies on and the place of a granule there: page P and slot S (03_address_map.md R81). -/
structure Loc where
  pc   : Nat
  page : Nat
  slot : Nat
deriving DecidableEq, Repr

/-- What a granule of a read has got so far: data, poison, or nothing yet. -/
inductive Got where
  | none
  | data (b : Bytes) (dead : Bool)
  | poison
deriving DecidableEq, Repr

/-- One entry of a pseudo-channel's queue (10_rills.md R284), oldest first in the queue: its request, whether it is a background entry, the
granules still to be served in order, the column commands issued for the first of them, what a read has got without the stack, the
bytes already read from the stack (64 data, 4 check, and 32 shadow bytes in a byte-check window), the granules a later request has written
since it was accepted (01_architecture.md R28), the shadow nibbles of its window granules as its acceptance found them (12_data_integrity.md R345),
and whether it was promoted (R289). -/
structure Entry where
  req      : Req
  bg       : Bool
  todo     : List Nat
  cols     : Nat
  got      : List (Nat × Got)
  raws     : List (Nat × Bytes)
  newer    : List Nat
  shadows  : List (Nat × Bytes)
  promoted : Bool
deriving DecidableEq, Repr

/-- A read whose last column command has issued and whose data is on its way to the decoder. -/
structure Flight where
  req   : Req
  got   : List (Nat × Got)
  raws  : List (Nat × Bytes)
  newer : List Nat
deriving DecidableEq, Repr

/-- A merge in progress (12_data_integrity.md R346): its granule, the narrow writes and updates that have joined it, in acceptance order,
and whether its granule merges with zeros instead of being read (R349). -/
structure Merge where
  granule : Nat
  joined  : List Req
  zeros   : Bool
deriving DecidableEq, Repr

/-- One bank (10_rills.md R281, R293, R299): the open row, its check columns 30 and 31 as held in the check buffer, the changed check
slots, the owed refreshes, a pending neighbour refresh, and the open page's number. -/
structure Bank where
  row     : Option Nat
  page    : Nat
  held    : BitVec 2
  chk     : Bytes
  changed : Nat
  owed    : Nat
  rfm     : Bool
deriving DecidableEq, Repr

/-- A closed bank with nothing owed. (DESIGN CHOICE: notes/assumptions/1.md.) -/
def Bank.idle : Bank := { row := none, page := 0, held := 0, chk := [], changed := 0, owed := 0, rfm := false }

/-- A pseudo-channel: the requests waiting at its ordering point with their source numbers, the rotation (R24), its queue, merges, reads in
flight, banks, correction queue and verify reads (R353, R354), the ACT count of its generator (R299), the granules of the page in hand still to be
scrubbed with the bit errors of their reads, the scrub position (R355), the passes and the cycle at which the pass in hand began (R356), the
command clocks counted for scrub (10_rills.md R291), and the windows of R360 and R363 with the threshold that holds in the one in hand (R364). -/
structure PcState where
  waiting   : List (Nat × Req)
  rot       : Nat
  queue     : List Entry
  merges    : List Merge
  flights   : List Flight
  banks     : Store Bank
  corrQ     : List (Loc × Nat × Bytes × Bool)
  verifyQ   : List (Loc × Nat)
  acts      : Nat
  seed      : Nat
  scrubQ    : List (Nat × Bytes)
  scrubPage : Nat
  passes    : Nat
  passStart : Nat
  behind    : Bool
  clocks    : Nat
  ceCount   : Nat
  ceSent    : Bool
  ceThr     : Nat
  uePages   : List Nat
  ueRun     : Nat
deriving DecidableEq, Repr

/-- A pseudo-channel at reset. (DESIGN CHOICE: notes/assumptions/1.md.) -/
def PcState.init : PcState :=
  { waiting := [], rot := 0, queue := [], merges := [], flights := [], banks := [], corrQ := [], verifyQ := [], acts := 0, seed := 0, scrubQ := [],
    scrubPage := 0, passes := 0, passStart := 0, behind := false, clocks := 0, ceCount := 0, ceSent := false, ceThr := 0x40, uePages := [],
    ueRun := 0 }

/-! ## The basin and the integrity tables -/

/-- A line of the memory-side cache: its chunk, the granules valid in it, their data and the class that pinned it. The list of lines is in use
order, the least recently used first (11_intake_and_basin.md R321, R322). A line of the prefetch buffer has the same form. -/
structure Line where
  chunk  : Nat
  valid  : Nat
  data   : Bytes
  pinned : Option Nat
deriving DecidableEq, Repr

/-- A fill-table entry (12_data_integrity.md R349): the block, the granules still owed, and the requester and class charged (R351). -/
structure FillEnt where
  block : Nat
  owed  : Nat
  reqNo : Nat
  label : Nat
deriving DecidableEq, Repr

/-- The basin: the valid bitmap (blocks set), the cache, the prefetch buffer (oldest first), the dead-range
table (first block and count, oldest first), the fill table, the window write table, and the lookups and hits of the unpinned
classes in the current window. -/
structure Basin where
  valid   : Ranges
  lines   : List Line
  buffer  : List Line
  dead    : List (Nat × Nat)
  deadWas : Bool
  fills   : List FillEnt
  winTab  : List Nat
  lookups : Nat
  hits    : Nat
deriving DecidableEq, Repr

/-- The map in force (03_address_map.md R85): mode 0 none, 1 hash, 2 modulo; the open list; and the byte-check windows in force as
(index, base, size) in 2 MiB units. The privileged regions as last filled, as (index, base, size) in 2 MiB units (R90). -/
structure MapRec where
  mode     : Nat
  openList : List Nat
  windows  : List (Nat × Nat × Nat)
  regions  : List (Nat × Nat × Nat)
  takeover : List (Nat × Nat)
deriving DecidableEq, Repr

/-- An error record of the ring, and whether host software has read it (12_data_integrity.md R362). -/
structure ErrRec where
  words : List Nat
  read  : Bool
deriving DecidableEq, Repr

/-- The integrity state outside the registers: the error ring by slot, the data slots of the remap table with the entry number, and remap
copies whose granules are held (R357). -/
structure Ras where
  ring  : Store ErrRec
  slots : Store (Option Bytes)
deriving DecidableEq, Repr

/-! ## The intake -/

/-- A response beat waiting on a port (02_ports.md R46); the data of an RD answered with another code than OK is all zero and not listed;
`counted` says that its request was accepted and holds its tag. -/
structure RespBeat where
  isRead   : Bool
  counted  : Bool
  tag      : Nat
  code     : Nat
  deadRead : Bool
  data     : Bytes
deriving DecidableEq, Repr

/-- The intake: C and H accounts of the requesters (11_intake_and_basin.md R316), requests held at each source in order, outstanding
requests of each class, the outstanding tags (with their labels) and waiting beats of each fabric port, responses waiting to transfer,
negotiation failures in a row, and ports that have completed negotiation. -/
structure Intake where
  c        : Store Int
  h        : Store Int
  held     : Store (List Req)
  outCls   : Store Nat
  tags     : Store (List (Nat × Nat))
  tagWait  : Store (List (Bool × Beat))
  resp     : Store (List RespBeat)
  negFail  : Store Nat
  negDone  : Store Bool
deriving DecidableEq, Repr

/-! ## Spouts -/

/-- One entry of a spout's loop stack (06_zynsa_encoding.md R171). -/
structure LoopEnt where
  start  : Nat
  endAt  : Nat
  n      : Nat
deriving DecidableEq, Repr

/-- What an outstanding request of a spout is for: the command's entry, a program line, a granule of source data, a register's load, a descriptor, a
prior value, a plain store, the n-th indivisible access of an instruction, a write of one with the elements complete before it
(08_sluice_channels.md R220), the word of a WAIT (06_zynsa_encoding.md R175), a granule of a PIN (11_intake_and_basin.md R325), the completion record
(04_zynsa_model.md R115). -/
inductive Need where
  | entry
  | line (addr : Nat)
  | bulk (granule : Nat)
  | load (rd : Nat)
  | desc (dd : Nat)
  | prior (gr : Nat)
  | store
  | upd (n : Nat)
  | put (mark : Nat)
  | poll
  | pin (granule : Nat)
  | record
deriving DecidableEq, Repr

/-- An outstanding request of a spout: its number, what it is for, the package address, the address and the ordinal number of the instruction that
issued it, whether it is a write, whether it is remote, whether it has been accepted, and its response (code and data) once that stands ready. -/
structure Out where
  idx      : Nat
  need     : Need
  addr     : Nat
  pc       : Nat
  seq      : Nat
  write    : Bool
  remote   : Bool
  accepted : Bool
  resp     : Option (Nat × Bytes)
deriving DecidableEq, Repr

/-- What a spout in WAIT, or an instruction in RUN that has not started, waits for: `deps` a register's data or a fence's hold (06_zynsa_encoding.md R177,
04_zynsa_model.md R117), `word` the program line of a word whose opcode is not assigned (R122), `grant` a resource of its jet or a staging slot (07_jet_engines.md R186, 08_sluice_channels.md R234), `xopen` a TBEGIN its
package transaction (09_transactions.md R271). -/
inductive Waiting where
  | none
  | cond (src addr cond b : Nat) (pd : Nat) (pw : Bool) (timeout : Option Nat)
  | sync
  | service
  | pinFill (gl count chunk n : Nat)
  | deps (i : Instr)
  | word (h : Hdr) (maj min : BitVec 6)
  | grant (i : Instr)
  | commit
  | xopen (handler gd : Nat)
deriving DecidableEq, Repr

/-- The command in progress (04_zynsa_model.md R111): its identifier, completion flags and record address, its label and privilege (0 task,
1 host, 2 maintenance). -/
structure CmdInfo where
  cmdId  : Nat
  evt    : Bool
  crec   : Bool
  craddr : Nat
  label  : Nat
  priv   : Nat
  known  : Bool
deriving DecidableEq, Repr

/-- No command. (DESIGN CHOICE: notes/assumptions/1.md.) -/
def CmdInfo.none : CmdInfo := { cmdId := 0, evt := false, crec := false, craddr := 0, label := 0, priv := 0, known := false }

/-- A data instruction (MOV, CVT, VEC, MAT, HSH) that has issued and not completed: the instruction, its address and that of the next; the elements
whose writes have been issued; of a MOV-class one the bits of an element as progress counts them, its bytes in all, the element at which the
burst in hand ends (08_sluice_channels.md R241), whether MOV_HALF and MOV_FULL are still to be sent (R243), its write buffer (granule, bits written,
their values) with the elements complete before it, the granules it has poisoned, the staged granules and whether staging is over (R233); the source
granules in hand (package granule, code, data), the answers of its indivisible accesses by number, whether a comparison has found a difference;
and, once its last write has been issued, how it ends (with a fault and its address, or well), with what its registers take then (by name, 32 + d a
descriptor, 40 + p a predicate), its generator and its numeric flags. -/
structure InProg where
  insn      : Instr
  pc        : Nat
  next      : Nat
  elems     : Nat
  ub        : Nat
  total     : Nat
  limit     : Nat
  half      : Bool
  full      : Bool
  wbuf      : Option (Nat × Nat × Nat)
  wstart    : Nat
  marked    : List Nat
  staged    : List (Nat × Option Bytes)
  stagedAll : Bool
  fetched   : List (Nat × Nat × Bytes)
  upds      : List (Nat × Nat × Bytes)
  found     : Bool
  closed    : Option (Option (Nat × Nat))
  results   : List (Nat × Nat)
  gen       : Nat
  flags     : Nat
deriving DecidableEq, Repr

/-- A spout's registers and what it has in hand (R102, R103): `seq` numbers the instruction in hand, and `lastW` is the number of the latest one that issued
a write (R123). Its state, fault and ring registers are the doorbell page's. -/
structure Spout where
  pc       : Nat
  g        : Store Word
  a        : Store PkgAddr
  k        : Store (BitVec 32)
  p        : BitVec 8
  d        : Store (BitVec 128)
  tiles    : BitVec 128
  loops    : List LoopEnt
  cmd      : CmdInfo
  gen      : Word
  lines    : List (Nat × Bytes)
  outs     : List Out
  nextIdx  : Nat
  seq      : Nat
  lastW    : Nat
  fences   : List (Nat × Nat)
  waiting  : Waiting
  waitPc   : Nat
  prog     : Option InProg
  stopReq  : Option Nat
  signals  : List (Nat × Nat)
  tx       : Option Nat
  txAbort  : Option Nat
  finish   : Option Nat
  tailHeld : Option Nat
deriving DecidableEq, Repr

/-- A spout at reset: registers 0, the stochastic-rounding generator at the constant of 05_number_formats.md R146. (DESIGN CHOICE: notes/assumptions/1.md.) -/
def Spout.init : Spout :=
  { pc := 0, g := [], a := [], k := [], p := 1, d := [], tiles := 0, loops := [], cmd := CmdInfo.none, gen := 0x9E3779B97F4A7C15,
    lines := [], outs := [], nextIdx := 0, seq := 0, lastW := 0, fences := [], waiting := .none, waitPc := 0, prog := none,
    stopReq := none, signals := [], tx := none, txAbort := none, finish := none, tailHeld := none }

/-! ## Jets and the sluice -/

/-- A jet: for each of its five resources (0 MAC, 1 vector, 2 hash, 3 exact accumulator, 4 move unit) the holder spout and the waiting
instructions in issue order, multiply-accumulates short of the 1,024 that JET_MACCNT counts, and whether an engine reset is in
progress (07_jet_engines.md R185, R186, R216). The exact accumulator holds nothing between instructions (05_number_formats.md R158). -/
structure JetState where
  holder    : Store (Option Nat)
  waiting   : Store (List (Nat × Instr))
  macRem    : Nat
  resetting : Bool
deriving DecidableEq, Repr

/-- A jet at reset. (DESIGN CHOICE: notes/assumptions/1.md.) -/
def JetState.init : JetState := { holder := [], waiting := [], macRem := 0, resetting := false }

/-- A sluice channel beside its registers: the REQ level it observes (08_sluice_channels.md R240), the state it held at a bus-error stop
(R245), whether it runs alone since a CONT (R246), and an engine reset in progress (R248). -/
structure ChanState where
  seenReq   : Bool
  stopState : Nat
  continued : Bool
  resetting : Bool
deriving DecidableEq, Repr

/-- A channel at reset. (DESIGN CHOICE: notes/assumptions/1.md.) -/
def ChanState.init : ChanState := { seenReq := false, stopState := 0, continued := false, resetting := false }

/-- The sluice as a whole: the four staging slots' holders, the channels waiting for one in order, and a bus-error stop that drains (R245). -/
structure Sluice where
  staging  : Store (Option Nat)
  waiters  : List Nat
  draining : Bool
deriving DecidableEq, Repr

/-! ## Transactions -/

/-- The state of a transaction slot (09_transactions.md R253). -/
inductive TxSt where
  | free | active | prepared | committing | closed
deriving DecidableEq, Repr

/-- A transaction slot (R253 to R264): its state, in-doubt mark, begin stamp, label, owner, member spouts with the handler, loop depth and
g register of each, whether a fabric request joined it, its read set and signature, its log (granule and data, in first-write order),
members that have reached TCOMMIT, the abort word that closed it, and whether it was asked for its vote. Once committed, the log holds the granules
whose log write is still to be accepted, and the write set all of them until the slot closes (R265). `reqs` holds the requester number of each
granule's latest write (12_data_integrity.md R351). -/
structure TxSlot where
  st      : TxSt
  indoubt : Bool
  stamp   : Nat
  label   : Nat
  owner   : Nat
  members : List (Nat × Nat × Nat × Nat)
  fabric  : Bool
  reads   : List Nat
  sig     : Nat
  sigUsed : Bool
  log     : List (Nat × Bytes)
  wset    : List Nat
  reqs    : List (Nat × Nat)
  ready   : List Nat
  word    : Nat
  asked   : Bool
deriving DecidableEq, Repr

/-- A free slot. (DESIGN CHOICE: notes/assumptions/1.md.) -/
def TxSlot.init : TxSlot :=
  { st := .free, indoubt := false, stamp := 0, label := 0, owner := 0, members := [], fabric := false, reads := [], sig := 0, sigUsed := false,
    log := [], wset := [], reqs := [], ready := [], word := 0, asked := false }

/-- A package transaction at the manager (R271): owner instance, votes (instance and whether YES), instances that sent XT_DONE, whether its
decision is COMMIT, and its phase (0 free, 1 granted, 2 prepare sent, 3 decided commit). -/
structure XRec where
  phase : Nat
  owner : Nat
  sp    : Nat
  yes   : Nat
  voted : Nat
  done  : Nat
deriving DecidableEq, Repr

/-- A free package transaction. (DESIGN CHOICE: notes/assumptions/1.md.) -/
def XRec.init : XRec := { phase := 0, owner := 0, sp := 0, yes := 0, voted := 0, done := 0 }

/-- A prepare record in the record area (R271 step 3, R273): the write set, and whether it is marked committed. -/
structure PrepRec where
  log       : List (Nat × Bytes)
  committed : Bool
deriving DecidableEq, Repr

/-- The transaction unit: slots, the manager's records, the decisions in its record area, this instance's prepare records, states collected
by a recovering manager (R275), whether it recovers, the package transactions whose records wait for an answer after a reset (R274) with the counts committed and aborted. -/
structure Txu where
  slots     : Store TxSlot
  pkts      : Store XRec
  decisions : List Nat
  records   : Store PrepRec
  collected : List (Nat × Nat)
  recovering : Bool
  awaits    : List Nat
  outcome   : Nat × Nat
deriving DecidableEq, Repr

/-! ## The scheduler -/

/-- The scheduler's instance-wide facts: failed temperature readings in a row, the forced-in-window record made (10_rills.md R296), scrub
precedence opened by a tide action (15_time_and_tide.md R420). (DESIGN CHOICE: notes/assumptions/17.md.) -/
structure Sched where
  tempFails : Nat
  forcedRec : Bool
  scrubPrec : Bool
deriving DecidableEq, Repr

/-! ## Aqueduct and weir -/

/-- An aqueduct port beside its registers (13_aqueduct_ring.md R368 to R378): whether the loop measurement is done, the window has passed, it was
ever UP, and a failed detect was recorded; the partner's nonce of the last UP period; the cycles of its uncorrectable codewords; the replay
buffer (frames with LSEQ, oldest first); the next LSEQ; the last LSEQ received in order; NAK to send; frames discarded until a replay
arrives; something to acknowledge; a replay asked for; the replays and the new link frames that wait; the frame being sent; and the latest readings of the
port's eight detect-sense inputs (02_ports.md R60: a bit is 1 where the pair reads as joined). -/
structure AqPort where
  loopDone  : Bool
  passed    : Bool
  everUp    : Bool
  detectRec : Bool
  nonce     : Option Nat
  codewords : List Nat
  replayBuf : List Frame
  nextSeq   : Nat
  lastSeq   : Nat
  nak       : Bool
  discard   : Bool
  ackDue    : Bool
  replayDue : Bool
  replays   : List Frame
  outNow    : List Frame
  sent      : Option Frame
  sense     : Nat
deriving DecidableEq, Repr

/-- A port at reset. (DESIGN CHOICE: notes/assumptions/1.md.) -/
def AqPort.init : AqPort :=
  { loopDone := false, passed := false, everUp := false, detectRec := false, nonce := none, codewords := [], replayBuf := [], nextSeq := 1,
    lastSeq := 0, nak := false, discard := false, ackDue := false, replayDue := false, replays := [], outNow := [], sent := none, sense := 0 }

/-- A remote request outstanding at its originator (R383, R386): its tag, its origin, node, port, size, whether the weir has taken it, and
whether it is a read or expects data. -/
structure Remote where
  rtag   : Nat
  origin : Origin
  node   : Nat
  port   : Nat
  size   : Nat
  reads  : Bool
  taken  : Bool
deriving DecidableEq, Repr

/-- The ring: own nonce, records (node, port, hops), whether own ring state frames have returned on each port, the outstanding remote
requests, the next tag, the frames held at their source with their numbers (R382, R383), and the nodes whose route has changed port with the
port they left. -/
structure Ring where
  nonce    : Nat
  records  : List (Nat × Nat × Nat)
  selfBack : Store Bool
  remotes  : List Remote
  nextTag  : Nat
  held     : List (Nat × Frame)
  changed  : List (Nat × Nat)
deriving DecidableEq, Repr

/-- The weir of a port (14_weir_shaping.md): its eight queues (each frame with whether it is in transit), the gates in force, the register
values in force (WEI_Q[q] at q, WEI_POL[c] at 8 + c; R396) and the class map in force, gate actions of the tide that wait for the
refill (mask and set), classes whose new frames wait for the old queue to drain (class and old queue, R397), frames held at their source,
policer levels, the queue whose round-robin turn it is and whether the turn has begun, the queue of the frame being sent, the
cycle of each kind of event that is recorded once in a millisecond, and the predicted close of each queue's gate (R399), in ns of wall time. -/
structure Weir where
  queues  : Store (List (Bool × Frame))
  gate    : Nat
  live    : Store Nat
  liveC   : Nat
  waitG   : List (Nat × Nat)
  holdC   : List (Nat × Nat)
  parked  : List Frame
  pol     : Store Nat
  turn    : Nat
  inTurn  : Bool
  sending : Option Nat
  marks   : Store (Option Nat)
  close   : Store (Option Nat)
deriving DecidableEq, Repr

/-! ## Time -/

/-- Wall time and the tide beside their registers (15_time_and_tide.md): always-on cycles since power-on; the remainder of the rate in 10^-9 ns, the
oscillator's offset yf and the slew in ppb with the oscillator time in ns at which it ends (R409); the oscillator times of the last
timestamped edge (02_ports.md R55) and of the last one not discarded (R408); discards in a row, edges not discarded since reset, aligning edges
of small error in a row; the accepted advancing tide values with their wall times; REBASE armed; T_last, wall_last and whether a value has
been accepted; whether a calibration window is open; the tide rate as measured (R414: phase units over ns); and the wall time of the last
backward value recorded (R413). -/
structure Time where
  ticks    : Nat
  frac     : Int
  yf       : Int
  slew     : Int
  slewEnd  : Nat
  lastPps  : Option Nat
  lastEdge : Nat
  discards : Nat
  edges    : Nat
  aligned  : Nat
  samples  : List (Nat × Nat)
  rebase   : Bool
  tLast    : Nat
  wallLast : Nat
  calWin   : Bool
  rho      : Nat × Nat
  lastBack : Option Nat
deriving DecidableEq, Repr

/-! ## Power, thermal, calibration -/

/-- A command of the power sequencer to a triad over RGL_CTL (02_ports.md R68). (DEDUCED: notes/assumptions/37.md.) -/
inductive RglCmd where
  /-- Regulator `regul` enabled or disabled (16_power_and_thermal.md R429, R430). -/
  | enable (regul : Nat) (on : Bool)
  /-- The set point of triad `triad`, in mV (R427). -/
  | setPoint (triad mv : Nat)
  /-- The ramp profile with which domain `domain` of triad `triad` wakes: slow or fast (R436, R437). -/
  | ramp (triad domain : Nat) (slow : Bool)
  /-- Phase `phase` of regulator `regul` shed (R429). -/
  | shed (regul phase : Nat)
  /-- The regulators of triad `triad` that gang and share its load; none of them while all three work (R430). -/
  | gang (triad : Nat) (reguls : List Nat)
deriving DecidableEq, Repr

/-- Power and thermal state beside the registers (16_power_and_thermal.md). By regulator: the fault flags of its previous frame, frames in a row
out of range (negative: below), its current in 0.1 A and output in mV, its frames in a row with the triad's current over capacity and
at or below it, and the good frames since its REENABLE. By triad: the cycle at which its slew ends, the groups of domains still to go
dark, the group going dark first, and the cause. Domains that wait to wake, and those ramping, each with whether it is the retry; those
whose wake is delayed; and those whose host request waits for the end of a power state or a reset. Thermal: samples in a row in which a
sensor differed, sensors above the warning, the quorum recorded, the sensors that reached SHUT in the last sample, the thermal levels of
the clocks (0 rill, 1 to 4 jet groups, 5 font, 6 the rill clock's stack level), readings since the last STACK_THROTTLE; the trip (0 none,
1 in progress, 2 every domain gated), whether it is a region shutdown and of which triad, the SHUT in force at it, whether the stack has left its
retention limits, whether the temperature condition of the restart has been met, the wall times of the trips of the last hour, and the commands
sent over RGL_CTL, oldest first (02_ports.md R68). -/
structure Power where
  flt       : Store Nat
  vrun      : Store Int
  curs      : Store Nat
  mvs       : Store Nat
  overCap      : Store Nat
  under     : Store Nat
  rearm     : Store (Option Nat)
  slew      : Store Nat
  darkQ     : Store (List (List Nat))
  darkCause : Store Nat
  wakes     : List (Nat × Bool)
  ramps     : List (Nat × Bool)
  delayed   : List Nat
  late      : List Nat
  sensBad   : Store Nat
  warned    : List Nat
  quorum    : Bool
  hot       : List Nat
  lvls      : Store Nat
  stackRun  : Nat
  shut      : Nat
  region    : Option Nat
  shutAt    : Nat
  lost      : Bool
  cool      : Bool
  trips     : List Nat
  rgl       : List RglCmd
deriving DecidableEq, Repr

/-- A calibration activity (17_calibration_and_training.md R461): its kind (0 drift check, 1 service retraining, 2 impedance recalibration, 3 full
sweep), its leg, the spare use it takes (0 none, 1 MEASURE, 2 CARRY), whether it has started, and whether it no longer waits for a
calibration window (R463). -/
structure Act where
  kind    : Nat
  leg     : Nat
  use     : Nat
  started : Bool
  nowin   : Bool
deriving DecidableEq, Repr

/-- Calibration state beside the registers (17_calibration_and_training.md): the measurements of each leg (1,024 for a trim whose reference was
out of its limits), agreed trims and new delays that wait for an application point, the outcomes of the training points of the sweep in
hand, the edges kept from a sweep whose other lanes are swept once more (lane, lo, hi; R459), the edges of each leg's last good sweep at
each set point (entry 2L + f), legs on their second sweep, the activities, pseudo-channels open before a set-point change, whether the pad
clocks have locked since its switch, a request for one that waits for a power state to end (18_bringup_reset_lowpower.md R485), the
references measured since the last reset (R455), and the sensor reading at each pseudo-channel's last drift check. -/
structure Cal where
  meas    : Store (List (List Nat))
  pending : Store (List Nat)
  pendDly : Store (List Nat)
  points  : Store (List Nat)
  kept    : Store (List (Nat × Int × Int))
  edges   : Store (List (Int × Int))
  retried : List Nat
  acts    : List Act
  wasOpen : List Nat
  padLock : Bool
  reqHeld : Bool
  refSeen : Nat
  driftT  : Store Nat
deriving DecidableEq, Repr

/-! ## Bring-up, tiers, low power -/

/-- Bring-up and power-state facts beside the registers (18_bringup_reset_lowpower.md): the levels of REFCLK, RST_N and RESET_COMPUTE, the
cause of the cold reset in hand, the surroundings' facts of the latest power-on or cold reset, pseudo-channels that have finished the
bring-up test and the cycle it began, the test wrapper's instruction and what that shifts out on WSO (02_ports.md R70), a requested power state whose entry waits (R487)
and whether that entry has begun, an exit from SR or DEEP in progress, the cause of a sequence that a thermal trip interrupted (R485), the
offsets of the current overlay's records and the overlay of the latest switch request (R496: 16 for the base alone), tide actions that
wait for the end of a power state (R490: action and argument), whether transaction recovery is due (R481 step 11), and whether a thermal
restart lost stack contents (R449). -/
structure Boot where
  refclk    : Bool
  rstN      : Bool
  compute   : Bool
  coldCause : Nat
  env       : Option PinLevels
  tested    : List Nat
  testStart : Nat
  wrapper   : Nat
  wso       : Option Nat
  entry     : Option Nat
  entering  : Bool
  leaving   : Bool
  resume    : Option Nat
  curSet    : List Nat
  swTo      : Nat
  waitTide  : List (Nat × Nat)
  recover   : Bool
  lostData  : Bool
deriving DecidableEq, Repr

/-! ## Cascade, services, events -/

/-- A message that this instance forwards (19_cascade_and_services.md R503; 02_ports.md R57): its header and TYPE, its LEN where the TYPE does not
fix it, and whether its CRC leaves good or inverted. Its payload leaves as it came. -/
structure FwdMsg where
  hdr   : CasHdr
  typ   : Nat
  len   : Option Nat
  crcOk : Bool
deriving DecidableEq, Repr

/-- A message the block sends on the cascade: TYPE, whether broadcast, urgent, destination, and its payload as numbers. -/
structure OutMsg where
  typ     : Nat
  bc      : Bool
  pri     : Bool
  dst     : Nat
  epoch   : Nat
  seq     : Nat
  payload : List Nat
deriving DecidableEq, Repr

/-- The cascade beside its registers (19_cascade_and_services.md): epoch, nonce and whether it is drawn, the HELLOs heard (instance, strap,
nonce), whether the own HELLO has returned, the next SEQ, the own messages sent, in order, and the messages forwarded, in order; the node number, phase and power cap that the manager
set; the cap last sent to each worker, whether NODE was sent, the reports heard (instance: average power and reports missed since), the
TIMEs sent since one returned, whether the loop is broken, the number of START messages sent, and whether MGR_LOST and CAS_LINK_DOWN are
recorded. -/
structure Cascade where
  epoch    : Nat
  nonce    : Nat
  drawn    : Bool
  heard    : List HelloP
  returned : Bool
  seq      : Nat
  out      : List OutMsg
  fwd      : List FwdMsg
  node     : Option Nat
  phase    : Option Nat
  cap      : Option Nat
  lastCap  : Store Nat
  nodeSent : Option Nat
  telem    : Store (Nat × Nat)
  away     : Nat
  broken   : Bool
  startAt  : Nat
  lostMgr  : Bool
  linkDown : Bool
deriving DecidableEq, Repr

/-- A service call waiting for the font: spout, function, arguments, and whether an answer is due (R516). -/
structure SvcCall where
  sp    : Nat
  func  : Nat
  args  : List Nat
  call  : Bool
  gd    : Nat
deriving DecidableEq, Repr

/-- A page of the pool (R532): handle, size exponent, address, reference count, its place in the spill area of a node while it is REMOTE, and
its published hash. -/
structure PoolPage where
  handle : Nat
  s      : Nat
  addr   : Nat
  count  : Nat
  spill  : Option (Nat × Nat)
  hash   : Option Nat
deriving DecidableEq, Repr

/-- A census snapshot in progress (R536): the wall time and tide of its trigger, its valid sources in order, and what has been read of them
(none: missed). -/
structure Snap where
  time : Nat
  tide : Nat
  srcs : List Nat
  got  : List (Nat × Option Nat)
deriving DecidableEq, Repr

/-- Plume (R525 to R531). As a receiver: the header announced, the receipt bitmap as ranges of packets, whether PL_ARM has been received and the
core reports are awaited, and the GO that waits for its tide (TGO and task map). As the manager: the PL_MISS of each member in the round
(status, missing packets, ranges), the members that have answered PL_ARM, and the ready cores and jets of each. -/
structure Plume where
  hdr    : Bytes
  got    : Ranges
  armed  : Bool
  go     : Option (Nat × Nat)
  misses : Store (Nat × Nat × List (Nat × Nat))
  done   : List Nat
  cores  : Store Nat
  jets   : Store Nat
deriving DecidableEq, Repr

/-- The font and its services beside the registers (19_cascade_and_services.md): the service calls that wait, oldest first, and the answer worked out
for the oldest (status and two values); the configuration block's words 0 to 5 and its 256 set words as last accepted; the key slots'
words by slot * 16 + word; the host's request words by slot * 8 + word, the slots being served, oldest first, and the response words; board
requests that wait, the responses sent to the board and whether the last message was acknowledged; the pool's pages and next handle; the
snapshots in progress by set, the records written and the snapshots skipped; plume; and the base of the firmware image that runs. `held` is the model's own: set within a row whose access is held, and false between rows
(notes/assumptions/51.md). -/
structure Font where
  calls    : List SvcCall
  answer   : Option (Nat × Nat × Nat)
  cfg      : List Nat
  sets     : List Nat
  keys     : Store Nat
  mbox     : Store Nat
  mboxBusy : List Nat
  resp     : Store Nat
  bmc      : List (List Word)
  bmcResp  : List (List Nat)
  bmcAck   : Bool
  pages    : List PoolPage
  nextPage : Nat
  snaps    : Store Snap
  held     : Bool
  censusSeq : Nat
  skipped  : Nat
  plume    : Plume
  fwBase   : Option Nat
deriving DecidableEq, Repr

/-- An event record (20_events_and_sediment.md R541) with its severity. -/
structure EvRec where
  time : Nat
  tide : Nat
  code : Nat
  tst  : Nat
  unit : Nat
  sev  : Nat
  arg0 : Nat
  arg1 : Nat
deriving DecidableEq, Repr

/-- Events and the sediment log beside their registers (20_events_and_sediment.md): records that have arisen and wait in their units, the delivery
buffer; by queue what it has lost since its last EVQ_LOST, what it has lost in all (R546), and whether a fatal record waits for a
notification; the notifications sent, oldest first; the log by index and the post entries still to come (R552); of a collection the
members left, the entries received of the one in hand with their TIME by index, its RESEND rounds and whether REQ was repeated (R555);
and the snapshot that a worker last sent, in the layout of summary word 0. -/
structure Events where
  arising  : List EvRec
  buffer   : List EvRec
  lostRun  : Store Nat
  lostAll  : Store Nat
  fatal    : Store Bool
  notes    : List Nat
  log      : Store EvRec
  postLeft : Nat
  aggLeft  : List Nat
  aggGot   : Store Nat
  aggRound : Nat
  aggRetry : Bool
  aggSnap  : Nat
deriving DecidableEq, Repr

/-- What the control port answers to the latest access: false for OK and true for DECERR, and the data of a read. -/
structure CtlResp where
  decerr : Bool
  data   : Word
deriving DecidableEq, Repr

/-! ## The whole -/

/-- One instance. -/
structure State where
  /-- Every register at its window offset; an unlisted one holds its reset value. -/
  regs    : Store Word
  /-- Stack memory, by (pc * 1310720 + page) * 1024 + byte of the page (03_address_map.md R81, R83). -/
  mem     : Store Byte
  /-- The jets' tile stores, by jet * 2^20 + byte. -/
  tiles   : Store Byte
  /-- The tier store's 64-bit words, by offset in the TIE window (18_bringup_reset_lowpower.md R492). -/
  tier    : Store Word
  ctl     : CtlResp
  map     : MapRec
  pcs     : Store PcState
  sched   : Sched
  intake  : Intake
  basin   : Basin
  ras     : Ras
  spouts  : Store Spout
  jets    : Store JetState
  chans   : Store ChanState
  sluice  : Sluice
  txu     : Txu
  aqd     : Store AqPort
  ring    : Ring
  weirs   : Store Weir
  time    : Time
  power   : Power
  cal     : Cal
  boot    : Boot
  cas     : Cascade
  font    : Font
  events  : Events
  /-- The number of the next free value the model draws (the model's own field, no part of the spec's machine). -/
  free    : Nat
  /-- The commands that wait, first in, first out. -/
  pending : List Instr
deriving DecidableEq, Repr

/-- The instance before its first power-on reset: nothing listed, so every register reads its reset value, memory reads as never written,
no map is in force, every pseudo-channel is CLOSED, every queue is empty, and no command waits. (DESIGN CHOICE: notes/assumptions/1.md.) (DESIGN CHOICE: notes/assumptions/3.md.) (DESIGN CHOICE: notes/assumptions/29.md.) -/
def State.reset : State :=
  { regs := [],
    mem := [],
    tiles := [],
    tier := [],
    ctl := { decerr := false, data := 0 },
    map := { mode := 0, openList := [], windows := [], regions := [], takeover := [] },
    pcs := [],
    sched := { tempFails := 0, forcedRec := false, scrubPrec := false },
    intake := { c := [], h := [], held := [], outCls := [], tags := [], tagWait := [], resp := [], negFail := [], negDone := [] },
    basin := { valid := [], lines := [], buffer := [], dead := [], deadWas := false, fills := [], winTab := [], lookups := 0,
               hits := 0 },
    ras := { ring := [], slots := [] },
    spouts := [],
    jets := [],
    chans := [],
    sluice := { staging := [], waiters := [], draining := false },
    txu := { slots := [], pkts := [], decisions := [], records := [], collected := [], recovering := false, awaits := [],
             outcome := (0, 0) },
    aqd := [],
    ring := { nonce := 0, records := [], selfBack := [], remotes := [], nextTag := 0, held := [], changed := [] },
    weirs := [],
    time := { ticks := 0, frac := 0, yf := 0, slew := 0, slewEnd := 0, lastPps := none, lastEdge := 0, discards := 0, edges := 0,
              aligned := 0, samples := [], rebase := false, tLast := 0, wallLast := 0, calWin := false, rho := (0, 0),
              lastBack := none },
    power := { flt := [], vrun := [], curs := [], mvs := [], overCap := [], under := [], rearm := [], slew := [], darkQ := [],
               darkCause := [], wakes := [], ramps := [], delayed := [], late := [], sensBad := [], warned := [], quorum := false,
               hot := [], lvls := [], stackRun := 0, shut := 0, region := none, shutAt := 0, lost := false, cool := false,
               trips := [], rgl := [] },
    cal := { meas := [], pending := [], pendDly := [], points := [], kept := [], edges := [], retried := [], acts := [],
             wasOpen := [], padLock := false, reqHeld := false, refSeen := 0, driftT := [] },
    boot := { refclk := false, rstN := false, compute := false, coldCause := 0, env := none, tested := [], testStart := 0,
              wrapper := 0, wso := none, entry := none, entering := false, leaving := false, resume := none, curSet := [], swTo := 0,
              waitTide := [], recover := false, lostData := false },
    cas := { epoch := 0, nonce := 0, drawn := false, heard := [], returned := false, seq := 0, out := [], fwd := [], node := none,
             phase := none, cap := none, lastCap := [], nodeSent := none, telem := [], away := 0, broken := false, startAt := 0,
             lostMgr := false, linkDown := false },
    font := { calls := [], answer := none, cfg := [], sets := [], keys := [], mbox := [], mboxBusy := [], resp := [], bmc := [],
              bmcResp := [], bmcAck := false, pages := [], nextPage := 0, snaps := [], held := false, censusSeq := 0, skipped := 0,
              plume := { hdr := [], got := [], armed := false, go := none, misses := [], done := [], cores := [], jets := [] },
              fwBase := none },
    events := { arising := [], buffer := [], lostRun := [], lostAll := [], fatal := [], notes := [], log := [], postLeft := 0,
                aggLeft := [], aggGot := [], aggRound := 0, aggRetry := false, aggSnap := 0 },
    free := 0,
    pending := [] }

end Sys2Proof.Machine
end

