-- ==== Sys2Proof/Machine/Ops.lean ====
section
/-! DEFINITION. Sys2Proof/Machine/Ops.lean: the named operations every command is written over: reading and writing a register's field, the
parts of the state by number, raising an event, answering the control port, drawing a free value. The block takes no
exception of a processor's kind; an error is an event, a response code or a spout's fault. -/
namespace Sys2Proof.Machine

/-! ## Registers -/

/-- Copy i of register r as stored (an unlisted register holds its reset value). -/
def State.reg (s : State) (r : Reg) (i : Nat) : Nat :=
  match Store.find s.regs (r.addr i) with
  | some v => v.toNat
  | none => r.resetVal i

/-- s with copy i of register r holding v. A register at its reset value is not listed. -/
def State.setReg (s : State) (r : Reg) (i v : Nat) : State :=
  { s with regs := Store.put (BitVec.ofNat 64 (r.resetVal i)) s.regs (r.addr i) (BitVec.ofNat 64 v) }

/-- The value of field f in copy i of its register. -/
def State.rd (s : State) (f : Field) (i : Nat) : Nat := bits (s.reg f.reg i) f.hi f.lo

/-- s with field f of copy i of its register holding v, every other bit unchanged. -/
def State.wr (s : State) (f : Field) (i v : Nat) : State := s.setReg f.reg i (setBits (s.reg f.reg i) f.hi f.lo v)

/-- A one-bit field as a Bool. -/
def State.flag (s : State) (f : Field) (i : Nat) : Bool := s.rd f i == 1

/-- s with a one-bit field set to b. -/
def State.wrB (s : State) (f : Field) (i : Nat) (b : Bool) : State := s.wr f i (b2n b)

/-- s with n added to a counter field, which stops at its largest value. -/
def State.bump (s : State) (f : Field) (i n : Nat) : State := s.wr f i (satAdd (f.hi + 1 - f.lo) (s.rd f i) n)

/-- s with every register of the domains of a list back at its reset value (00_scope.md R17). -/
def State.resetDomains (s : State) (ds : List Domain) : State :=
  { s with regs := s.regs.filter fun e =>
      match regAt e.1 with
      | none => true
      | some (r, _) => !ds.contains r.domain }

/-- s with copy i of each register of a list at its reset value. -/
def State.resetRegs (s : State) (rs : List Reg) (i : Nat) : State := foldS rs s fun t r => t.setReg r i (r.resetVal i)

/-! ## Parts by number -/

/-- Pseudo-channel n. -/
def State.pc (s : State) (n : Nat) : PcState := Store.get PcState.init s.pcs n
/-- s with pseudo-channel n replaced. -/
def State.setPc (s : State) (n : Nat) (p : PcState) : State := { s with pcs := Store.put PcState.init s.pcs n p }
/-- s with pseudo-channel n changed by f. -/
def State.updPc (s : State) (n : Nat) (f : PcState → PcState) : State := s.setPc n (f (s.pc n))
/-- Bank b of a pseudo-channel. -/
def PcState.bank (p : PcState) (b : Nat) : Bank := Store.get Bank.idle p.banks b
/-- p with bank b replaced. -/
def PcState.setBank (p : PcState) (b : Nat) (k : Bank) : PcState := { p with banks := Store.put Bank.idle p.banks b k }
/-- The spout of doorbell page n. -/
def State.sp (s : State) (n : Nat) : Spout := Store.get Spout.init s.spouts n
/-- s with a spout replaced. -/
def State.setSp (s : State) (n : Nat) (x : Spout) : State := { s with spouts := Store.put Spout.init s.spouts n x }
/-- s with a spout changed by f. -/
def State.updSp (s : State) (n : Nat) (f : Spout → Spout) : State := s.setSp n (f (s.sp n))
/-- Jet e. -/
def State.jet (s : State) (e : Nat) : JetState := Store.get JetState.init s.jets e
/-- s with a jet changed by f. -/
def State.updJet (s : State) (e : Nat) (f : JetState → JetState) : State :=
  { s with jets := Store.put JetState.init s.jets e (f (s.jet e)) }
/-- Sluice channel c. -/
def State.chan (s : State) (c : Nat) : ChanState := Store.get ChanState.init s.chans c
/-- s with a channel changed by f. -/
def State.updChan (s : State) (c : Nat) (f : ChanState → ChanState) : State :=
  { s with chans := Store.put ChanState.init s.chans c (f (s.chan c)) }
/-- Transaction slot t. -/
def State.slot (s : State) (t : Nat) : TxSlot := Store.get TxSlot.init s.txu.slots t
/-- s with a transaction slot changed by f. -/
def State.updSlot (s : State) (t : Nat) (f : TxSlot → TxSlot) : State :=
  { s with txu := { s.txu with slots := Store.put TxSlot.init s.txu.slots t (f (s.slot t)) } }
/-- Package transaction x at the manager. -/
def State.pkt (s : State) (x : Nat) : XRec := Store.get XRec.init s.txu.pkts x
/-- s with a package transaction's record at the manager changed by f. -/
def State.updPkt (s : State) (x : Nat) (f : XRec → XRec) : State :=
  { s with txu := { s.txu with pkts := Store.put XRec.init s.txu.pkts x (f (s.pkt x)) } }
/-- Aqueduct port p. -/
def State.aq (s : State) (p : Nat) : AqPort := Store.get AqPort.init s.aqd p
/-- s with an aqueduct port changed by f. -/
def State.updAq (s : State) (p : Nat) (f : AqPort → AqPort) : State :=
  { s with aqd := Store.put AqPort.init s.aqd p (f (s.aq p)) }
/-- A weir at reset: every gate open, every class on queue 2. (DESIGN CHOICE: notes/assumptions/1.md.) -/
def Weir.init : Weir :=
  { queues := [], gate := 0xFF, live := [], liveC := 0x492492492492, waitG := [], holdC := [], parked := [], pol := [], turn := 2,
    inTurn := false, sending := none, marks := [], close := [] }
/-- The weir of port p. -/
def State.weir (s : State) (p : Nat) : Weir := Store.get Weir.init s.weirs p
/-- s with a weir changed by f. -/
def State.updWeir (s : State) (p : Nat) (f : Weir → Weir) : State :=
  { s with weirs := Store.put Weir.init s.weirs p (f (s.weir p)) }

/-! ## Events (20_events_and_sediment.md R541 to R543) -/

/-- s with an event arisen at a unit: the record takes the wall counter and the internal tide of the moment. -/
def State.emit (s : State) (code unit arg0 arg1 : Nat) : State :=
  let tst := s.rd F.TIM_TIDE_TSTATE 0
  let e : EvRec :=
    { time := s.rd F.TIM_WALL_NS 0, tide := if tst = 0 then 0 else s.rd F.TIM_TIDE_TIDE 0, code := code, tst := tst, unit := unit,
      sev := sevOf code, arg0 := arg0 % 2 ^ 48, arg1 := arg1 % 2 ^ 64 }
  { s with events := { s.events with arising := s.events.arising ++ [e] } }

/-- The delivery buffer has no room for a record that is not fatal (20_events_and_sediment.md R544): 8 of its 256 places are for fatal ones. (DEDUCED: notes/assumptions/44.md.) -/
def State.evFull (s : State) : Bool := decide (248 ≤ (s.events.buffer.filter fun e => e.sev ≠ 4).length)

/-! ## The control port's answers -/

/-- s with OK answered to a write. -/
def State.ok (s : State) : State := { s with ctl := { decerr := false, data := 0 } }
/-- s with DECERR answered. -/
def State.decerr (s : State) : State := { s with ctl := { decerr := true, data := 0 } }
/-- s with OK and the data of a read answered. -/
def State.answer (s : State) (v : Nat) : State := { s with ctl := { decerr := false, data := BitVec.ofNat 64 v } }

/-! ## Free values -/

/-- The number of the next free value, and s with it used up. (DESIGN CHOICE: notes/assumptions/5.md.) -/
def State.draw (s : State) : Nat × State := (s.free, { s with free := s.free + 1 })

/-! ## Domains (16_power_and_thermal.md R424) -/

/-- The state of domain d: 0 OFF, 1 WAKING, 2 ON, 3 GATING, 4 DARK. -/
def State.domSt (s : State) (d : Nat) : Nat := s.rd F.PWR_DSTAT_STATE d
/-- Domain d is ON. -/
def State.domOn (s : State) (d : Nat) : Bool := s.domSt d == 2
/-- The domain of a spout's unit. -/
def domOfSpout (sp : Nat) : Nat := if sp < 32 then 62 else if sp < 160 then 40 + (sp - 32) / 8 else 64
/-- The channel-pair domain of a pseudo-channel. -/
def domOfPc (pc : Nat) : Nat := pc / 2
/-- The domain of the spare of a pseudo-channel's octet. -/
def domOfSpare (m : Nat) : Nat := 32 + m
/-- Basin quadrants 2 and 3 are gated (11_intake_and_basin.md R323). -/
def State.bGated (s : State) : Bool := !(s.domOn 60 && s.domOn 61)

/-! ## Frequently read facts -/

/-- STATE of pseudo-channel n (10_rills.md R306): 0 CLOSED, 1 OPEN, 2 PARK, 3 SELFREF, 4 CRESET, 5 FENCED. -/
def State.pcSt (s : State) (n : Nat) : Nat := s.rd F.PC_STAT_STATE n
/-- STATE of a spout (04_zynsa_model.md R101): 0 IDLE, 1 FETCH, 2 RUN, 3 WAIT, 4 PAUSED, 5 FAULTED, 6 HALTED. -/
def State.spSt (s : State) (n : Nat) : Nat := s.rd F.DBL_STAT_STATE n
/-- s with a spout's STATE set. -/
def State.setSpSt (s : State) (n v : Nat) : State := s.wr F.DBL_STAT_STATE n v
/-- s with a spout's WAIT over: RUN, or RUN at its CONT where a bus-error stop holds it (08_sluice_channels.md R246). -/
def State.wakeSp (s : State) (n : Nat) : State :=
  if s.spSt n = 3 then s.setSpSt n 2
  else if n < 32 && (s.rd F.SLC_GSTOP_STOPMASK 0).testBit n then s.updChan n fun c => { c with stopState := 2 }
  else s
/-- The user capacity in bytes. -/
def State.cap (s : State) : Nat := s.rd F.GLB_CAPACITY_CAP 0
/-- The instance's own number. (DESIGN CHOICE: notes/assumptions/3.md.) -/
def State.me (s : State) : Nat := s.rd F.GLB_ID_INSTANCE 0
/-- STATE of a fabric port (02_ports.md R48): 0 DOWN, 1 NEGOTIATE, 2 OPEN, 3 QUIESCE. -/
def State.fpSt (s : State) (p : Nat) : Nat := s.rd F.ITK_FPSTAT_STATE p
/-- Some fabric port is OPEN. -/
def State.anyOpen (s : State) : Bool := (List.range 8).any fun p => s.fpSt p == 2
/-- The role: 0 none, 1 worker, 2 manager, 3 excluded (19_cascade_and_services.md R507, R509). -/
def State.role (s : State) : Nat := s.rd F.CAS_STAT_ROLE 0
/-- s with power state IDLE left for a cause (18_bringup_reset_lowpower.md R486): 1 fabric beat, 2 doorbell, 3 cascade, 4 tide action. -/
def State.leaveIdle (s : State) (cause : Nat) : State :=
  if s.rd F.GLB_PSTATE_CUR 0 = 1 then
    ((s.wr F.GLB_PSTATE_CUR 0 0).wr F.GLB_PSTATE_WAKE 0 cause).emit Ev.PSTATE_EXIT Un.inst cause 0
  else s
/-- Fabric ports hold READY low and no spout fetches: a thermal trip, the entry into SR or DEEP, that state, its exit (R486, R487). -/
def State.holding (s : State) : Bool :=
  s.power.shut == 1 || s.boot.entry.isSome || decide (3 ≤ s.rd F.GLB_PSTATE_CUR 0) || s.boot.leaving
/-- Wall counter in ns. -/
def State.wall (s : State) : Nat := s.rd F.TIM_WALL_NS 0
/-- Fenced: the pseudo-channel is retired (03_address_map.md R84). -/
def State.fenced (s : State) (pc : Nat) : Bool := (s.rd F.GLB_RETIRED_RETIRED 0).testBit pc
/-! ## Spouts by number -/

/-- The kind of a spout: 0 sluice, 1 jet, 2 font (R98). -/
def spKind (sp : Nat) : Nat := if sp < 32 then 0 else if sp < 160 then 1 else 2

/-- The jet of a jet spout. -/
def jetOf (sp : Nat) : Nat := (sp - 32) / 4

/-- The first event code of a spout's unit (20_events_and_sediment.md R558). -/
def spEvBase (sp : Nat) : Nat := if sp < 32 then 0x0900 else if sp < 160 then 0x0A00 else 0x1200

/-- s with an event of a spout's unit. -/
def State.spEvent (s : State) (sp low a0 a1 : Nat) : State := s.emit (spEvBase sp + low) (Un.spout sp) a0 a1

/-- s with the units of a jet and the staging slots that a spout holds or waits for given up. -/
def State.releaseUnits (s : State) (sp : Nat) : State :=
  let s1 := if spKind sp = 1 then
      s.updJet (jetOf sp) fun j =>
        { j with holder := (List.range 5).foldl (fun h u => if Store.get none h u = some sp then Store.put none h u none else h) j.holder,
                 waiting := (List.range 5).foldl (fun w u => Store.put [] w u ((Store.get [] w u).filter fun e => e.1 ≠ sp)) j.waiting }
    else s
  let st := (List.range 4).foldl (fun h u => if Store.get none h u = some sp then Store.put none h u none else h) s1.sluice.staging
  let s2 : State := { s1 with sluice := { s1.sluice with staging := st, waiters := s1.sluice.waiters.filter fun w => w ≠ sp } }
  if sp < 32 then (((s2.wr F.SLC_STAT_STAGEWAIT sp 0).wr F.SLC_STAT_STAGED sp 0).wr F.SLC_STAT_SLOT sp 0) else s2

/-- The block's outcome of every command: the next state. -/
abbrev Res := Host.Outcome State Fault Refusal

/-- PHASE of GLB_BOOTSTAT (R473). -/
def State.phase (s : State) : Nat := s.rd F.GLB_BOOTSTAT_PHASE 0

end Sys2Proof.Machine
end

