-- ==== Sys2Proof/Machine/Map.lean ====
section
/-! DEFINITION. Sys2Proof/Machine/Map.lean: from an instance-local address to a pseudo-channel, page, slot and bank, and back
(03_address_map.md R74 to R82); privileged regions and byte-check windows (R88 to R92); building a map (R85, R86). -/
namespace Sys2Proof.Machine

/-- Bytes of user memory of one pseudo-channel (R76). -/
def pcBytes : Nat := 1258291200
/-- Pages of one pseudo-channel (R76). -/
def pcPages : Nat := 1310720

/-- The six-bit fold of a quotient (R77). -/
def fold6 (q : Nat) : Nat := bits q 5 0 ^^^ bits q 11 6 ^^^ bits q 17 12 ^^^ bits q 22 18

/-- The pseudo-channel and local chunk index of chunk c (R78, R79). -/
def MapRec.chunk (m : MapRec) (c : Nat) : Nat × Nat :=
  if m.mode = 2 then
    let n := m.openList.length
    let q := c / n
    (m.openList.getD ((c % n + fold6 q) % n) 0, q)
  else
    let q := c / 64
    (c % 64 ^^^ fold6 (q), q)

/-- Where the granule at instance-local address a lies (R81). -/
def MapRec.loc (m : MapRec) (a : Nat) : Loc :=
  let (pc, q) := m.chunk (a / 256)
  let l := 4 * q + (a / 64) % 4
  { pc := pc, page := l / 15, slot := l % 15 }

/-- The instance-local address of the granule at a place, by inverting R78 or R79; none where the place lies outside the map. -/
def MapRec.addrOf (m : MapRec) (x : Loc) : Option Nat :=
  let l := 15 * x.page + x.slot
  let q := l / 4
  if m.mode = 2 then
    let n := m.openList.length
    match m.openList.findIdx? (· = x.pc) with
    | none => none
    | some pos =>
      let r := (pos + n - fold6 q % n) % n
      if q < 4915200 then some ((q * n + r) * 256 + (l % 4) * 64) else none
  else if q < 4915200 then some ((q * 64 + (x.pc ^^^ fold6 q)) * 256 + (l % 4) * 64) else none

/-- Stack ID, row, bank group and bank address of a page (R82). -/
def sidOf (page : Nat) : Nat := (page / 16) % 5
/-- The row of a page (R82). -/
def rowOf (page : Nat) : Nat := page / 80
/-- BA and BG of a page, as 4 * BA + BG (R82). -/
def bankBits (page : Nat) : Nat := page % 16 ^^^ rowOf page % 16
/-- Bank group (R82). -/
def bgOf (page : Nat) : Nat := bankBits page % 4
/-- Bank address within the group (R82). -/
def baOf (page : Nat) : Nat := bankBits page / 4
/-- The bank's number b = 16 SID + 4 BG + BA (10_rills.md R293). -/
def bankOf (page : Nat) : Nat := 16 * sidOf page + 4 * bgOf page + baOf page

/-- The memory key of byte b of a page. -/
def memKey (pc page b : Nat) : Nat := (pc * pcPages + page) * 1024 + b

/-- The pseudo-channels of the map: all 64 in hash mode, the open list in modulo mode, none without a map. -/
def MapRec.pcs (m : MapRec) : List Nat := if m.mode = 0 then [] else if m.mode = 1 then List.range 64 else m.openList

/-- Bytes of the map before the shadows are taken off (R80). -/
def MapRec.rawCap (m : MapRec) : Nat := m.pcs.length * pcBytes

/-- The 2 MiB unit in bytes. -/
def unit2M : Nat := 2097152

/-- The bytes of the shadows of a set of windows (R91: half of each window). -/
def shadowBytes (ws : List (Nat × Nat × Nat)) : Nat := ws.foldl (fun a w => a + w.2.2 * unit2M / 2) 0

/-- The user capacity of a map: the raw capacity less the shadows (R80, R91). -/
def MapRec.userCap (m : MapRec) : Nat := m.rawCap - shadowBytes m.windows

/-- The window in force that holds address a. -/
def MapRec.window (m : MapRec) (a : Nat) : Option (Nat × Nat × Nat) :=
  m.windows.find? fun w => decide (w.2.1 * unit2M ≤ a ∧ a < (w.2.1 + w.2.2) * unit2M)

/-- The first shadow byte of window w: the shadow of window 0 comes highest (R91). -/
def MapRec.shadowBase (m : MapRec) (w : Nat × Nat × Nat) : Nat :=
  m.rawCap - shadowBytes (m.windows.filter fun v => decide (v.1 ≤ w.1))

/-- The shadow byte of the data byte at address a, and whether its check bits lie in the high nibble (R91). -/
def MapRec.shadowOf (m : MapRec) (a : Nat) : Option (Nat × Bool) :=
  (m.window a).map fun w =>
    let x := a - w.2.1 * unit2M
    (m.shadowBase w + x / 2, x % 2 == 1)

/-- Address a lies in a privileged region as last filled (R90). -/
def MapRec.privileged (m : MapRec) (a : Nat) : Bool :=
  m.regions.any fun r => decide (r.2.1 * unit2M ≤ a ∧ a < (r.2.1 + r.2.2) * unit2M)

/-- Some byte of [a, a + n) lies in a privileged region. -/
def MapRec.touchesPriv (m : MapRec) (a n : Nat) : Bool :=
  m.regions.any fun r => decide (a < (r.2.1 + r.2.2) * unit2M ∧ r.2.1 * unit2M < a + n)

/-- [a, a + n) lies wholly inside a single privileged region (R88). -/
def MapRec.insidePriv (m : MapRec) (a n : Nat) : Bool :=
  m.regions.any fun r => decide (r.2.1 * unit2M ≤ a ∧ a + n ≤ (r.2.1 + r.2.2) * unit2M)

/-- The first byte of region 0: the bitmap home (R93). -/
def MapRec.homeBase (m : MapRec) : Nat :=
  match m.regions.find? (fun r => r.1 = 0) with
  | some r => r.2.1 * unit2M
  | none => 0

/-- Length of the bitmap home: 2,400 KiB (R93). -/
def homeBytes : Nat := 2400 * 1024

/-- The regions that the registers hold, enabled ones only, as (index, base, size) in 2 MiB units. -/
def State.pregSet (s : State) : List (Nat × Nat × Nat) :=
  (List.range 4).filterMap fun i =>
    if s.flag F.GLB_PREG_EN i then some (i, s.rd F.GLB_PREG_BASE i, s.rd F.GLB_PREG_SIZE i) else none

/-- The windows that the registers hold, enabled ones only. -/
def State.bcwSet (s : State) : List (Nat × Nat × Nat) :=
  (List.range 4).filterMap fun i =>
    if s.flag F.GLB_BCW_EN i then some (i, s.rd F.GLB_BCW_BASE i, s.rd F.GLB_BCW_SIZE i) else none

/-- Two extents of 2 MiB units meet. -/
def meets (a b : Nat × Nat × Nat) : Bool := decide (a.2.1 < b.2.1 + b.2.2 ∧ b.2.1 < a.2.1 + a.2.2)

/-- The limit below which regions and windows end, 63.5 GiB, in 2 MiB units (R88). -/
def placeLimit : Nat := 0xFE0000000 / unit2M

/-- The first check of R90 that a write of privileged region i with these fields would fail, or 0. -/
def State.pregError (s : State) (i : Nat) (en : Bool) (base size : Nat) : Nat :=
  let others := s.pregSet.filter fun r => r.1 ≠ i
  let me := (i, base, size)
  if en && size == 0 then 1
  else if i = 0 ∧ size < 2 then 2
  else if en && decide (placeLimit < base + size) then 3
  else if en && (others.any (meets me) || s.bcwSet.any (meets me)) then 4
  else if decide (4096 < (if en then size else 0) + others.foldl (fun a r => a + r.2.2) 0) then 5
  else 0

/-- The first check of R90 that a write of window i with these fields would fail, or 0. -/
def State.bcwError (s : State) (i : Nat) (en : Bool) (base size : Nat) : Nat :=
  let others := s.bcwSet.filter fun r => r.1 ≠ i
  let me := (i, base, size)
  if en && size == 0 then 6
  else if en && decide (placeLimit < base + size) then 7
  else if en && (others.any (meets me) || s.pregSet.any (meets me)) then 8
  else if decide (2048 < (if en then size else 0) + others.foldl (fun a r => a + r.2.2) 0) then 9
  else 0

/-- s with a map write or remap refused under code e (R90). -/
def State.mapRefuse (s : State) (e idx : Nat) : State :=
  ((s.wr F.GLB_MAPSTAT_ERR 0 e).wr F.GLB_MAPSTAT_ERR_IDX 0 idx).emit Ev.MAP_REFUSED Un.inst e idx

/-- s with GLB_CAPACITY showing the map in force: mode, pseudo-channels, fenced ones of the map and the user capacity (R87). -/
def State.showMap (s : State) : State :=
  let fencedN := (s.map.pcs.filter fun p => s.fenced p).length
  (((s.wr F.GLB_CAPACITY_MODE 0 s.map.mode).wr F.GLB_CAPACITY_MAP_PCS 0 s.map.pcs.length).wr
    F.GLB_CAPACITY_FENCED 0 fencedN).wr F.GLB_CAPACITY_CAP 0 s.map.userCap

/-- The blocks between two addresses, whole 4 KiB ones, as a range of block numbers. -/
def blocksOf (lo hi : Nat) : Nat × Nat := (lo / 4096, hi / 4096)

/-- s with the valid bits cleared that a change from windows `old` to the windows in force calls for (R92): the blocks of every window added,
removed or resized, and the blocks between the old and the new capacity. -/
def State.windowChange (s : State) (old : MapRec) : State :=
  let ch := (old.windows.filter fun w => !s.map.windows.contains w) ++ (s.map.windows.filter fun w => !old.windows.contains w)
  let v1 := ch.foldl (fun v w => Ranges.del v (w.2.1 * 512) ((w.2.1 + w.2.2) * 512)) s.basin.valid
  let lo := Nat.min old.userCap s.map.userCap
  let hi := Nat.max old.userCap s.map.userCap
  { s with basin := { s.basin with valid := Ranges.del v1 (lo / 4096) ((hi + 4095) / 4096) } }

/-- s with a new map built from GLB_RETIRED (R85): hash mode with no bit set, modulo mode with 1 to 8, and otherwise no map, every
pseudo-channel closed and the fatal event (R86). The windows in force become the registers' windows. -/
def State.buildMap (s : State) : State :=
  let ret := s.rd F.GLB_RETIRED_RETIRED 0
  let n := popcount 64 ret
  if n = 0 then
    let s1 := { s with map := { s.map with mode := 1, openList := List.range 64, windows := s.bcwSet } }
    s1.showMap
  else if n ≤ 8 then
    let opens := (List.range 64).filter fun p => !ret.testBit p
    let s1 := { s with map := { s.map with mode := 2, openList := opens, windows := s.bcwSet } }
    s1.showMap
  else
    let s1 := { s with map := { s.map with mode := 0, openList := [], windows := [] } }
    let s2 := foldS (List.range 64) (s1.showMap) fun t p => if t.pcSt p = 5 then t else t.wr F.PC_STAT_STATE p 0
    (s2.wr F.GLB_MAPSTAT_ERR 0 11 |>.wr F.GLB_MAPSTAT_ERR_IDX 0 0).emit Ev.MAP_EXHAUSTED Un.inst ret 0

/-- How a package address decodes (04_zynsa_model.md R105, R106). -/
inductive PkgDec where
  | localMem (a : Nat)
  | remote (node a : Nat)
  | regWin (off : Nat)
  | regOther
  | scope
deriving DecidableEq, Repr

/-- The decode of package address p (R105): a NODE that is this package's own is local memory. -/
def State.decodeAddr (s : State) (p : Nat) : PkgDec :=
  let inst := bits p 40 37
  let a := bits p 36 0
  if p.testBit 47 then
    if inst ≠ s.me then .scope
    else if bits p 46 41 = s.rd F.AQD_RING_NODE 0 then .localMem a
    else .remote (bits p 46 41) a
  else if bits p 46 41 = 0 then
    if inst = s.me then .localMem a else .scope
  else
    let base := 0x0F0000000000 + s.me * 0x1000000
    if base ≤ p ∧ p < base + 0x1000000 then .regWin (p - base) else .regOther

/-- Is the package address local memory of this instance? -/
def State.isLocal (s : State) (p : Nat) : Bool :=
  match s.decodeAddr p with
  | .localMem _ => true
  | _ => false

end Sys2Proof.Machine
end

