-- ==== Sys2Proof/Machine/Tx.lean ====
section
/-! DEFINITION. Sys2Proof/Machine/Tx.lean: the transaction unit's shared operations: messages to the cascade, sets and conflicts, aborting,
the commit point (09_transactions.md R253 to R271). -/
namespace Sys2Proof.Machine

/-- s with a cascade message sent: TYPE, broadcast, urgent, destination and payload (19_cascade_and_services.md R502, R505); an excluded instance
sends nothing (R509). -/
def State.send (s : State) (typ : Nat) (bc pri : Bool) (dst : Nat) (payload : List Nat) : State :=
  if s.role = 3 then s else
  let m : OutMsg := { typ := typ, bc := bc, pri := pri, dst := dst, epoch := s.cas.epoch, seq := s.cas.seq, payload := payload }
  { s with cas := { s.cas with out := s.cas.out ++ [m], seq := (s.cas.seq + 1) % 65536 } }

/-- The manager's instance number. -/
def State.mgr (s : State) : Nat := s.rd F.CAS_STAT_MGR 0

/-- The abort word (R260). -/
def abortWord (code detail slot inst : Nat) (g : Option Nat) : Nat :=
  code * 2 ^ 56 + detail * 2 ^ 48 + slot * 2 ^ 42 + inst * 2 ^ 38 +
    (match g with
     | some x => 2 ^ 31 + x % 2 ^ 31
     | none => 0)

/-- s with an abort word reported: TXU_LAST takes it and ABORTS counts it (R260). -/
def State.reportAbort (s : State) (w : Nat) : State :=
  (s.setReg .TXU_LAST 0 w).bump F.TXU_CNT_ABORTS 0 1

/-- Signature bit numbers of a granule (R264). -/
def sigBits (g : Nat) : Nat × Nat := (g % 8192, (bits g 25 13) ^^^ (bits g 30 26) ^^^ 0x1555)

/-- The granule is a signature hit of a slot. -/
def TxSlot.sigHit (t : TxSlot) (g : Nat) : Bool :=
  let (a, b) := sigBits g
  t.sigUsed && t.sig.testBit a && t.sig.testBit b

/-- The granule is in the exact write set. -/
def TxSlot.inW (t : TxSlot) (g : Nat) : Bool := t.log.any fun e => e.1 = g
/-- The granule is in the exact read set. -/
def TxSlot.inR (t : TxSlot) (g : Nat) : Bool := t.reads.contains g
/-- The log's data of a granule. -/
def TxSlot.logData (t : TxSlot) (g : Nat) : Option Bytes := (t.log.find? fun e => e.1 = g).map (·.2)

/-- The requester number of a granule's latest write. -/
def TxSlot.reqOf (t : TxSlot) (g : Nat) : Nat := ((t.reqs.find? fun e => e.1 = g).map (·.2)).getD 0

/-- t with a granule added to its read set: exactly up to 4,096 granules, then in the signature (R264). -/
def TxSlot.addRead (t : TxSlot) (g : Nat) : TxSlot :=
  if t.inR g || t.inW g then t
  else if t.reads.length < 4096 && !t.sigUsed then { t with reads := t.reads ++ [g] }
  else
    let (a, b) := sigBits g
    { t with sigUsed := true, sig := t.sig ||| 2 ^ a ||| 2 ^ b }

/-- t with a granule's data in the log: a later write replaces the data (R263). -/
def TxSlot.addWrite (t : TxSlot) (g : Nat) (d : Bytes) : TxSlot :=
  if t.inW g then { t with log := t.log.map fun e => if e.1 = g then (g, d) else e } else { t with log := t.log ++ [(g, d)] }

/-- The log is full for a granule not yet in it (R264: the 1,025th distinct granule). -/
def TxSlot.wouldOverflow (t : TxSlot) (g : Nat) : Bool := !t.inW g && decide (1024 ≤ t.log.length)

/-- Slot a's transaction is older than slot b's (R255): smaller stamp; then a package transaction; then the lower slot. -/
def State.older (s : State) (a b : Nat) : Bool :=
  let x := (s.slot a).stamp
  let y := (s.slot b).stamp
  if x ≠ y then decide (x < y)
  else if decide (56 ≤ a) ≠ decide (56 ≤ b) then decide (56 ≤ a)
  else decide (a < b)

/-- The spout leaves its aborted transaction for its handler (R259): g[GD] takes the abort word, the loop stack returns to its depth at
TBEGIN, outstanding reads are discarded, and every other register stays. -/
def Spout.toHandler (x : Spout) (handler depth gd word : Nat) : Spout :=
  { x with
    pc := handler, g := Store.put 0 x.g gd (BitVec.ofNat 64 word), loops := x.loops.take depth,
    outs := x.outs.filter fun o => o.write, waiting := .none, tx := none, txAbort := none, signals := [], prog := none }

/-- s with member m of an aborted transaction sent to its handler (R259): at once in WAIT and in RUN, where an instruction in progress issues nothing
more and gives up its units, and otherwise when it leaves PAUSED or its bus-error stop, with the word kept until then.
(DEDUCED: notes/assumptions/53.md.) -/
def State.memberAborts (s : State) (m : Nat × Nat × Nat × Nat) (word : Nat) : State :=
  let (sp, handler, depth, gd) := m
  let x := s.sp sp
  let st := s.spSt sp
  if st = 3 ∨ st = 2 then
    (s.releaseUnits sp).updSp sp (fun y => y.toHandler handler depth gd word) |>.setSpSt sp 2
  else if st = 4 ∨ (sp < 32 ∧ (s.rd F.SLC_GSTOP_STOPMASK 0).testBit sp) then
    (s.releaseUnits sp).setSp sp
      { x with txAbort := some (handler + 2 ^ 48 * (depth + 8 * gd) + 2 ^ 64 * word), tx := none, signals := [], prog := none,
               outs := x.outs.filter fun o => o.write,
               waiting := match x.waiting with | .grant _ | .deps _ | .word _ _ _ => .none | w => w }
  else s.setSp sp { x with tx := none, signals := [] }

/-- The spout takes the handler that waits for its instruction boundary. -/
def Spout.takePending (x : Spout) : Spout :=
  match x.txAbort with
  | none => x
  | some v => x.toHandler (v % 2 ^ 48) ((v / 2 ^ 48) % 8) ((v / 2 ^ 51) % 16) (v / 2 ^ 64)

/-- This instance's vote on package transaction x: YES or not, an empty write set, and the abort word of a NO (R271 step 3). -/
def State.castVote (s : State) (x : Nat) (yes empty : Bool) (word : Nat) : State := s.send 0x16 false true s.mgr [x, b2n yes, b2n empty, word]

/-- s with slot t aborted: its log discarded, the slot CLOSED, the word reported, every member spout but those of `stopped` sent to its
handler; an instance that aborts a package slot while ACTIVE tells the manager, and votes NO where its vote is asked for (R259, R271). -/
def State.txClose (s : State) (t word : Nat) (stopped : List Nat) (tell : Bool) : State :=
  let x := s.slot t
  let s1 := (s.updSlot t fun y =>
    { y with st := .closed, log := [], wset := [], reqs := [], reads := [], sig := 0, sigUsed := false, members := [], ready := [],
             word := word, indoubt := false, asked := false }).reportAbort word
  let s2 := foldS x.members s1 fun u m =>
    if stopped.contains m.1 then u.updSp m.1 fun y => { y with tx := none, txAbort := none, signals := [] } else u.memberAborts m word
  if tell && decide (56 ≤ t) && x.st == .active then
    let s3 := s2.send 0x19 false true s2.mgr [t - 56, word]
    if x.asked then s3.castVote (t - 56) false false word else s3
  else s2

/-- s with slot t aborted with a code, a detail and the granule that caused it. -/
def State.txAbort (s : State) (t code detail : Nat) (g : Option Nat) : State :=
  s.txClose t (abortWord code detail t s.me g) [] true

/-- s with the transaction of a spout aborted by what stops the spout itself: no handler (R259). -/
def State.txStop (s : State) (sp code detail : Nat) : State :=
  match (s.sp sp).tx with
  | none => s
  | some t =>
    if (s.slot t).st = .active then s.txClose t (abortWord code detail t s.me none) [sp] true
    else s.updSp sp fun y => { y with tx := none, txAbort := none }

/-- s with an abort at TBEGIN that took no slot: the word goes to TXU_LAST and the spout continues at its handler (R257, R260). -/
def State.txRefuse (s : State) (sp code handler gd : Nat) : State :=
  let w := abortWord code 0 0 s.me none
  let s1 := s.reportAbort w
  (s1.updSp sp fun x => x.toHandler handler x.loops.length gd w).setSpSt sp 2

/-- What row 5 of R29 decides for a request: go on, wait at the ordering point, or its own transaction aborts with a code on a granule. -/
inductive Verdict where
  | go
  | hold
  | lose (code g : Nat)
deriving DecidableEq, Repr

/-- The conflict of a granule with another slot (R265): none, held, the arriving transaction loses, or an ACTIVE slot to be aborted by the
winner with a code. -/
inductive Clash where
  | no
  | hold
  | lose
  | active (code : Nat)
deriving DecidableEq, Repr

/-- The row of the conflict table of R265 for a request of kind `write` and transaction `tx` on granule g against slot t. -/
def TxSlot.clash (t : TxSlot) (write tx : Bool) (g : Nat) : Clash :=
  match t.st with
  | .active =>
    if write then
      if t.inW g || t.inR g then .active (if tx then 0x01 else 0x02)
      else if t.sigHit g then .active 0x03 else .no
    else if tx && t.inW g then .active 0x01 else .no
  | .prepared =>
    if tx then
      if (write && (t.inW g || t.inR g || t.sigHit g)) || (!write && t.inW g) then .lose else .no
    else if (write && (t.inW g || t.inR g || t.sigHit g)) || (!write && t.inW g) then .hold else .no
  | .committing =>
    if tx then (if t.wset.contains g then .lose else .no) else if write && t.inW g then .hold else .no
  | _ => .no

/-- Every clash of a request's granules with the slots other than its own. -/
def State.clashes (s : State) (write : Bool) (own : Option Nat) (gs : List Nat) : List (Nat × Nat × Clash) :=
  (List.range 64).flatMap fun t =>
    if own = some t then [] else
    gs.filterMap fun g =>
      match (s.slot t).clash write own.isSome g with
      | .no => none
      | c => some (t, g, c)

/-- Row 5 of R29 (R265): the verdict on a request, and s with the losing transactions aborted. A transactional request wins only if it is
older than every ACTIVE transaction it conflicts with; it then aborts all of them. -/
def State.conflict (s : State) (write : Bool) (own : Option Nat) (gs : List Nat) : Verdict × State :=
  let cs := s.clashes write own gs
  match cs.find? fun c => c.2.2 = .lose with
  | some c => (.lose 0x01 c.2.1, s)
  | none =>
    let act := cs.filterMap fun c => match c.2.2 with | .active k => some (c.1, c.2.1, k) | _ => none
    match own with
    | some o =>
      match act.find? fun c => !s.older o c.1 with
      | some c => (.lose c.2.2 c.2.1, s)
      | none => (.go, foldS act s fun u c => if (u.slot c.1).st = .active then u.txAbort c.1 c.2.2 0 (some c.2.1) else u)
    | none =>
      if cs.any fun c => c.2.2 = .hold then (.hold, s)
      else (.go, foldS act s fun u c => if (u.slot c.1).st = .active then u.txAbort c.1 c.2.2 0 (some c.2.1) else u)

/-- The slot in COMMITTING whose log still holds a granule, if any: reads of the granule are served from it (R36 step 4, R265). -/
def State.committingLog (s : State) (g : Nat) : Option (Nat × Bytes) :=
  (List.range 64).findSome? fun t =>
    if (s.slot t).st = .committing then ((s.slot t).logData g).map fun d => (t, d) else none

/-- s with SIGNAL events of a committed transaction sent by a member (R267, R269). -/
def State.sendSignals (s : State) (sp : Nat) : State :=
  let base := if sp < 32 then 0x0982 else if sp < 160 then 0x0A82 else 0x1282
  let s1 := foldS (s.sp sp).signals s fun u e => u.emit base (Un.spout sp) e.1 e.2
  s1.updSp sp fun x => { x with signals := [] }

/-- The commit point of slot t (R267): the slot enters COMMITTING and TXU_CSEQ and COMMITS count it; member spouts continue after TCOMMIT
with g[GD] holding the sequence number (R258); log writes of fenced pseudo-channels are dropped and counted (R268). An empty write set is
applied at once. -/
def State.commitPoint (s : State) (t : Nat) : State :=
  let seq := (s.reg .TXU_CSEQ 0 + 1) % 2 ^ 64
  let x := s.slot t
  let lost := x.log.filter fun e => s.fenced (s.map.loc (e.1 * 64)).pc
  let keep := x.log.filter fun e => !s.fenced (s.map.loc (e.1 * 64)).pc
  let s1 := (s.setReg .TXU_CSEQ 0 seq).bump F.TXU_CNT_COMMITS 0 1
  let s2 := if lost.isEmpty then s1 else s1.bump F.GLB_MAPSTAT_FENCE_LOST 0 lost.length
  let s3 := s2.updSlot t fun y => { y with st := if keep.isEmpty then .closed else .committing, log := keep,
                                            wset := keep.map (·.1), members := [], ready := [], indoubt := false }
  foldS x.members s3 fun u m =>
    let u1 := u.sendSignals m.1
    let u2 := u1.updSp m.1 fun y =>
      { y with tx := none, waiting := .none, g := if y.waiting = .commit then Store.put 0 y.g ((y.waitPc / 2 ^ 48) % 16) (BitVec.ofNat 64 seq) else y.g,
               pc := if y.waiting = .commit then y.waitPc % 2 ^ 48 else y.pc }
    if (u.sp m.1).waiting = .commit then u2.wakeSp m.1 else u2

/-! ## The record area (R273) -/

/-- The record area at byte address a lies wholly inside a privileged region as last filled and clear of the bitmap home (03_address_map.md R93). -/
def State.recordArea (s : State) (a : Nat) : Bool :=
  let inside := s.map.regions.any fun r => decide (r.2.1 * 2 ^ 21 ≤ a ∧ a + 2 ^ 20 ≤ (r.2.1 + r.2.2) * 2 ^ 21)
  let home := match s.map.regions.find? fun r => r.1 = 0 with
    | some r => r.2.1 * 2 ^ 21
    | none => 0
  inside && decide (a + 2 ^ 20 ≤ home ∨ home + 2400 * 1024 ≤ a)

/-- s with VALID of TXU_RECBASE evaluated again. -/
def State.evalRecbase (s : State) : State := s.wrB F.TXU_RECBASE_VALID 0 (s.recordArea (s.rd F.TXU_RECBASE_BASE 0 * 2 ^ 20))

end Sys2Proof.Machine
end

