-- ==== Sys2Proof/Machine/Ending.lean ====
section
/-! DEFINITION. Sys2Proof/Machine/Ending.lean: the registers of a spout (04_zynsa_model.md R102), how its instructions and commands end: faults, stops,
boundaries (R114, R123, R126), and the progress and the completion of a data instruction as its writes are accepted (R118; 08_sluice_channels.md
R220, R243). -/
namespace Sys2Proof.Machine

/-! ## Registers -/

/-- g register n. -/
def Spout.gv (x : Spout) (n : Nat) : Nat := (Store.get 0 x.g n).toNat
/-- a register n. -/
def Spout.av (x : Spout) (n : Nat) : Nat := (Store.get 0 x.a n).toNat
/-- k register n. -/
def Spout.kv (x : Spout) (n : Nat) : Nat := (Store.get 0 x.k n).toNat
/-- Descriptor n. -/
def Spout.dv (x : Spout) (n : Nat) : Nat := (Store.get 0 x.d n).toNat
/-- Predicate n; p0 reads 1 (R102). -/
def Spout.pv (x : Spout) (n : Nat) : Bool := n == 0 || x.p.getLsbD n
/-- The register that a selector names, zero-extended (06_zynsa_encoding.md R162). -/
def Spout.sel (x : Spout) (n : Nat) : Nat := if n < 16 then x.gv n else if n < 24 then x.av (n - 16) else x.kv (n - 24)
/-- x with g register n written. -/
def Spout.setG (x : Spout) (n v : Nat) : Spout := { x with g := Store.put 0 x.g n (BitVec.ofNat 64 v) }
/-- x with the register that a selector names written with its low bits. -/
def Spout.setSel (x : Spout) (n v : Nat) : Spout :=
  if n < 16 then x.setG n v
  else if n < 24 then { x with a := Store.put 0 x.a (n - 16) (BitVec.ofNat 48 v) }
  else { x with k := Store.put 0 x.k (n - 24) (BitVec.ofNat 32 v) }
/-- x with descriptor n written. -/
def Spout.setD (x : Spout) (n v : Nat) : Spout := { x with d := Store.put 0 x.d n (BitVec.ofNat 128 v) }
/-- x with predicate n written; a write to p0 is ignored. -/
def Spout.setP (x : Spout) (n : Nat) (b : Bool) : Spout :=
  if n = 0 then x else { x with p := BitVec.ofNat 8 (setBitTo x.p.toNat n b) }
/-- The 16 bits of tile t of the tile map (R111). -/
def Spout.tile (x : Spout) (t : Nat) : Nat := bits x.tiles.toNat (16 * t + 15) (16 * t)
/-- Tile t is valid, its first byte in the tile store and its length in bytes (R104). -/
def Spout.tileV (x : Spout) (t : Nat) : Bool := (x.tile t).testBit 15
def Spout.tileBase (x : Spout) (t : Nat) : Nat := bits (x.tile t) 13 6 * 4096
def Spout.tileSize (x : Spout) (t : Nat) : Nat := bits (x.tile t) 5 0 * 4096
/-- The loop stack's depth. -/
def Spout.depth (x : Spout) : Nat := x.loops.length

/-! ## The end of a command -/

/-- s with a spout taken out of the members of its transaction's slot. -/
def State.leaveTx (s : State) (sp : Nat) : State :=
  match (s.sp sp).tx with
  | none => s
  | some t => (s.updSlot t fun y => { y with members := y.members.filter fun m => m.1 ≠ sp }).updSp sp fun x => { x with tx := none, txAbort := none, signals := [] }

/-- s with the service calls of a spout given up: those in the font's queue of 64 lose their answer, those that wait for room go. -/
def State.dropCalls (s : State) (sp : Nat) : State :=
  let l := s.font.calls
  let h := (l.take 64).map fun c => if c.sp = sp then { c with call := false } else c
  { s with font := { s.font with calls := h ++ (l.drop 64).filter fun c => c.sp ≠ sp || !c.call } }

/-- s with a spout's command ending under code c (R114): nothing further issues, outstanding reads are discarded, the loop stack stays
(06_zynsa_encoding.md R178), and COMMAND_COMPLETE finishes it. -/
def State.ending (s : State) (sp c : Nat) : State :=
  ((s.dropCalls sp).releaseUnits sp).updSp sp fun x =>
    { x with finish := some c, waiting := .none, prog := none, stopReq := none, fences := [], outs := x.outs.filter fun o => o.write }

/-- s with the fault registers of a spout written (R123). -/
def State.recordFault (s : State) (sp c fpc faddr progress : Nat) (imprecise : Bool) : State :=
  ((((s.wr F.DBL_STAT_FAULT sp c).wr F.DBL_STAT_PROGRESS sp (min progress 0xFFFFFFFF)).wrB F.DBL_STAT_IMPRECISE sp imprecise).wr
    F.DBL_FPC_PC sp fpc).wr F.DBL_FADDR_ADDR sp faddr

/-- s with a spout stopped by fault c at its instruction (R123, R124): the fault is recorded, an open transaction aborts with FAULT, and the command
finishes with the code. -/
def State.fault (s : State) (sp c faddr progress : Nat) : State :=
  let x := s.sp sp
  ((s.recordFault sp c x.pc faddr progress false).txStop sp 0x0B c).ending sp c

/-- s with a spout's command ended from outside under code c and abort code a (R126, R128): STOPPED, COMPUTE_RESET or ENGINE_RESET. -/
def State.stopCmd (s : State) (sp c a : Nat) : State :=
  let x := s.sp sp
  ((s.recordFault sp c x.pc 0 0 false).txStop sp a 0).ending sp c

/-! ## Instruction boundaries -/

/-- s with a spout stopped by an engine reset (07_jet_engines.md R216, 08_sluice_channels.md R248): its transaction aborts and one event is sent; no
record is written. -/
def State.engineStop (s : State) (n : Nat) : State :=
  let x := s.sp n
  let s1 := ((s.recordFault n 0xF1 x.pc 0 0 false).txStop n 0x0F 0).spEvent n 0x81 (x.cmd.cmdId * 2 ^ 16 + 0xF1) x.pc
  ((((s1.dropCalls n).releaseUnits n).leaveTx n).updSp n fun y =>
    { y with finish := none, waiting := .none, prog := none, stopReq := none, fences := [], loops := [], cmd := CmdInfo.none,
             outs := y.outs.filter fun o => o.write }).setSpSt n 0

/-- s at an instruction boundary of a spout: a requested stop ends the command, and an aborted transaction takes its handler (R126, R259). -/
def State.boundary (s : State) (sp : Nat) : State :=
  let x := s.sp sp
  match x.stopReq with
  | some c => if c = 0xF1 then s.engineStop sp else s.stopCmd sp c (if c = 0xF0 then 0x10 else 0x0F)
  | none => s.setSp sp x.takePending

/-- The address after an instruction (R160). -/
def Spout.nextPc (x : Spout) (h : Hdr) : Nat := (x.pc + (if h.x then 16 else 8)) % 2 ^ 48

/-- s with a spout continuing at an address. -/
def State.goto (s : State) (sp a : Nat) : State := (s.updSp sp fun x => { x with pc := a % 2 ^ 48, seq := x.seq + 1 }).boundary sp

/-- s with the instruction of a spout complete: on to the next. -/
def State.done (s : State) (h : Hdr) : State := s.goto h.sp.val ((s.sp h.sp.val).nextPc h)

/-! ## The writes of a data instruction -/

/-- The request is one of an instruction's data, not of the command or the program. -/
def Out.isData (o : Out) : Bool :=
  match o.need with
  | .entry | .line _ => false
  | _ => true

/-- s with numeric flags set for a jet's spout (05_number_formats.md R150). -/
def State.setFlags (s : State) (sp f : Nat) : State :=
  if spKind sp ≠ 1 then s
  else
    let e := jetOf sp
    let k := (sp - 32) % 4
    let v := s.reg .JET_NFLAG e
    s.setReg .JET_NFLAG e (v ||| (f % 128) * 2 ^ (8 * k))

/-- The request brings source data, or the answer of an indivisible access, that a data instruction waits for. -/
def Out.isBulk (o : Out) : Bool :=
  match o.need with
  | .bulk _ | .upd _ => true
  | _ => false

/-- The request has been accepted and not refused (04_zynsa_model.md R118). -/
def Out.landed (o : Out) : Bool := o.accepted && (match o.resp with | some (c, _) => c == 0 | none => true)

/-- The element up to which every write before it has landed, of a write of the data instruction in hand that has not landed. -/
def Out.short (o : Out) : Option Nat :=
  match o.need with
  | .put m => if o.landed then none else some m
  | _ => none

/-- Elements complete of a spout's data instruction (08_sluice_channels.md R220): those before the first whose write has not been accepted, whether
it still waits in the write buffer or at its ordering point. -/
def Spout.progress (x : Spout) : Nat :=
  match x.prog with
  | none => 0
  | some q => (x.outs.filterMap Out.short).foldl min (if q.wbuf.isSome then q.wstart else q.elems)

/-- s with MOV_HALF of channel sp sent when the bytes of its instruction first reach half of the total (R243), unless the delivery buffer is full
(20_events_and_sediment.md R544). -/
def State.noteHalf (s : State) (sp : Nat) : State :=
  match (s.sp sp).prog with
  | none => s
  | some q =>
    let bytes := s.rd F.SLC_BYTES_BYTES sp
    if q.half && decide (0 < q.total ∧ q.total ≤ 2 * bytes) && !s.evFull then
      (s.spEvent sp 0x01 (s.rd F.SLC_IPC_PC sp) bytes).updSp sp fun y => { y with prog := some { q with half := false } }
    else s

/-- s with the progress of channel sp's instruction reported after a write of it was accepted (R220). -/
def State.noteProgress (s : State) (sp : Nat) : State :=
  let x := s.sp sp
  match x.prog with
  | none => s
  | some q =>
    if 32 ≤ sp then s
    else ((s.wr F.SLC_ELEMS_ELEMS sp x.progress).wr F.SLC_BYTES_BYTES sp (x.progress * q.ub / 8)).noteHalf sp

/-- x with the register results of an instruction (by name: g registers, and 40 + p for predicates). -/
def Spout.setRegs (x : Spout) (l : List (Nat × Nat)) : Spout :=
  l.foldl (fun y e => if e.1 < 16 then y.setG e.1 e.2 else y.setP (e.1 - 40) (e.2 != 0)) x

/-- The events of its own that an instruction still sends at its end find room (20_events_and_sediment.md R544). -/
def State.mayEnd (s : State) (q : InProg) : Bool := !((q.half && decide (0 < q.total) || q.full) && s.evFull)

/-- s with a data instruction that has issued its last write ended once every write of it has landed (R118, R123): its flags and generator stay
(05_number_formats.md R145, R150), and it completes with its register results and MOV_FULL, or faults. (DESIGN CHOICE: notes/assumptions/50.md.) -/
def State.endData (s : State) (sp : Nat) : State :=
  let x := s.sp sp
  match x.prog with
  | none => s
  | some q =>
    match q.closed with
    | none => s
    | some r =>
      if (x.outs.any fun o => o.short.isSome) || (r.isNone && !s.mayEnd q) then s
      else
        let s1 := (s.updSp sp fun y => { y with gen := BitVec.ofNat 64 q.gen }).setFlags sp q.flags
        match r with
        | some (c, a) => s1.fault sp c a q.elems
        | none =>
          let s2 := s1.noteHalf sp
          let s3 := if q.full then s2.spEvent sp 0x02 (s2.rd F.SLC_IPC_PC sp) (s2.rd F.SLC_BYTES_BYTES sp) else s2
          ((s3.releaseUnits sp).updSp sp fun y => { y.setRegs q.results with prog := none, outs := y.outs.filter fun o => !o.isBulk }).goto sp q.next

/-- s after a request of a spout was accepted or answered: its instruction's progress, and its end where that was its last write. -/
def State.landedAt (s : State) (sp : Nat) : State := (s.noteProgress sp).endData sp

end Sys2Proof.Machine
end

