-- ==== Sys2Proof/Machine/Frames.lean ====
section
/-! DEFINITION. Sys2Proof/Machine/Frames.lean: making aqueduct frames, routes, and the entrance of a port's weir (13_aqueduct_ring.md R381 to
R386; 14_weir_shaping.md R389, R397, R401). -/
namespace Sys2Proof.Machine

/-- A frame with every field 0. -/
def Frame.zero : Frame :=
  { typ := 0, dst := 0, src := 0, label := 0, priv := false, rtag := 0, size := 3, ttl := 0, op := 0, ew := 0, addr := 0, lseq := 0, lack := 0,
    nak := false, code := 0, deadRead := false, payload := [] }

/-- Length of a frame (R390). -/
def Frame.len (f : Frame) : Nat := 32 + f.payload.length

/-- The frame carries LSEQ: requests, responses and ring-state frames (R377). -/
def Frame.counted (f : Frame) : Bool := [0x01, 0x02, 0x03, 0x04, 0x08, 0x10].contains f.typ.toNat

/-- Package node number (R379). -/
def State.node (s : State) : Nat := s.rd F.AQD_RING_NODE 0

/-- The route to a node (R381): 0 none, 1 east, 2 west, 3 this node. -/
def State.route (s : State) (n : Nat) : Nat := s.rd F.AQD_ROUTE_DIR n

/-- STATE of aqueduct port p (R368): 0 OFF, 1 DETECT, 2 LOOP, 3 TRAIN, 4 UP, 5 FAILED, 6 DISABLED. -/
def State.aqSt (s : State) (p : Nat) : Nat := s.rd F.AQD_STAT_STATE p

/-- The WEI_Q[q] value in force on port p. -/
def State.weiLive (s : State) (p q : Nat) : Nat := Store.get (Reg.resetVal .WEI_Q q) (s.weir p).live q

/-- The frames of queue q of a weir. -/
def Weir.q (w : Weir) (q : Nat) : List (Bool × Frame) := Store.get [] w.queues q
/-- w with queue q replaced. -/
def Weir.setQ (w : Weir) (q : Nat) (l : List (Bool × Frame)) : Weir := { w with queues := Store.put [] w.queues q l }

/-- The queue of a label's class under the class map in force (R389). -/
def Weir.queueOf (w : Weir) (label : Nat) : Nat := (w.liveC / 8 ^ (label / 256)) % 8

/-- Local and transit frames of a queue. -/
def Weir.localLen (w : Weir) (q : Nat) : Nat := ((w.q q).filter fun e => !e.1).length
/-- Transit frames of a queue. -/
def Weir.transitLen (w : Weir) (q : Nat) : Nat := ((w.q q).filter fun e => e.1).length

/-- QDEPTH in force. -/
def State.qdepth (s : State) (p q : Nat) : Nat := bits (s.weiLive p q) 53 44

/-- s with the remote request of tag rtag taken by the weir (R383; 04_zynsa_model.md R117, R118): a spout's write counts as accepted. -/
def State.markTaken (s : State) (rtag : Nat) : State :=
  match s.ring.remotes.find? fun r => r.rtag = rtag with
  | none => s
  | some r =>
    let s1 := { s with ring := { s.ring with remotes := s.ring.remotes.map fun x => if x.rtag = rtag then { x with taken := true } else x } }
    match r.origin with
    | .spout sp idx =>
      (s1.updSp sp fun x => { x with outs := x.outs.map fun o => if o.idx = idx && o.write then { o with accepted := true } else o }).landedAt sp
    | _ => s1

/-- A request frame (R377). -/
def requestFrame (f : Frame) : Bool := [0x01, 0x02, 0x03, 0x04].contains f.typ.toNat

/-- s with a local data frame offered to the weir of port p: it enters its class's queue, or is held at its source while the queue holds QDEPTH
local frames or its class changes queue (R397, R401). -/
def State.weirLocal (s : State) (p : Nat) (f : Frame) : State :=
  let w := s.weir p
  let q := w.queueOf f.label.toNat
  if (w.holdC.any fun h => h.1 = f.label.toNat / 256) || decide (s.qdepth p q ≤ w.localLen q) then s.updWeir p fun w => { w with parked := w.parked ++ [f] }
  else
    let s1 := s.updWeir p fun w => w.setQ q (w.q q ++ [(false, f)])
    if requestFrame f then s1.markTaken f.rtag.toNat else s1

/-- s with a link frame waiting on port p (R389). -/
def State.linkFrame (s : State) (p : Nat) (f : Frame) : State := s.updAq p fun a => { a with outNow := a.outNow ++ [f] }

/-- The size code of a transfer (R376). -/
def sizeCode (n : Nat) : BitVec 2 := if n = 64 then 0 else if n = 128 then 1 else if n = 256 then 2 else 3

/-- s with a RESP frame sent toward a node (R385); without a route it is dropped. -/
def State.sendResp (s : State) (node rtag label code : Nat) (dead : Bool) (payload : Bytes) : State :=
  let f : Frame :=
    { Frame.zero with typ := 0x08, dst := BitVec.ofNat 6 node, src := BitVec.ofNat 6 s.node, label := BitVec.ofNat 12 label,
                      rtag := BitVec.ofNat 12 rtag, size := sizeCode payload.length, ttl := 63, code := BitVec.ofNat 3 code,
                      deadRead := dead, payload := payload }
  match s.route node with
  | 1 => s.weirLocal 0 f
  | 2 => s.weirLocal 1 f
  | _ => s

/-- The first RTAG from a number on that no outstanding request uses; with all 4,096 in use, a number beyond them, which is exchanged for a tag
when the request leaves its source. (DEDUCED: notes/assumptions/19.md.) -/
def State.freeTag (s : State) : Nat :=
  let used := fun k => s.ring.remotes.any fun r => r.rtag = k
  match (List.range 4096).find? fun k => !used ((s.ring.nextTag + k) % 4096) with
  | some k => (s.ring.nextTag + k) % 4096
  | none => ((List.range (s.ring.remotes.length + 1)).map (4096 + ·)).find? (fun k => !used k) |>.getD 4096

/-- s with a remote request of the instance turned into a frame (R383): an entry for its response, and the frame offered to the routed
port's weir, or held while the route of the node changes port (R382) or an earlier request for the node is held (04_zynsa_model.md R121). -/
def State.sendRemote (s : State) (origin : Origin) (node : Nat) (f : Frame) (size : Nat) (reads : Bool) : State :=
  let port := s.route node - 1
  let tag := s.freeTag
  let g := { f with rtag := BitVec.ofNat 12 tag, src := BitVec.ofNat 6 s.node, dst := BitVec.ofNat 6 node, ttl := 63 }
  let r : Remote := { rtag := tag, origin := origin, node := node, port := port, size := size, reads := reads, taken := false }
  let s1 := { s with ring := { s.ring with remotes := s.ring.remotes ++ [r], nextTag := (tag % 4096 + 1) % 4096 } }
  let behind := s.ring.held.any fun h => s.ring.remotes.any fun x => x.rtag = h.1 && x.node == node
  if (s.ring.changed.any fun c => c.1 = node) || behind || decide (4096 ≤ tag) then
    { s1 with ring := { s1.ring with held := s1.ring.held ++ [(tag, g)] } }
  else s1.weirLocal port g

end Sys2Proof.Machine
end

