-- ==== Sys2Proof/Machine/Stack.lean ====
section
/-! DEFINITION. Sys2Proof/Machine/Stack.lean: the stack memory under the ordering points: raw access to a granule and its check slot
(03_address_map.md R83; 10_rills.md R281), the remap table (12_data_integrity.md R357), error records (R362, R363), responses
(02_ports.md R46), retirement (03_address_map.md R84), decoding (12_data_integrity.md R339 to R344), the memory-side cache
(11_intake_and_basin.md R321 to R329). -/
namespace Sys2Proof.Machine

/-! ## Raw memory -/

/-- The memory byte at a key; a byte never written reads 0 (DESIGN CHOICE: notes/assumptions/4.md). -/
def State.memB (s : State) (k : Nat) : Byte := Store.get 0#8 s.mem k

/-- n memory bytes from key k. -/
def State.memRun (s : State) (k n : Nat) : Bytes := (List.range n).map fun i => s.memB (k + i)

/-- Memory m with the bytes l from key k. -/
def putRun (m : Store Byte) : Nat → Bytes → Store Byte
  | _, [] => m
  | k, b :: l => putRun (Store.put 0#8 m k b) (k + 1) l

/-- s with the memory bytes from key k replaced by l. -/
def State.setRun (s : State) (k : Nat) (l : Bytes) : State := { s with mem := putRun s.mem k l }

/-- The bank of a place. -/
def Loc.bank (x : Loc) : Nat := bankOf x.page

/-- The page of the place is open in its bank. -/
def Bank.showsPage (b : Bank) (page : Nat) : Bool := b.row.isSome && b.page == page

/-- The check bytes of a granule: from the check buffer of its open row where the buffer holds the slot, else from memory (R281). -/
def State.checkOf (s : State) (x : Loc) : Bytes :=
  let b := (s.pc x.pc).bank x.bank
  let col := if x.slot < 8 then 0 else 1
  if b.showsPage x.page && (b.held.getLsbD col || b.changed.testBit x.slot) then sliceB b.chk (4 * x.slot) 4
  else s.memRun (memKey x.pc x.page (960 + 4 * x.slot)) 4

/-- The 64 data and 4 check bytes of a granule as stored. -/
def State.rawGranule (s : State) (x : Loc) : Bytes := s.memRun (memKey x.pc x.page (64 * x.slot)) 64 ++ s.checkOf x

/-- s with the check slot of a granule written: in the check buffer while its page is open, else in memory. -/
def State.setCheck (s : State) (x : Loc) (c : Bytes) : State :=
  let b := (s.pc x.pc).bank x.bank
  if b.showsPage x.page then
    let base := if b.chk.length = 64 then b.chk else bytesOf 64 0#8
    s.updPc x.pc fun p => p.setBank x.bank { b with chk := patchB base (4 * x.slot) c, changed := b.changed ||| 2 ^ x.slot }
  else s.setRun (memKey x.pc x.page (960 + 4 * x.slot)) c

/-- s with the 68 bytes of a granule stored. -/
def State.setGranuleRaw (s : State) (x : Loc) (w : Bytes) : State :=
  (s.setRun (memKey x.pc x.page (64 * x.slot)) (w.take 64)).setCheck x (w.drop 64)

/-! ## The remap table (R357) -/

/-- The remap entry that holds a place. -/
def State.remapOf (s : State) (x : Loc) : Option Nat :=
  (List.range 32).find? fun i =>
    s.flag F.RAS_REMAP_VALID i && s.rd F.RAS_REMAP_PC i == x.pc && s.rd F.RAS_REMAP_PAGE i == x.page && s.rd F.RAS_REMAP_SLOT i == x.slot

/-- The data of a remap slot, or none where it reads as poisoned (POISON set, or the remap SRAM failed its self-test, R361). -/
def State.slotData (s : State) (i : Nat) : Option Bytes :=
  if s.flag F.RAS_REMAP_POISON i || s.flag F.RAS_STSPARE_SRAMFAIL 0 then none else Store.get none s.ras.slots i

/-- s with remap slot i holding data, its POISON cleared. -/
def State.setSlot (s : State) (i : Nat) (d : Bytes) : State :=
  (s.wrB F.RAS_REMAP_POISON i false |> fun t => { t with ras := { t.ras with slots := Store.put none t.ras.slots i (some d) } })

/-! ## Error records (R362, R363) -/

/-- s with an error record written and counted: type, source, place, whether a window granule, label, address, failing symbols, syndrome. -/
def State.errRecord (s : State) (typ src : Nat) (x : Loc) (win : Bool) (label : Nat) (addr : Option Nat) (sym0 sym1 synd : Nat) : State :=
  let n := s.rd F.RAS_ERRPTR_COUNT 0
  let w1 := typ * 2 ^ 60 + src * 2 ^ 56 + x.pc * 2 ^ 50 + sidOf x.page * 2 ^ 47 + bgOf x.page * 2 ^ 45 + baOf x.page * 2 ^ 43
    + rowOf x.page * 2 ^ 29 + x.slot * 2 ^ 25 + b2n win * 2 ^ 24 + label * 2 ^ 12
  let w2 := match addr with
    | some a => 2 ^ 63 + a
    | none => 0
  let w3 := sym0 * 2 ^ 57 + sym1 * 2 ^ 50 + synd % 2 ^ 32
  let old := Store.find s.ras.ring (n % 256)
  let lost := match old with
    | some r => !r.read
    | none => false
  let s1 := { s with ras := { s.ras with ring := Store.insert s.ras.ring (n % 256) { words := [s.wall, w1, w2, w3], read := false } } }
  let s2 := if lost then s1.bump F.RAS_ERRPTR_LOST 0 1 else s1
  let s3 := s2.wr F.RAS_ERRPTR_COUNT 0 ((n + 1) % 2 ^ 32)
  match typ with
  | 1 =>
    let s4 := (s3.bump F.RAS_PCCNT_CE x.pc 1).updPc x.pc fun p => { p with ceCount := p.ceCount + 1 }
    let p := s4.pc x.pc
    if !p.ceSent && decide (p.ceThr ≤ p.ceCount) then
      (s4.updPc x.pc fun q => { q with ceSent := true }).emit Ev.CE_STORM (Un.pc x.pc) p.ceCount 0
    else s4
  | 2 => (s3.bump F.RAS_PCCNT_UE x.pc 1).emit Ev.UE (Un.pc x.pc) (addr.getD 0) n
  | 3 => s3.bump F.RAS_PCCNT_HARD x.pc 1
  | 4 => (s3.bump F.RAS_PCCNT_RMWLOST x.pc 1).emit Ev.RMW_LOST (Un.pc x.pc) (addr.getD 0) 0
  | _ => s3

/-! ## The cache (R321 to R329) -/

/-- The set of a chunk (R321). -/
def setOf (c : Nat) : Nat := (c ^^^ (c >>> 14) ^^^ (c >>> 28)) % 17408

/-- The chunk can be cached: its set is in part A, or quadrants 2 and 3 are powered (R323). -/
def State.cacheable (s : State) (c : Nat) : Bool := decide (setOf c < 1024) || !s.bGated

/-- The line of a chunk. -/
def Basin.line (b : Basin) (c : Nat) : Option Line := b.lines.find? fun l => l.chunk = c

/-- How many lines of a list are pinned. -/
def pinnedIn (ls : List Line) : Nat := (ls.filter fun l => l.pinned.isSome).length

/-- s with the cache lines that satisfy p dropped, and PIN_LOST recorded with the count of pinned ones (R323). -/
def State.dropLines (s : State) (p : Line → Bool) (cause : Nat) : State :=
  let n := pinnedIn (s.basin.lines.filter p)
  let s1 := { s with basin := { s.basin with lines := s.basin.lines.filter fun l => !p l } }
  if n = 0 then s1 else s1.emit Ev.PIN_LOST Un.inst n cause

/-- Bytes of granule k of a line. -/
def Line.gran (l : Line) (k : Nat) : Bytes := sliceB l.data (64 * k) 64

/-- l with granule k valid and holding d. -/
def Line.setGran (l : Line) (k : Nat) (d : Bytes) : Line :=
  { l with valid := l.valid ||| 2 ^ k, data := patchB (if l.data.length = 256 then l.data else bytesOf 256 0#8) (64 * k) d }

/-- l with granule k no longer valid. -/
def Line.dropGran (l : Line) (k : Nat) : Line :=
  { l with valid := l.valid - (if l.valid.testBit k then 2 ^ k else 0),
           data := if l.data.length = 256 then patchB l.data (64 * k) (bytesOf 64 0#8) else l.data }

/-- An empty line of a chunk. -/
def Line.new (c : Nat) : Line := { chunk := c, valid := 0, data := [], pinned := none }

/-- b with an empty line for a chunk where it has none, replacing the least recently used unpinned way of a full set; unchanged where every
way is pinned (R322). -/
def Basin.allocate (b : Basin) (c : Nat) : Basin :=
  if (b.line c).isSome then b
  else
    let same := b.lines.filter fun l => setOf l.chunk = setOf c
    if same.length < 16 then { b with lines := b.lines ++ [Line.new c] }
    else
      match same.find? fun l => l.pinned.isNone with
      | some v => { b with lines := (b.lines.filter fun l => l.chunk ≠ v.chunk) ++ [Line.new c] }
      | none => b

/-- b with the line of a chunk now the most recently used. -/
def Basin.touch (b : Basin) (c : Nat) : Basin :=
  match b.line c with
  | some l => { b with lines := (b.lines.filter fun x => x.chunk ≠ c) ++ [l] }
  | none => b

/-- b with every line and buffer line of granule g's chunk changed by f at that granule. -/
def Basin.updGran (b : Basin) (g : Nat) (f : Line → Nat → Line) : Basin :=
  let h := fun (l : Line) => if l.chunk = g / 4 then f l (g % 4) else l
  { b with lines := b.lines.map h, buffer := b.buffer.map h }

/-- b after a write of granule g: the granule of a line that holds it takes the data (R322, R329). -/
def Basin.wrote (b : Basin) (g : Nat) (d : Bytes) : Basin := b.updGran g fun l k => if l.valid.testBit k then l.setGran k d else l

/-- b with a granule's data placed in the line of its chunk, if there is one. -/
def Basin.fillLine (b : Basin) (g : Nat) (d : Bytes) : Basin :=
  { b with lines := b.lines.map fun l => if l.chunk = g / 4 then l.setGran (g % 4) d else l }

/-- b with a granule placed in the prefetch buffer of 16,384 lines, the oldest dropped (R329). -/
def Basin.fillBuffer (b : Basin) (g : Nat) (d : Bytes) : Basin :=
  if b.buffer.any fun l => l.chunk = g / 4 then
    { b with buffer := b.buffer.map fun l => if l.chunk = g / 4 then l.setGran (g % 4) d else l }
  else
    let l := b.buffer ++ [(Line.new (g / 4)).setGran (g % 4) d]
    { b with buffer := if 16384 < l.length then l.drop 1 else l }

/-- The block is a dead one (R332): not valid, and in an entry of the dead-range table. -/
def Basin.deadBlock (b : Basin) (k : Nat) : Bool := b.dead.any fun e => decide (e.1 ≤ k ∧ k < e.1 + e.2)

/-! ## Requests by granule -/

/-- The granules a request touches, rising. -/
def Req.granules (r : Req) : List Nat := (List.range ((r.addr + r.size - 1) / 64 + 1 - r.addr / 64)).map (r.addr / 64 + ·)

/-- The bytes of granule g that a write enables, as a mask of 64 bits. -/
def Req.gmask (r : Req) (g : Nat) : Nat :=
  maskOf ((List.range 64).filter fun i => decide (r.addr ≤ 64 * g + i ∧ 64 * g + i < r.addr + r.size) && r.mask.testBit (64 * g + i - r.addr))

/-- The write enables every byte of granule g. -/
def Req.full (r : Req) (g : Nat) : Bool := r.gmask g == 2 ^ 64 - 1

/-- The write data of granule g, 0 outside the transfer. -/
def Req.gdata (r : Req) (g : Nat) : Bytes :=
  (List.range 64).map fun i => if r.addr ≤ 64 * g + i then r.data.getD (64 * g + i - r.addr) 0#8 else 0#8

/-- The bytes of granule g that the transfer covers, as a mask of 64 bits. -/
def Req.span (r : Req) (g : Nat) : Nat := maskOf ((List.range 64).filter fun i => decide (r.addr ≤ 64 * g + i ∧ 64 * g + i < r.addr + r.size))

/-- The request writes, or updates indivisibly. -/
def Req.writes (r : Req) : Bool := r.kind != .rd

/-- A write or a poison marker: answered at its acceptance, without a prior value. -/
def Req.plain (r : Req) : Bool := r.kind == .wr || r.kind == .mark

/-- The value an indivisible update leaves (R176, R210, R229, 13_aqueduct_ring.md R377): 0 store, 1 and 4 add, 2 OR, 3 unsigned maximum, 5 signed
minimum, 6 signed maximum, of w bytes. -/
def atomValue (op w old new : Nat) : Nat :=
  let a := sx (8 * w) old
  let b := sx (8 * w) new
  match op with
  | 0 => new % 2 ^ (8 * w)
  | 1 | 4 => (old + new) % 2 ^ (8 * w)
  | 2 => old ||| new
  | 3 => Nat.max old new
  | 5 => if b < a then new else old
  | _ => if a < b then new else old

/-- A bucket of a hash table after an indivisible step on it (07_jet_engines.md R204, R206): operation 1 stores the key and value in the lowest free slot
unless the key is there, 2 removes the key, 3 is 1 where some slot is EMPTY. -/
def bucketAfter (op w key val : Nat) (d : Bytes) : Bytes :=
  let empty := 2 ^ (8 * w) - 1
  let keyAt := fun s => leNat (sliceB d (2 * w * s) w)
  let slots := List.range (32 / w)
  match slots.find? fun s => keyAt s == key with
  | some s => if op = 2 then patchB d (2 * w * s) (toLE w (empty - 1)) else d
  | none =>
    if op = 2 || (op == 3 && !(slots.any fun s => keyAt s == empty)) then d
    else
      match slots.find? fun s => keyAt s == empty || keyAt s == empty - 1 with
      | some s => patchB d (2 * w * s) (toLE w key ++ toLE w val)
      | none => d

/-- A granule's data after a joined request: the bytes of a narrow write, or the update of the field at its address. -/
def Req.apply (r : Req) (g : Nat) (d : Bytes) : Bytes :=
  let k := r.addr % 64
  match r.kind with
  | .atom op w => patchB d k (toLE w (atomValue op w (leNat (sliceB d k w)) (leNat (r.data.take w))))
  | .num op fmt rm sat rnd v => patchB d k (toLE r.size (op.apply fmt rm sat rnd v (leNat (sliceB d k r.size))).1)
  | .bucket op w key val => bucketAfter op w key val d
  | _ => mergeB d (r.gdata g) (r.gmask g)

/-- The number of the source of a request in the rotation of 01_architecture.md R24: fabric ports 0 to 7, 8 the jet path, 9 the sluice path, 10 and
11 aqueduct east and west, 12 the font, 13 the transaction unit, 14 the block's own requests. A PREFETCH read takes its spout's path. (DEDUCED:
notes/assumptions/46.md.) -/
def Origin.source : Origin → Nat
  | .fabric p _ => p
  | .spout sp _ | .prefetch sp _ => if sp < 32 then 9 else if sp < 160 then 8 else 12
  | .remote p _ _ => 10 + p
  | .log _ => 13
  | _ => 14

/-- A background request (10_rills.md R284). -/
def Origin.background : Origin → Bool
  | .cwb | .verify | .scrub | .census _ _ => true
  | _ => false

/-! ## Places and stored bytes -/

/-- The place of granule g. -/
def State.gloc (s : State) (g : Nat) : Loc := s.map.loc (64 * g)

/-- s with shadow bytes of granule g stored: 32 bytes at the shadow half (R345). -/
def State.putShadow (s : State) (g : Nat) (sh : Bytes) : State :=
  match s.map.shadowOf (64 * g) with
  | none => s
  | some (a, _) =>
    let x := s.map.loc (a / 64 * 64)
    (s.setRun (memKey x.pc x.page (64 * x.slot + a % 64)) sh).setCheck x [0, 0, 0, 0]

/-- The shadow writes that a queue still holds for the shadow granule of g, oldest first. -/
def State.queuedShadow (s : State) (g : Nat) (pc : Nat) : List Req :=
  ((s.pc pc).queue.filter fun e => e.req.origin = .shadow g && !e.todo.isEmpty).map (·.req)

/-- One shadow write applied to 32 shadow bytes: the nibbles its mask enables. -/
def applyNibbles (sh new : Bytes) (mask : Nat) : Bytes :=
  (List.range 32).map fun k =>
    let old := (sh.getD k 0#8).toNat
    let n := (new.getD k 0#8).toNat
    let lo := if mask.testBit (2 * k) then n % 16 else old % 16
    let hi := if mask.testBit (2 * k + 1) then n / 16 else old / 16
    BitVec.ofNat 8 (lo + 16 * hi)

/-- The 32 shadow bytes of granule g as the ordering points leave them. -/
def State.shadowOfGran (s : State) (g : Nat) : Bytes :=
  match s.map.shadowOf (64 * g) with
  | none => []
  | some (a, _) =>
    let x := s.map.loc (a / 64 * 64)
    (s.queuedShadow g x.pc).foldl (fun sh r => applyNibbles sh r.data r.mask) (s.memRun (memKey x.pc x.page (64 * x.slot + a % 64)) 32)

/-- Granule g lies in a byte-check window in force. -/
def State.inWindow (s : State) (g : Nat) : Bool := (s.map.window (64 * g)).isSome

/-- The bytes of granule g as stored: 64 data, 4 check, and in a window 32 shadow bytes. -/
def State.stored (s : State) (g : Nat) : Bytes :=
  s.rawGranule (s.gloc g) ++ (if s.inWindow g then s.shadowOfGran g else [])

/-! ## Blocks and fills (12_data_integrity.md R349, R350) -/

/-- The block of granule g is valid (R349). -/
def State.validG (s : State) (g : Nat) : Bool := Ranges.mem s.basin.valid (g / 64)

/-- Granule g is still owed a fill (R350). -/
def Basin.owes (b : Basin) (g : Nat) : Bool := b.fills.any fun f => f.block == g / 64 && f.owed.testBit (g % 64)

/-- The data d that a read of granule g got is what memory holds for it now, so that a line may take it. -/
def State.current (s : State) (g : Nat) (d : Bytes) : Bool :=
  let p := s.pc (s.gloc g).pc
  s.validG g && !s.basin.owes g && (s.committingLog g).isNone && !(p.merges.any fun m => m.granule = g)
    && !(p.queue.any fun e => e.req.writes && e.todo.contains g)
    && ((s.stored g).take 64 == d || p.corrQ.any fun e => e.2.1 = g && e.2.2.1.take 64 == d)

/-! ## Responses -/

/-- s with one request of a class no longer outstanding (11_intake_and_basin.md R318). -/
def State.outDec (s : State) (label : Nat) : State :=
  { s with intake := { s.intake with outCls := Store.put 0 s.intake.outCls (label / 256) (Store.get 0 s.intake.outCls (label / 256) - 1) } }

/-- s with a tag of a fabric port no longer outstanding. -/
def State.dropTag (s : State) (p tag : Nat) : State :=
  { s with intake := { s.intake with tags := Store.put [] s.intake.tags p ((Store.get [] s.intake.tags p).filter fun e => e.1 ≠ tag) } }

/-- s with a response beat waiting on a port; NOT_READY is counted (02_ports.md R51). -/
def State.beat (s : State) (p : Nat) (b : RespBeat) : State :=
  let s1 := if b.code = 1 then s.bump F.ITK_FPSTAT_NOTREADY_CNT p 1 else s
  { s1 with intake := { s1.intake with resp := Store.put [] s1.intake.resp p (Store.get [] s1.intake.resp p ++ [b]) } }

/-- The whole data of a read, from what its granules got. -/
def Req.collect (r : Req) (got : List (Nat × Bytes)) : Bytes :=
  let whole := r.granules.flatMap fun g => ((got.find? fun e => e.1 = g).map (·.2)).getD (bytesOf 64 0#8)
  sliceB whole (r.addr % 64) r.size

/-- s with a request answered (02_ports.md R46; 13_aqueduct_ring.md R385; 11_intake_and_basin.md R329, R333): a response beat on its port, the
response of the spout's request, a RESP frame, a line in the cache, or nothing for the block's own requests. Code 8 stands for a dead
read in a class set to fault: DECERR but for a spout. Read data of a port that is no longer OPEN is discarded (02_ports.md R48). -/
def State.respond (s : State) (r : Req) (code : Nat) (dead : Bool) (data : Bytes) : State :=
  let c := if code = 8 then 2 else code
  match r.origin with
  | .fabric p tag =>
    if r.kind = .rd && s.fpSt p != 2 then (s.outDec r.label).dropTag p tag
    else s.beat p { isRead := r.kind == .rd, counted := true, tag := tag, code := c, deadRead := dead && c == 0, data := if c = 0 then data else [] }
  | .spout sp idx =>
    ((s.outDec r.label).updSp sp fun x =>
      { x with outs := x.outs.map fun o => if o.idx = idx then { o with accepted := true, resp := some (code, data) } else o }).landedAt sp
  | .remote _ src rtag =>
    let d := match r.kind with
      | .atom _ _ => toLE 8 (leNat data)
      | _ => data
    (s.outDec r.label).sendResp src rtag r.label c dead (if c = 0 then d else [])
  | .prefetch _ buf =>
    if c = 0 && !dead then
      foldS r.granules (s.outDec r.label) fun t g =>
        let d := sliceB data (64 * g - r.addr) 64
        if !t.current g d then t
        else if buf then { t with basin := t.basin.fillBuffer g d }
        else if t.cacheable (g / 4) then { t with basin := (t.basin.allocate (g / 4)).fillLine g d }
        else t
    else s.outDec r.label
  | .census set src =>
    match Store.find s.font.snaps set with
    | some x =>
      let y : Snap := { x with got := x.got ++ [(src, if c = 0 then some (leNat data) else none)] }
      { s with font := { s.font with snaps := Store.insert s.font.snaps set y } }
    | none => s
  | _ => s

/-! ## The deliverable bandwidth (10_rills.md R298) -/

/-- The data rate of a rate code in tenths of Gbit/s per pin (17_calibration_and_training.md R468). -/
def rateOf (code : Nat) : Nat := match code with | 0 => 64 | 1 => 80 | 2 => 96 | _ => 100

/-- The set point in use. -/
def State.fsp (s : State) : Nat := s.rd F.CAL_FSP_ACTIVE 0

/-- The data rate of the set point in use. -/
def State.rate (s : State) : Nat := rateOf (if s.fsp = 0 then s.rd F.CAL_FSP_RATE0 0 else s.rd F.CAL_FSP_RATE1 0)

/-- The factor of a clock at a level under the method of domain d, as numerator and denominator (16_power_and_thermal.md R445). -/
def State.factorOf (s : State) (d level : Nat) : Nat × Nat :=
  if level = 0 then (1, 1)
  else if s.rd F.PWR_DCTL_METHOD d = 0 then (1, if level = 1 then 2 else 4)
  else
    let n := if level = 1 then s.rd F.PWR_DCTL_N1 d else s.rd F.PWR_DCTL_N2 d
    (n - 1, n)

/-- The smaller of two factors. -/
def minFactor (a b : Nat × Nat) : Nat × Nat := if a.1 * b.2 ≤ b.1 * a.2 then a else b

/-- The triads whose domains run on the rill clock (16_power_and_thermal.md R424, R428): a division there divides it for the whole instance. -/
def rillTriads : List Nat := [0, 1, 2, 3, 6, 7]

/-- The factor of the rill clock (R446): the smallest of its thermal level's, the capping level's and the power-cap ladder's; 1 during the wait for
committing transactions of a warm reset or a thermal trip. -/
def State.rillFactor (s : State) : Nat × Nat :=
  if s.power.shut = 1 || s.rd F.GLB_BOOTSTAT_PHASE 0 == 9 then (1, 1) else
  let cap := (rillTriads.map fun t => s.rd F.PWR_TRI_CAPLVL t).foldl Nat.max 0
  let step := s.rd F.PWR_STAT_LADDER 0
  minFactor (s.factorOf 63 (s.rd F.THM_STAT_RILLLVL 0))
    (minFactor (1, 2 ^ cap) (s.factorOf 63 (if step = 3 then 1 else if step = 4 then 2 else 0)))

/-- The refresh interval in force in units of 0.05 ns: TREFI, halved while the stack is hot (10_rills.md R293). -/
def State.trefiEff (s : State) : Nat :=
  let t := s.rd F.SCH_TMG2_TREFI s.fsp
  if s.flag F.SCH_STAT_HOT 0 then t else 2 * t

/-- DELIV in MB/s, rounded down. -/
def State.delivValue (s : State) : Nat :=
  let m := (s.map.pcs.filter fun p => !s.fenced p).length
  let f := s.rillFactor
  let refi := s.trefiEff
  let refc := 2 * s.rd F.SCH_TMG2_TRFCPB s.fsp
  (m * 4 * s.rate * 100 * 15 * (refi - refc) * f.1) / (16 * refi * f.2)

/-- s with SCH_DELIV showing the deliverable bandwidth. -/
def State.updDeliv (s : State) : State := s.wr F.SCH_DELIV_DELIV 0 s.delivValue

/-! ## Retirement (03_address_map.md R84) -/

/-- s with a read of a fenced pseudo-channel answered: POISON and an error record of type FENCED_READ. -/
def State.fencedRead (s : State) (r : Req) : State :=
  let a := r.addr / 64 * 64
  (s.errRecord 5 0 (s.map.loc a) (s.map.window a).isSome r.label (some a) 127 127 0).respond r 3 false []

/-- The entry is a write that counts as lost when its pseudo-channel is fenced; a correction, a marker and the shadow half of a window write are not
counted. (DESIGN CHOICE: notes/assumptions/54.md.) -/
def Entry.lostWrite (e : Entry) : Bool :=
  match e.req.origin with
  | .cwb | .shadow _ => false
  | _ => e.req.plain

/-- s with the requests that a fenced pseudo-channel held answered or lost (R84): writes and merges lost and counted, reads and updates
answered POISON, its own requests dropped. -/
def State.fenceQueue (s : State) (n : Nat) : State :=
  let p := s.pc n
  let lost := (p.queue.filter Entry.lostWrite).length + ((p.merges.flatMap (·.joined)).filter Req.plain).length
  let reads := (p.queue.map (·.req) ++ p.flights.map (·.req) ++ p.merges.flatMap (·.joined)).filter fun r => !r.plain
  let s1 := if lost = 0 then s else s.bump F.GLB_MAPSTAT_FENCE_LOST 0 lost
  let s2 := s1.updPc n fun q =>
    { q with queue := [], flights := [], merges := [], corrQ := [], verifyQ := [], scrubQ := [], banks := [] }
  foldS reads s2 fun t r => t.fencedRead r

/-- The transaction slot holds a granule of a fenced pseudo-channel in its exact sets, or uses the signature (09_transactions.md R268). -/
def State.slotTouches (s : State) (t n : Nat) : Bool :=
  let x := s.slot t
  x.sigUsed || (x.reads ++ x.log.map (·.1)).any fun g => (s.gloc g).pc = n

/-- s with the transactions that a fence reaches treated (09_transactions.md R268). -/
def State.fenceTx (s : State) (n : Nat) : State :=
  foldS (List.range 64) s fun u t =>
    match (u.slot t).st with
    | .active => if u.slotTouches t n then u.txAbort t 0x12 0 none else u
    | .prepared | .committing =>
      let k := ((u.slot t).log.filter fun e => (u.gloc e.1).pc = n).length
      if k = 0 then u
      else (u.bump F.GLB_MAPSTAT_FENCE_LOST 0 k).updSlot t fun x => { x with log := x.log.filter fun e => (u.gloc e.1).pc ≠ n }
    | _ => u

/-- s with pseudo-channel n retired and fenced. -/
def State.retirePc (s : State) (n : Nat) : State :=
  if s.fenced n then s
  else
    let s1 := s.setReg .GLB_RETIRED 0 (s.reg .GLB_RETIRED 0 ||| 2 ^ n)
    let s2 := (s1.wr F.PC_STAT_STATE n 5).fenceQueue n
    let s3 := (s2.dropLines (fun l => (s2.map.chunk l.chunk).1 = n) 0).fenceTx n
    let s4 := { s3 with basin := { s3.basin with buffer := s3.basin.buffer.filter fun l => (s3.map.chunk l.chunk).1 ≠ n } }
    s4.showMap.updDeliv

/-! ## Decoding (12_data_integrity.md R339 to R344, R353, R360) -/

/-- s with granule g stored with its check data. -/
def State.store (s : State) (g : Nat) (d : Bytes) : State :=
  if s.inWindow g then (s.setGranuleRaw (s.gloc g) (d ++ [0, 0, 0, 0])).putShadow g (winShadow d)
  else s.setGranuleRaw (s.gloc g) (d ++ rsCheck d)

/-- s with a corrected granule written back: 64 bytes with their check data, or in a window 64 bytes and 32 of shadow (R344, R353). -/
def State.storeBack (s : State) (g : Nat) (d : Bytes) : State :=
  if s.inWindow g then (s.setGranuleRaw (s.gloc g) (d.take 64 ++ [0, 0, 0, 0])).putShadow g (d.drop 64) else s.store g d

/-- s with the poison marker in granule g (R342). -/
def State.storeMarker (s : State) (g : Nat) : State :=
  if s.inWindow g then (s.setGranuleRaw (s.gloc g) (bytesOf 68 0#8)).putShadow g (bytesOf 32 0xFF#8)
  else s.setGranuleRaw (s.gloc g) markerRaw

/-- The bytes of granule g are the poison marker. -/
def isMarker (win : Bool) (w : Bytes) : Bool :=
  if win then w.take 64 == bytesOf 64 0#8 && w.drop 68 == bytesOf 32 0xFF#8 else w.take 68 == markerRaw

/-- s after a decode of pseudo-channel n that was uncorrectable or not: the run of consecutive uncorrectable reads and the pages of the current
second, and automatic retirement when either reaches its limit (R360). -/
def State.countUe (s : State) (n page : Nat) (ue : Bool) : State :=
  let p := s.pc n
  let run := if ue then p.ueRun + 1 else 0
  let fresh := ue && !p.uePages.contains page
  let pages := if fresh then p.uePages ++ [page] else p.uePages
  let s1 := s.updPc n fun q => { q with ueRun := run, uePages := pages }
  let case0 := fresh && pages.length == 32
  let case1 := ue && run == 256
  if case0 || case1 then
    let on := s1.flag F.RAS_CFG_AUTORET 0
    let s2 := s1.emit Ev.AUTO_RETIRE (Un.pc n) (if case0 then 0 else 1) (b2n on)
    if on then s2.retirePc n else s2
  else s1

/-- s with a corrected granule, or the poison marker, queued for writing by the block itself: a full correction queue drops a correction (R353,
R341). -/
def State.queueBack (s : State) (g : Nat) (d : Option Bytes) : State :=
  let x := s.gloc g
  let p := s.pc x.pc
  match d with
  | some b =>
    if 16 ≤ (p.corrQ.filter fun e => !e.2.2.2).length then s.bump F.RAS_STAT_CWBDROP 0 1
    else s.updPc x.pc fun q => { q with corrQ := q.corrQ ++ [(x, g, b, false)] }
  | none =>
    if p.corrQ.any fun e => e.2.1 = g && e.2.2.2 then s
    else s.updPc x.pc fun q => { q with corrQ := q.corrQ ++ [(x, g, [], true)] }

/-- What decoding the stored bytes of granule g gives a transfer of the bytes that `need` marks. -/
def State.decodeBytes (s : State) (g need : Nat) (w : Bytes) : Dec :=
  if s.inWindow g then
    if isMarker true w then .poisoned
    else winGranule need (w.take 64) (w.drop 68)
  else rsDecode (s.rd F.RAS_CFG_CMODE 0) (w.take 68)

/-- Which writes of its own the block queues after a decode: a correction or the marker; the marker only, where a merge's own write takes the
correction's place (R347); neither, where a later write has been accepted (01_architecture.md R28) or the verify read has its own end. -/
inductive Back where
  | all
  | marker
  | none
deriving DecidableEq, Repr

/-- s after the decode of granule g as read (R341), and what the read gets, POISON from every window granule while the window checker has
failed its self-test (R361): the bytes of the transfer, and source number src and label for the error record. -/
def State.decode (s : State) (g need : Nat) (w : Bytes) (src label : Nat) (back : Back) : State × Got :=
  let x := s.gloc g
  let win := s.inWindow g
  let a := some (64 * g)
  if win && s.flag F.RAS_STSPARE_WINFAIL 0 then (s, .poison) else
  match s.decodeBytes g need w with
  | .clean d => (s.countUe x.pc x.page false, .data d false)
  | .corrected d y0 y1 sy =>
    let s1 := s.errRecord 1 src x win label a y0 y1 sy
    let s2 := if back = .all then s1.queueBack g (some (if win then d ++ winRepair (w.take 64) (w.drop 68) else d)) else s1
    (s2.countUe x.pc x.page false, .data d false)
  | .poisoned => ((s.bump F.RAS_PCCNT_POISONRD x.pc 1).updPc x.pc fun p => { p with ueRun := 0 }, .poison)
  | .uncorrectable sy =>
    let s1 := if win then s.errRecord 2 src x win label a (sy / 256) 127 (sy % 256) else s.errRecord 2 src x win label a 127 127 sy
    let s2 := if win || back = .none then s1 else s1.queueBack g none
    (s2.countUe x.pc x.page true, .poison)

end Sys2Proof.Machine
end

