-- ==== Sys2Proof/Machine/Access.lean ====
section
/-! DEFINITION. Sys2Proof/Machine/Access.lean: the control port's accesses (00_scope.md R11 to R16; 02_ports.md R52; 04_zynsa_model.md R110): what
each access code stores, which register blocks answer, and refusing a write. -/
namespace Sys2Proof.Machine

/-- The value a field takes from a write of n over old (R15, R16): `run` says that the unit is not stopped. -/
def Acc.store (a : Acc) (run : Bool) (old n : Nat) : Nat :=
  match a with
  | .RW => n
  | .RWS => if run then old else n
  | .W1C => old - (old &&& n)
  | .W1S => old ||| n
  | .RO | .RC => old
  | .WO => 0

/-- The value copy i of register r would hold after a write of v. -/
def State.proposed (s : State) (r : Reg) (i v : Nat) (run : Bool) : Nat :=
  r.fields.foldl (fun a f => setBits a f.hi f.lo ((f.accAt i).store run (bits (s.reg r i) f.hi f.lo) (bits v f.hi f.lo))) (s.reg r i)

/-- A write of v to copy i of register r carries a new value into an RWS field of a unit that runs (R16). -/
def State.discards (s : State) (r : Reg) (i v : Nat) (run : Bool) : Bool :=
  run && r.fields.any fun f => f.accAt i == .RWS && bits (s.reg r i) f.hi f.lo != bits v f.hi f.lo

/-- s after an accepted write of v to copy i of register r: each field under its code, and RWS_DISCARD where R16 discards one. -/
def State.storeReg (s : State) (r : Reg) (i v : Nat) (run : Bool) : State :=
  let s1 := s.setReg r i (s.proposed r i v run)
  if s.discards r i v run then s1.emit Ev.RWS_DISCARD Un.inst (r.addr i) 0 else s1

/-- Field f of a value of its register. -/
def Field.of (f : Field) (v : Nat) : Nat := bits v f.hi f.lo

/-- The first code of a list of checks whose condition holds, or 0. -/
def firstCode (cs : List (Bool × Nat)) : Nat := ((cs.find? fun c => c.1).map (·.2)).getD 0

/-- The switched domains that the register block at a window offset needs ON (R52): none for GLB, CAS, TIM, PWR, THM, CAL, SED and TIE; the intake
for every other, whose accesses its control port carries (R39), and the block's own unit. The domain of a DARK or gated unit answers
DECERR (16_power_and_thermal.md R432). -/
def gatesOf (off : Nat) : List Nat :=
  if off < 0x80000 then []
  else if off < 0x100000 then [63]
  else if off < 0x140000 then [63, (off - 0x100000) / 0x1000 / 2]
  else if off < 0x148000 then [63, 32 + (off - 0x140000) / 0x1000]
  else if 0x200000 ≤ off ∧ off < 0x220000 then [63, 62]
  else if 0x300000 ≤ off ∧ off < 0x380000 then [63, 40 + (off - 0x300000) / 0x8000]
  else if 0x400000 ≤ off ∧ off < 0x480000 then [63, 65]
  else if 0x480000 ≤ off ∧ off < 0x500000 then [63]
  else if 0x500000 ≤ off ∧ off < 0x508000 then [63, 56]
  else if 0x508000 ≤ off ∧ off < 0x510000 then [63, 57]
  else if 0x580000 ≤ off ∧ off < 0x588000 then [63, 56]
  else if 0x588000 ≤ off ∧ off < 0x590000 then [63, 57]
  else if 0x600000 ≤ off ∧ off < 0x700000 then [63, 58]
  else if 0x700000 ≤ off ∧ off < 0x900000 then []
  else if 0x900000 ≤ off ∧ off < 0xA00000 then [63, 64]
  else if 0xF00000 ≤ off ∧ off < 0xFA1000 then [63, domOfSpout ((off - 0xF00000) / 0x1000)]
  else []

/-- The block at a window offset answers accesses: from phase 1 (18_bringup_reset_lowpower.md R476), while its domains are ON. -/
def State.answers (s : State) (off : Nat) : Bool := s.rd F.GLB_BOOTSTAT_PHASE 0 != 0 && (gatesOf off).all fun d => s.domOn d

/-- s after a host write to copy i of register r whose effect is f: DECERR while the block does not answer, otherwise OK. -/
def State.hostWrite (s : State) (r : Reg) (i : Nat) (f : State → State) : State :=
  if s.answers (r.addr i) then (f s).ok else s.decerr

end Sys2Proof.Machine
end

