-- ==== Sys2Proof/Machine/Bank.lean ====
section
/-! DEFINITION. Sys2Proof/Machine/Bank.lean: a bank of a pseudo-channel (10_rills.md R281, R293, R294, R299): its open row and check buffer, ACT, PRE,
REFpb and RFMpb. -/
namespace Sys2Proof.Machine

/-- The check column that holds a slot: 0 for column 30, 1 for column 31. -/
def colOf (slot : Nat) : Nat := if slot < 8 then 0 else 1

/-- s with check column c of bank b's open row written back for its changed slots (R281). -/
def State.writeBackCol (s : State) (n b c : Nat) : State :=
  let k := (s.pc n).bank b
  let slots := (List.range 15).filter fun i => k.changed.testBit i && colOf i == c
  let s1 := foldS slots s fun t i => t.setRun (memKey n k.page (960 + 4 * i)) (sliceB k.chk (4 * i) 4)
  s1.updPc n fun p => p.setBank b { (p.bank b) with changed := k.changed - maskOf slots }

/-- s with bank b of pseudo-channel n closed, both check columns written back first. -/
def State.closeBank (s : State) (n b : Nat) : State :=
  let s1 := (s.writeBackCol n b 0).writeBackCol n b 1
  s1.updPc n fun p => p.setBank b { (p.bank b) with row := none, page := 0, held := 0, chk := [], changed := 0 }

/-- The command toward closing bank b: the write of a check column with changed slots, or the PRE (R281). -/
def State.precharge (s : State) (n b : Nat) : State :=
  let k := (s.pc n).bank b
  let has := fun c => (List.range 15).any fun i => k.changed.testBit i && colOf i == c
  if has 0 then s.writeBackCol n b 0 else if has 1 then s.writeBackCol n b 1 else s.closeBank n b

/-- s with a neighbour refresh issued to bank b (R299). -/
def State.issueRfm (s : State) (n b : Nat) : State :=
  (s.bump F.PC_REFSTAT_RFM n 1).updPc n fun p => p.setBank b { (p.bank b) with rfm := false }

/-- s with a refresh issued to bank b: a forced one is counted, and the first of a deferral window recorded (R293, R294, R296). -/
def State.issueRef (s : State) (n b : Nat) : State :=
  let forced := ((s.pc n).bank b).owed == 8
  let s1 := s.updPc n fun p => p.setBank b { (p.bank b) with owed := (p.bank b).owed - 1 }
  let s2 := if forced then s1.bump F.PC_REFSTAT_FORCED n 1 else s1
  if forced && s2.flag F.SCH_STAT_DEFER 0 && !s2.sched.forcedRec then
    { (s2.emit Ev.FORCED_IN_WINDOW Un.inst 0 0) with sched := { s2.sched with forcedRec := true } }
  else s2

/-- s with granule g's page opened by ACT, the generator stepped, and a neighbour refresh pending if the step triggers (R299). (DESIGN CHOICE: notes/assumptions/6.md.) -/
def State.activate (s : State) (n g : Nat) : State :=
  let x := s.gloc g
  let b := bankOf x.page
  let p := s.pc n
  let trig := decide ((Config.rfmStep n p.seed p.acts).toNat % 2 ^ 24 < 2 ^ 24 / s.rd F.SCH_REF_RFMD 0)
  s.updPc n fun q =>
    { (q.setBank b { (q.bank b) with row := some (rowOf x.page), page := x.page, held := 0, chk := [], changed := 0,
                                     rfm := (q.bank b).rfm || trig }) with acts := q.acts + 1 }

/-- s with check column c of bank b's open row read into the check buffer, changed slots kept (R281). -/
def State.readCheck (s : State) (n b c : Nat) : State :=
  let k := (s.pc n).bank b
  let base := if k.chk.length = 64 then k.chk else bytesOf 64 0#8
  let slots := (List.range 15).filter fun i => colOf i == c && !k.changed.testBit i
  let chk := slots.foldl (fun l i => patchB l (4 * i) (s.memRun (memKey n k.page (960 + 4 * i)) 4)) base
  s.updPc n fun p => p.setBank b { k with chk := chk, held := k.held ||| (if c = 0 then 1 else 2) }

/-- s with the page of granule g open at its bank, as a request served in its turn finds it: the row there closed first, a pending neighbour refresh and
a forced refresh issued, then the ACT (R281, R288, R294, R299). Unchanged where the page is open or the remap table holds the granule. -/
def State.openRow (s : State) (g : Nat) : State :=
  let x := s.gloc g
  let b := bankOf x.page
  if ((s.pc x.pc).bank b).showsPage x.page || (s.remapOf x).isSome || s.fenced x.pc then s
  else
    let s1 := s.closeBank x.pc b
    let s2 := if ((s1.pc x.pc).bank b).rfm then s1.issueRfm x.pc b else s1
    let s3 := if ((s2.pc x.pc).bank b).owed = 8 then s2.issueRef x.pc b else s2
    s3.activate x.pc g

end Sys2Proof.Machine
end

