-- ==== Sys2Proof/Machine/Memory.lean ====
section
/-! DEFINITION. Sys2Proof/Machine/Memory.lean: the ordering points (01_architecture.md R23 to R29): what accepting a request does, merges
(12_data_integrity.md R346, R347), first writes and fills (R349 to R351), window writes (R345), and reads and writes made whole at one
command. -/
namespace Sys2Proof.Machine

/-! ## Blocks and fills -/

/-- b with granule g's mask bit clear; an entry whose mask is empty frees. -/
def Basin.clearOwed (b : Basin) (g : Nat) : Basin :=
  { b with fills := (b.fills.map fun f => if f.block = g / 64 && f.owed.testBit (g % 64) then { f with owed := f.owed - 2 ^ (g % 64) } else f).filter
                      fun f => f.owed ≠ 0 }

/-- s with granule g owed no fill. -/
def State.clearOwed (s : State) (g : Nat) : State := { s with basin := s.basin.clearOwed g }

/-- The class of a label. -/
def classOf (label : Nat) : Nat := (label / 256) % 16

/-- s with n bytes charged to requester j as 12_data_integrity.md R351 charges them: to C while C is positive, otherwise to H when the class is a
user class, otherwise to no account. -/
def State.charge (s : State) (j label n : Nat) : State :=
  let c := Store.get 0 s.intake.c j
  if 0 < c then { s with intake := { s.intake with c := Store.put 0 s.intake.c j (c - n) } }
  else if s.flag F.ITK_CLS_KIND (classOf label) then
    { s with intake := { s.intake with h := Store.put 0 s.intake.h j (Store.get 0 s.intake.h j - n) } }
  else s

/-- s with the n bytes of a transactional write charged when its log accepts it, no account below −256 bytes (11_intake_and_basin.md R312, R316). -/
def State.chargeTx (s : State) (j label n : Nat) : State :=
  let c := Store.get 0 s.intake.c j
  if 0 < c then { s with intake := { s.intake with c := Store.put 0 s.intake.c j (c - n) } }
  else if s.flag F.ITK_CLS_KIND (classOf label) then
    { s with intake := { s.intake with h := Store.put 0 s.intake.h j (max (-256) (Store.get 0 s.intake.h j - n)) } }
  else s

/-- s with a request put among those that wait at a pseudo-channel's ordering point. -/
def State.present (s : State) (pc : Nat) (r : Req) : State :=
  s.updPc pc fun p => { p with waiting := p.waiting ++ [(r.origin.source, r)] }

/-- The fill write of granule g (R349). -/
def fillReq (g reqNo label : Nat) : Req :=
  { origin := .fill (g / 64), kind := .wr, addr := 64 * g, size := 64, mask := 2 ^ 64 - 1, data := bytesOf 64 0#8, label := label,
    reqNo := reqNo, priv := true, tx := none }

/-- s with a first write to a block begun: valid bit, fill-table entry for the granules the write does not replace, and one fill write at the
ordering point of each of them, charged to the write's requester (R349, R351). -/
def State.startFill (s : State) (block replaced reqNo label : Nat) : State :=
  let owed := (2 ^ 64 - 1) - replaced
  let s1 := { s with basin := { s.basin with valid := Ranges.add s.basin.valid block (block + 1) } }
  if owed = 0 then s1
  else
    let s2 := { s1 with basin := { s1.basin with fills := s1.basin.fills ++ [{ block := block, owed := owed, reqNo := reqNo, label := label }] } }
    foldS (onesOf 64 owed) s2 fun t k =>
      let g := 64 * block + k
      (t.present (t.gloc g).pc (fillReq g reqNo label)).charge reqNo label 64

/-! ## Queue entries -/

/-- A new queue entry of a request with the granules it serves, what a read has without the stack, and the shadows of its window granules. -/
def Entry.of (r : Req) (todo : List Nat) (got : List (Nat × Got)) (shadows : List (Nat × Bytes)) : Entry :=
  { req := r, bg := r.origin.background, todo := todo, cols := 0, got := got, raws := [], newer := [], shadows := shadows, promoted := false }

/-- Foreground entries in use. -/
def PcState.fg (p : PcState) : Nat := (p.queue.filter fun e => !e.bg).length
/-- Background entries in use. -/
def PcState.bgn (p : PcState) : Nat := (p.queue.filter fun e => e.bg).length

/-- A free entry of the kind is there (10_rills.md R284). -/
def PcState.room (p : PcState) (bg : Bool) : Bool := if bg then decide (p.bgn < 4) else decide (p.fg < 60)

/-- The newest entry that still has granule g to serve. -/
def PcState.newest (p : PcState) (g : Nat) : Option Entry := (p.queue.filter fun e => e.todo.contains g).getLast?

/-- The data an entry's full-granule write leaves in granule g, for a later read (R285). -/
def Entry.forward (e : Entry) (g : Nat) : Option Bytes :=
  match e.req.origin with
  | .shadow _ => none
  | .cwb => if e.req.data.isEmpty then none else some e.req.data
  | _ => if e.req.kind = .wr && e.req.full g then some (e.req.gdata g) else none

/-- The entry writes granule g as a whole, so that a newer full write of it replaces it (R285). -/
def Entry.whole (e : Entry) (g : Nat) : Bool := (e.forward g).isSome || e.req.kind == .mark

/-- q with the older full write of granule g that waits as its newest entry replaced by a new one (R285): the older entry completes. -/
def PcState.replace (p : PcState) (g : Nat) : PcState :=
  match p.newest g with
  | none => p
  | some e =>
    if e.whole g && !(e.todo.head? = some g && decide (0 < e.cols)) then
      let f := fun (x : Entry) => if x = e then { x with todo := x.todo.filter (· ≠ g) } else x
      { p with queue := (p.queue.map f).filter fun x => !x.todo.isEmpty }
    else p

/-- s with an entry at the end of a queue. -/
def State.enqueue (s : State) (pc : Nat) (e : Entry) : State := s.updPc pc fun p => { p with queue := p.queue ++ [e] }

/-- s after a foreground write to granule g was accepted: a correction or marker that waits for it is dropped, a read of it under way queues none
(01_architecture.md R28), and no verify read follows (12_data_integrity.md R354). -/
def State.wroteOver (s : State) (g : Nat) : State :=
  s.updPc (s.gloc g).pc fun p =>
    { p with corrQ := p.corrQ.filter (fun e => e.2.1 ≠ g), verifyQ := p.verifyQ.filter (fun e => e.2 ≠ g),
             queue := p.queue.map fun e => if e.req.kind = .rd && e.req.granules.contains g then { e with newer := g :: e.newer } else e,
             flights := p.flights.map fun f => if f.req.granules.contains g then { f with newer := g :: f.newer } else f }

/-! ## What an entry does at the stack -/

/-- s with granule g written with d where it lies: its remap slot, or the stack with the check data of an ordinary granule or without check
data in a window (whose shadow has its own request). -/
def State.writeGran (s : State) (g : Nat) (d : Bytes) : State :=
  match s.remapOf (s.gloc g) with
  | some i => s.setSlot i d
  | none => if s.inWindow g then s.setGranuleRaw (s.gloc g) (d ++ [0, 0, 0, 0]) else s.setGranuleRaw (s.gloc g) (d ++ rsCheck d)

/-- s with granule g written by entry request r: a correction, the marker, a shadow column, or write data; a narrow window write keeps the other
bytes as read (R345). The marker of a window granule leaves its shadow to the shadow write. -/
def State.performWrite (s : State) (r : Req) (g : Nat) : State :=
  match r.origin with
  | .cwb =>
    if r.data.isEmpty then s.storeMarker g
    else (s.storeBack g r.data).updPc (s.gloc g).pc fun p => { p with verifyQ := p.verifyQ ++ [(s.gloc g, g)] }
  | .shadow w =>
    let x := s.map.loc (r.addr / 64 * 64)
    let old := s.memRun (memKey x.pc x.page (64 * x.slot + r.addr % 64)) 32
    s.putShadow w (applyNibbles old r.data r.mask)
  | _ =>
    if r.kind = .mark then
      match s.remapOf (s.gloc g) with
      | some i => s.wrB F.RAS_REMAP_POISON i true
      | none => if s.inWindow g then s.setGranuleRaw (s.gloc g) (bytesOf 68 0#8) else s.setGranuleRaw (s.gloc g) markerRaw
    else if r.full g then s.writeGran g (r.gdata g)
    else
      let old := match s.remapOf (s.gloc g) with
        | some i => (s.slotData i).getD (bytesOf 64 0#8)
        | none => (s.rawGranule (s.gloc g)).take 64
      s.writeGran g (mergeB old (r.gdata g) (r.gmask g))

/-- What a read of a remapped granule gets from its slot (R357). -/
def State.slotGot (s : State) (i : Nat) : Got :=
  match s.slotData i with
  | some d => .data d false
  | none => .poison

/-- e with granule g read: from its remap slot, or the bytes as stored, with the shadow that its acceptance found in a window (R345). -/
def Entry.readGran (e : Entry) (s : State) (g : Nat) : Entry :=
  match s.remapOf (s.gloc g) with
  | some i => { e with got := e.got ++ [(g, s.slotGot i)] }
  | none =>
    let sh := match e.shadows.find? fun x => x.1 = g with
      | some x => x.2
      | none => if s.inWindow g then s.shadowOfGran g else []
    { e with raws := e.raws ++ [(g, s.rawGranule (s.gloc g) ++ sh)] }

/-- e with granule g served. -/
def Entry.served (e : Entry) (g : Nat) : Entry := { e with todo := e.todo.filter (· ≠ g), cols := 0 }

/-- p with its finished entries gone from the queue, a finished read's data on its way. -/
def PcState.sweep (p : PcState) : PcState :=
  let fin := p.queue.filter fun e => e.todo.isEmpty && e.req.kind == .rd
  { p with queue := p.queue.filter (fun e => !e.todo.isEmpty), flights := p.flights ++ fin.map fun e => ⟨e.req, e.got, e.raws, e.newer⟩ }

/-- s with entry number k of a queue serving granule g at the stack. -/
def State.serve (s : State) (pc k g : Nat) : State :=
  match (s.pc pc).queue[k]? with
  | none => s
  | some e =>
    let s1 := if e.req.kind = .rd then s else s.performWrite e.req g
    let e1 := if e.req.kind = .rd then (e.readGran s g).served g else e.served g
    s1.updPc pc fun p => { p with queue := p.queue.set k e1 }

/-- s with every entry of granule g's pseudo-channel that waits to serve g having served it, in order. -/
def State.settleQueue (s : State) (g : Nat) : State :=
  let pc := (s.gloc g).pc
  let s1 := foldS (List.range (s.pc pc).queue.length) s fun t k =>
    match (t.pc pc).queue[k]? with
    | some e => if e.todo.contains g then (t.openRow g).serve pc k g else t
    | none => t
  s1.updPc pc PcState.sweep

/-- s with the shadow writes of window granule g that are waiting or queued performed, and its window write ended. -/
def State.settleShadow (s : State) (g : Nat) : State :=
  match s.map.shadowOf (64 * g) with
  | none => s
  | some (a, _) =>
    let pc := (s.map.loc (a / 64 * 64)).pc
    let p := s.pc pc
    let mine := fun (r : Req) => r.origin == .shadow g
    let rs := (p.queue.map (·.req) ++ p.waiting.map (·.2)).filter mine
    let s1 := foldS rs s fun t r => t.performWrite r g
    let s2 := s1.updPc pc fun q =>
      { q with queue := q.queue.filter (fun e => !mine e.req), waiting := q.waiting.filter (fun e => !mine e.2) }
    { s2 with basin := { s2.basin with winTab := s2.basin.winTab.filter (· ≠ g) } }

/-! ## Writes that take effect at once -/

/-- s with a window write's shadow request on its way (R345): 32 shadow bytes, under the mask of the data bytes written. -/
def State.sendShadow (s : State) (g : Nat) (sh : Bytes) (mask label reqNo : Nat) : State :=
  match s.map.shadowOf (64 * g) with
  | none => s
  | some (a, _) =>
    let r : Req :=
      { origin := .shadow g, kind := .wr, addr := a, size := 32, mask := mask, data := sh, label := label, reqNo := reqNo,
        priv := true, tx := none }
    let s1 := { s with basin := { s.basin with winTab := s.basin.winTab ++ [g] } }
    s1.present (s1.map.loc (a / 64 * 64)).pc r

/-- s with granule g, whose older work is done, holding d with its check data; lines that hold the granule take the data. -/
def State.putNow (s : State) (g : Nat) (d : Bytes) : State :=
  let s1 := ((s.wroteOver g).openRow g).writeGran g d
  let s2 := if s1.inWindow g then s1.putShadow g (winShadow d) else s1
  { s2 with basin := s2.basin.wrote g d }

/-- s with a block that is not valid made valid and every granule of it zero, those of fenced pseudo-channels apart: a first write made whole
(R349), each granule charged (R351). -/
def State.fillNow (s : State) (block reqNo label keep : Nat) : State :=
  let s1 := { s with basin := { s.basin with valid := Ranges.add s.basin.valid block (block + 1) } }
  foldS (List.range 64) s1 fun t k =>
    let g := 64 * block + k
    if t.fenced (t.gloc g).pc || g = keep then t else (((t.settleQueue g).settleShadow g).putNow g (bytesOf 64 0#8)).charge reqNo label 64

/-- s with the log write of granule g of a committing slot performed at once; its fills are charged to the requester of the write (R351). -/
def State.logNow (s : State) (t g : Nat) (d : Bytes) : State :=
  let s1 := if s.validG g then s.clearOwed g else s.fillNow (g / 64) ((s.slot t).reqOf g) (s.slot t).label g
  (s1.putNow g d).updSlot t fun x => { x with log := x.log.filter fun e => e.1 ≠ g }

/-! ## Merges -/

/-- s with a joined request of a merge answered: an update returns the value before it (a bucket step the bucket), or POISON. -/
def State.answerJoined (s : State) (r : Req) (d : Option Bytes) : State :=
  if r.plain then s
  else
    match d with
    | some b => s.respond r 0 false (sliceB b (r.addr % 64) r.size)
    | none => s.respond r 3 false []

/-- The data after the joined requests in order, and s with the updates answered. -/
def State.applyJoined (s : State) (g : Nat) (d : Bytes) (rs : List Req) : State × Bytes :=
  rs.foldl (fun acc r => (acc.1.answerJoined r (some acc.2), r.apply g acc.2)) (s, d)

/-- XORs errors into bytes as read. -/
def flipBytes (w : Bytes) (fl : List (Nat × Byte)) : Bytes := fl.foldl (fun b f => xorAt b f.1 f.2.toNat) w

/-- What a merge of granule g reads, and s with the decode's effects: zeros, an older queued write, a remap slot, or the stack with the errors of
the command. -/
def State.mergeRead (s : State) (m : Merge) (fl : List (Nat × Byte)) : State × Got :=
  let g := m.granule
  if m.zeros then (s, .data (bytesOf 64 0#8) false)
  else
    match ((s.pc (s.gloc g).pc).newest g).bind fun e => e.forward g with
    | some d => (s, .data d false)
    | none =>
      let s1 := s.settleQueue g
      match s1.remapOf (s1.gloc g) with
      | some i => (s1, s1.slotGot i)
      | none =>
        let s2 := s1.openRow g
        s2.decode g (2 ^ 64 - 1) (flipBytes (s2.stored g) fl) 2 ((m.joined.map (·.label)).headD 0) .marker

/-- s with a merge of granule g ended (R347): the merged granule written as a full-granule write, or nothing written, with RMW_LOST for lost narrow
writes and POISON for updates. -/
def State.endMerge (s : State) (m : Merge) (fl : List (Nat × Byte)) (enq : Bool) : State :=
  let g := m.granule
  let pc := (s.gloc g).pc
  let (s1, got) := s.mergeRead m fl
  let s2 := s1.updPc pc fun p => { p with merges := p.merges.filter fun x => x.granule ≠ g }
  match got with
  | .data d _ =>
    let (s3, d1) := s2.applyJoined g d m.joined
    if enq then
      match m.joined with
      | [] => s3
      | r :: _ =>
        let w : Req := { r with kind := .wr, addr := 64 * g, size := 64, mask := 2 ^ 64 - 1, data := d1, tx := none }
        let s4 := s3.updPc pc fun p => p.replace g
        let s5 := (s4.wroteOver g).enqueue pc (Entry.of w [g] [] [])
        let s6 := if s5.inWindow g then s5.sendShadow g (winShadow d1) (2 ^ 64 - 1) r.label r.reqNo else s5
        { s6 with basin := s6.basin.wrote g d1 }
    else s3.putNow g d1
  | _ =>
    let s3 := foldS m.joined s2 fun t r => t.answerJoined r none
    if m.joined.any Req.plain then
      s3.errRecord 4 2 (s3.gloc g) (s3.inWindow g) ((m.joined.map (·.label)).headD 0) (some (64 * g)) 127 127 0
    else s3

/-- s with all earlier accepted work on granule g done: queued entries, its merge, a committing log write, a window's shadow write. -/
def State.settle (s : State) (g : Nat) : State :=
  let s1 := (s.settleQueue g).settleShadow g
  let s2 := match (s1.pc (s1.gloc g).pc).merges.find? fun m => m.granule = g with
    | some m => s1.endMerge m [] false
    | none => s1
  match s2.committingLog g with
  | some (t, d) => s2.logNow t g d
  | none => s2

/-! ## Lookups -/

/-- s with a lookup of a class counted, and a hit when it is one; both fields stop when LOOKUPS is full (11_intake_and_basin.md R324), and those of
the unpinned classes counted for the window of R327. -/
def State.countLook (s : State) (c : Nat) (hit : Bool) : State :=
  let s1 := if s.rd F.BAS_LOOK_LOOKUPS c = 2 ^ 32 - 1 then s
    else
      let t := s.bump F.BAS_LOOK_LOOKUPS c 1
      if hit then t.bump F.BAS_LOOK_HITS c 1 else t
  if !s1.flag F.ITK_CLS_PIN c && s1.flag F.ITK_CLS_ALLOC c then
    { s1 with basin := { s1.basin with lookups := s1.basin.lookups + 1, hits := s1.basin.hits + b2n hit } }
  else s1

/-- The lookup of granules of one chunk by a class (R322, R329): their data on a hit of the line or of the buffer (whose line then frees), and s
with the line allocated on a miss where `alloc` allows it. -/
def State.look (s : State) (c : Nat) (gs : List Nat) (alloc : Bool) : Option (List (Nat × Bytes)) × State :=
  match gs with
  | [] => (none, s)
  | g0 :: _ =>
    let ch := g0 / 4
    let all := fun (l : Line) => gs.all fun g => l.valid.testBit (g % 4)
    match (s.basin.line ch).filter all with
    | some l => (some (gs.map fun g => (g, l.gran (g % 4))), { (s.countLook c true) with basin := (s.countLook c true).basin.touch ch })
    | none =>
      let s1 := s.countLook c false
      match s1.basin.buffer.find? fun l => l.chunk = ch && all l with
      | some l =>
        (some (gs.map fun g => (g, l.gran (g % 4))), { s1 with basin := { s1.basin with buffer := s1.basin.buffer.filter fun x => x.chunk ≠ ch } })
      | none => (none, if alloc && s1.cacheable ch then { s1 with basin := s1.basin.allocate ch } else s1)

/-! ## Reads -/

/-- Does a read of this origin fault when it is dead, its class set to fault (R333)? -/
def State.deadFaults (s : State) (label : Nat) : Bool := s.flag F.ITK_CLS_DEADF (classOf label)

/-- s with a dead read counted in its class (R333). -/
def State.countDead (s : State) (label : Nat) : State := s.bump F.ITK_CLSSTAT_DEADREADS (classOf label) 1

/-- s with a read answered from what its granules got (02_ports.md R46, R47; 11_intake_and_basin.md R333): POISON if any is poisoned, otherwise
the data with DEAD_READ if any is dead. Data that came from the stack fills the line of its chunk. A fabric request of a transaction
that gets POISON or DECERR aborts it with ACCESS on the granule that caused it (09_transactions.md R260, R268). -/
def State.finishRead (s : State) (r : Req) (got : List (Nat × Got)) (fill : Bool) : State :=
  let bad := r.granules.find? fun g => got.any fun e => e.1 = g && (match e.2 with | .data _ _ => false | _ => true)
  let dead := r.granules.find? fun g => got.any fun e => e.1 = g && (match e.2 with | .data _ d => d | _ => false)
  let ds := got.filterMap fun e => match e.2 with | .data b _ => some (e.1, b) | _ => none
  let fabTx := fun (t : State) (g : Nat) =>
    match r.origin, r.tx with
    | .fabric _ _, some k => if (t.slot k).st = TxSt.active then t.txAbort k 0x0E 0 (some g) else t
    | _, _ => t
  match bad with
  | some g => (fabTx s g).respond r 3 false []
  | none =>
    match dead with
    | some g =>
      let s1 := s.countDead r.label
      if s1.deadFaults r.label then (fabTx s1 g).respond r 8 false [] else s1.respond r 0 true (r.collect ds)
    | none =>
      let s1 := if fill then foldS ds s fun t e => if t.current e.1 e.2 then { t with basin := t.basin.fillLine e.1 e.2 } else t else s
      s1.respond r 0 false (r.collect ds)

/-- What a granule of a read gets before the basin's lookup: its own transaction's log, a committing log, the zeros of a block that is not valid or
of a granule still owed a fill; `wait` where a merge or a window write holds the granule. -/
inductive Early where
  | got (b : Bytes) (dead : Bool)
  | wait
  | later
deriving DecidableEq, Repr

/-- The early answer for granule g of a read by transaction slot own. -/
def State.early (s : State) (own : Option Nat) (g : Nat) : Early :=
  match own.bind fun t => (s.slot t).logData g with
  | some d => .got d false
  | none =>
    match s.committingLog g with
    | some (_, d) => .got d false
    | none =>
      if !s.validG g then .got (bytesOf 64 0#8) (s.basin.deadBlock (g / 64))
      else if s.basin.owes g then .got (bytesOf 64 0#8) false
      else if ((s.pc (s.gloc g).pc).merges.any fun m => m.granule = g) || s.basin.winTab.contains g then .wait
      else .later

/-- Granule g of a valid block reads as the zeros of a fill it is owed, and no log serves it (R350): such a read is still looked up (R322, R324). -/
def State.fillServes (s : State) (own : Option Nat) (g : Nat) : Bool :=
  (own.bind fun t => (s.slot t).logData g).isNone && (s.committingLog g).isNone && s.validG g && s.basin.owes g

/-- The window granules of a list with the shadow each has now. -/
def State.shadowsOf (s : State) (gs : List Nat) : List (Nat × Bytes) := (gs.filter s.inWindow).map fun g => (g, s.shadowOfGran g)

/-- Accepting a read (01_architecture.md R36 steps 4 to 6): none while it is held. The granules of a valid block that no log serves are looked up
(R322, R324); a prefetch read allocates when its data comes (R329). -/
def State.acceptRead (s : State) (pc : Nat) (r : Req) : Option State :=
  let gs := r.granules
  let es := gs.map fun g => (g, s.early r.tx g)
  if es.any fun e => e.2 = .wait then none
  else
    let s0 := match r.tx with
      | some t => s.updSlot t fun x => gs.foldl TxSlot.addRead x
      | none => s
    let got0 := es.filterMap fun e => match e.2 with | .got b d => some (e.1, Got.data b d) | _ => none
    let rest := (es.filter fun e => e.2 = .later).map (·.1)
    let looked := rest ++ gs.filter fun g => s.fillServes r.tx g
    if looked.isEmpty then some (s0.finishRead r got0 false)
    else
      let c := classOf r.label
      let alloc := match r.origin with
        | .prefetch _ _ => false
        | _ => s0.flag F.ITK_CLS_ALLOC c
      let (hit, s1) := if r.origin.background then (none, s0) else s0.look c looked alloc
      match hit with
      | some ds => some (s1.finishRead r ((got0.filter fun e => !looked.contains e.1) ++ ds.map fun e => (e.1, Got.data e.2 false)) false)
      | none =>
        let p := s1.pc pc
        let fwd := rest.filterMap fun g => ((p.newest g).bind fun e => e.forward g).map fun d => (g, Got.data d false)
        let slots := (rest.filter fun g => (p.newest g).isNone).filterMap fun g => (s1.remapOf (s1.gloc g)).map fun i => (g, s1.slotGot i)
        let got1 := got0 ++ fwd ++ slots
        let todo := rest.filter fun g => !(got1.any fun e => e.1 = g)
        if todo.isEmpty then some (s1.finishRead r got1 true)
        else some (s1.enqueue pc (Entry.of r todo got1 (s1.shadowsOf todo)))

/-- Accepting a scrub or verify read of one granule (R354, R355): held while a merge or a window write holds the granule; no read where there is
nothing to read on the stack. -/
def State.acceptOwn (s : State) (pc : Nat) (r : Req) : Option State :=
  let g := r.addr / 64
  if !s.validG g || s.basin.owes g || (s.remapOf (s.gloc g)).isSome then some s
  else if ((s.pc pc).merges.any fun m => m.granule = g) || s.basin.winTab.contains g then none
  else some (s.enqueue pc (Entry.of r [g] [] (s.shadowsOf [g])))

/-! ## Writes -/

/-- How granule g of a write is carried out: not at all, as a whole granule, as a narrow write in a window, or through the merge buffer. -/
inductive How where
  | skip | whole | narrowWin | merge
deriving DecidableEq, Repr

/-- How a write or update request treats granule g (R43, R345, R346). -/
def State.how (s : State) (r : Req) (g : Nat) : How :=
  if !r.plain then .merge
  else if r.gmask g = 0 then .skip else if r.full g then .whole else if s.inWindow g then .narrowWin else .merge

/-- s with a merge of granule g taking a request: joining one in progress, or a new entry (R346). -/
def State.joinMerge (s : State) (g : Nat) (r : Req) (zeros : Bool) : State :=
  s.updPc (s.gloc g).pc fun p =>
    if p.merges.any fun m => m.granule = g then
      { p with merges := p.merges.map fun m => if m.granule = g then { m with joined := m.joined ++ [r] } else m }
    else { p with merges := p.merges ++ [{ granule := g, joined := [r], zeros := zeros }] }

/-- The write r over whole granules, those of a list completed with zeros (R349, R350). -/
def Req.widened (r : Req) (zeroed : List Nat) : Req :=
  let gs := r.granules
  { r with
    addr := r.addr / 64 * 64, size := 64 * gs.length,
    data := gs.flatMap fun g => mergeB (bytesOf 64 0#8) (r.gdata g) (r.gmask g),
    mask := (List.range gs.length).foldl (fun m k =>
      m + (if zeroed.contains (gs.getD k 0) then 2 ^ 64 - 1 else r.gmask (gs.getD k 0)) * 2 ^ (64 * k)) 0 }

/-- b after write request r reached granule g: lines that hold it take its bytes, or lose it to the poison marker. -/
def Basin.took (b : Basin) (r : Req) (g : Nat) : Basin :=
  b.updGran g fun l k =>
    if r.kind = .mark then l.dropGran k
    else if l.valid.testBit k then l.setGran k (mergeB (l.gran k) (r.gdata g) (r.gmask g)) else l

/-- s with the granules of an accepted write queued or merging: gs with how each is carried out. -/
def State.startWrite (s : State) (pc : Nat) (r : Req) (gs : List (Nat × How)) : State :=
  let direct := (gs.filter fun e => e.2 = .whole || e.2 = .narrowWin).map (·.1)
  let s1 := foldS direct s fun t g =>
    let u := t.wroteOver g
    let v := if r.full g then u.updPc pc fun p => p.replace g else u
    let w := { v with basin := v.basin.took r g }
    let sh := if r.kind = .mark then bytesOf 32 0xFF#8 else winShadow (r.gdata g)
    if w.inWindow g then w.sendShadow g sh (r.gmask g) r.label r.reqNo else w
  let s2 := if direct.isEmpty then s1 else s1.enqueue pc (Entry.of r direct [] [])
  foldS ((gs.filter fun e => e.2 = .merge).map (·.1)) s2 fun t g =>
    (t.clearOwed g).joinMerge g r (!s.validG g || s.basin.owes g)

/-- Accepting a write or an indivisible update that belongs to no transaction (R36 steps 5 to 7): none while it is held. A narrow write in a window
to a granule of a block that is not valid, or owed a fill, is a full write of its bytes among zeros (R349, R350). -/
def State.acceptWrite (s : State) (pc : Nat) (r : Req) : Option State :=
  let p := s.pc pc
  let gs := (r.granules.map fun g => (g, s.how r g)).filter fun e => e.2 ≠ .skip
  let merging := fun g => p.merges.any fun m => m.granule = g
  let narrow := gs.any fun e => e.2 = .merge
  let newM := (gs.filter fun e => e.2 = .merge && !merging e.1).length
  let wins := (gs.filter fun e => s.inWindow e.1 && e.2 ≠ .merge).length
  let blocked := gs.any fun e => s.basin.winTab.contains e.1 || (merging e.1 && e.2 ≠ .merge)
  let block := r.addr / 4096
  let first := !gs.isEmpty && !Ranges.mem s.basin.valid block
  if blocked || (narrow && decide (8 ≤ p.merges.length)) || decide (8 < p.merges.length + newM) && decide (0 < newM)
      || decide (16 < s.basin.winTab.length + wins) && decide (0 < wins) || first && decide (32 ≤ s.basin.fills.length) then none
  else
    let zeroed := (gs.filter fun e => first || s.basin.owes e.1).map (·.1)
    let repl := maskOf (gs.map fun e => e.1 % 64)
    let s1 := if first then s.startFill block repl r.reqNo r.label else s
    let s2 := foldS ((gs.filter fun e => e.2 ≠ .merge).map (·.1)) s1 fun t g => t.clearOwed g
    let r1 := if gs.any (fun e => e.2 = .narrowWin && zeroed.contains e.1) then r.widened zeroed else r
    let s3 := s2.startWrite pc r1 (gs.filter fun e => e.2 ≠ .merge)
    let s4 := foldS ((gs.filter fun e => e.2 = .merge).map (·.1)) s3 fun t g => (t.clearOwed g).joinMerge g r (zeroed.contains g)
    some (if r.plain then s4.respond r 0 false [] else s4)

/-! ## Reads and writes made whole at one command -/

/-- What the bytes `need` of granule g read as after all earlier accepted work, and s with the effects of the read: used where a command makes an
access whole. -/
def State.readNow (s : State) (own : Option Nat) (g need src label : Nat) (look : Bool) : State × Got :=
  if s.fenced (s.gloc g).pc then
    (s.errRecord 5 src (s.gloc g) (s.inWindow g) label (some (64 * g)) 127 127 0, .poison)
  else
    let s1 := s.settle g
    match s1.early own g with
    | .got b d =>
      let s2 := if look && s1.fillServes own g then (s1.look (classOf label) [g] (s1.flag F.ITK_CLS_ALLOC (classOf label))).2 else s1
      (if d then s2.countDead label else s2, .data b d)
    | _ =>
      let c := classOf label
      let (hit, s2) := if look then s1.look c [g] (s1.flag F.ITK_CLS_ALLOC c) else (none, s1)
      match hit with
      | some ((_, d) :: _) => (s2, .data d false)
      | _ =>
        match s2.remapOf (s2.gloc g) with
        | some i => (s2, s2.slotGot i)
        | none =>
          let s3 := s2.openRow g
          let (s3, got) := s3.decode g need (s3.stored g) src label .all
          match got with
          | .data d _ => ({ s3 with basin := if look then s3.basin.fillLine g d else s3.basin }, got)
          | _ => (s3, got)

/-- s with a write or update request on granule g carried out at once after all earlier accepted work (its checks made): a first write fills
the block, a narrow write outside the windows merges with what the granule reads as. The value before an update is answered. -/
def State.writeNow (s : State) (r : Req) (g : Nat) : State :=
  if r.plain && r.gmask g = 0 then s
  else
    let s1 := s.settle g
    let empty := !s1.validG g || s1.basin.owes g
    let s2 := if s1.validG g then s1.clearOwed g else s1.fillNow (g / 64) r.reqNo r.label g
    if r.kind = .mark then
      let s3 := (s2.wroteOver g).performWrite r g
      let s4 := if s3.inWindow g then s3.putShadow g (bytesOf 32 0xFF#8) else s3
      { s4 with basin := s4.basin.took r g }
    else if r.plain && r.full g then s2.putNow g (r.gdata g)
    else if empty then
      let (s3, d) := s2.applyJoined g (bytesOf 64 0#8) [r]
      s3.putNow g d
    else if r.plain && s2.inWindow g then
      let s3 := (s2.wroteOver g).performWrite r g
      let s4 := s3.putShadow g (applyNibbles (s3.shadowOfGran g) (winShadow (r.gdata g)) (r.gmask g))
      { s4 with basin := s4.basin.took r g }
    else s2.endMerge { granule := g, joined := [r], zeros := false } [] false

/-! ## Transactional requests -/

/-- How a transactional write or update ended: buffered, its transaction aborts under a code on a granule, its read met POISON, or a dead read that
its class makes a fault. -/
inductive TxEnd where
  | logged
  | lost (code g : Nat)
  | poison (g : Nat)
  | dead (g : Nat)
deriving DecidableEq, Repr

/-- s with the transactional write or update r of slot t buffered granule by granule (09_transactions.md R263, R264), or stopped, with the value
before an update. A narrow write first reads its granule into the log. A write is charged as its log accepts it (11_intake_and_basin.md R312). -/
def State.txWrite (s : State) (t : Nat) (r : Req) : List Nat → Bytes → State × TxEnd × Bytes
  | [], old => (s, .logged, old)
  | g :: gs, old =>
    let put := fun (u : State) (read : Bool) (d : Bytes) =>
      (u.updSlot t fun x => { ((if read then x.addRead g else x).addWrite g d) with reqs := (g, r.reqNo) :: x.reqs.filter fun e => e.1 ≠ g }).chargeTx
        r.reqNo r.label 64
    if r.plain && r.gmask g = 0 then State.txWrite s t r gs old
    else if (s.slot t).wouldOverflow g then (s, .lost 0x04 g, old)
    else if r.kind = .wr && r.full g then State.txWrite (put s false (r.gdata g)) t r gs old
    else
      match (s.slot t).logData g with
      | some d => State.txWrite (put s false (r.apply g d)) t r gs (old ++ sliceB d (r.addr % 64) r.size)
      | none =>
        match s.readNow none g (2 ^ 64 - 1) 0 r.label true with
        | (s1, .data d dead) =>
          if dead && s1.deadFaults r.label then (s1, .dead g, old)
          else State.txWrite (put s1 true (r.apply g d)) t r gs (old ++ sliceB d (r.addr % 64) r.size)
        | (s1, _) => (s1, .poison g, old)

/-- Accepting a request of transaction slot t (R29 rows 4 and 5, R263 to R265, R268). -/
def State.acceptTx (s : State) (pc : Nat) (r : Req) (t : Nat) : Option State :=
  let fab := match r.origin with
    | .fabric _ _ => true
    | _ => false
  match s.conflict r.writes (some t) r.granules with
  | (.lose code g, s1) => some ((s1.txAbort t code 0 (some g)).respond r 4 false [])
  | (_, s1) =>
    let s2 := if fab then s1.updSlot t fun x => { x with fabric := true } else s1
    if r.kind = .rd then s2.acceptRead pc r
    else
      match s2.txWrite t r r.granules [] with
      | (s3, .logged, old) => some (s3.respond r 0 false (if r.plain then [] else old))
      | (s3, .poison g, _) => some (if fab then (s3.txAbort t 0x0E 0 (some g)).respond r 2 false [] else s3.respond r 3 false [])
      | (s3, .dead g, _) => some (if fab then (s3.txAbort t 0x0E 0 (some g)).respond r 2 false [] else s3.respond r 8 false [])
      | (s3, .lost code g, _) => some ((s3.txAbort t code 0 (some g)).respond r 4 false [])

/-- A request of transaction slot t that row 4 of R29 refuses: the slot is not ACTIVE, or a fabric request's LABEL is not the slot's; a fabric request's
refusal is counted (09_transactions.md R270). -/
def State.txBarred (s : State) (r : Req) (t : Nat) : Option State :=
  let fab := match r.origin with
    | .fabric _ _ => true
    | _ => false
  if (s.slot t).st != TxSt.active || (fab && (s.slot t).label != r.label) then
    some ((if fab then s.bump F.TXU_CNT_MISMATCH 0 1 else s).respond r 4 false [])
  else none

/-! ## Accepting a request -/

/-- A request at a fenced pseudo-channel (03_address_map.md R84): a read or update gets POISON, a write DECERR; the block's own requests
are dropped. (DEDUCED: notes/assumptions/48.md.) -/
def State.atFence (s : State) (r : Req) : State :=
  match r.origin with
  | .fill _ => foldS r.granules s fun t g => t.clearOwed g
  | .shadow g => { s with basin := { s.basin with winTab := s.basin.winTab.filter (· ≠ g) } }
  | .cwb | .verify | .scrub | .log _ => s
  | .fabric _ _ =>
    let s1 := match r.tx with
      | some t => if (s.slot t).st = TxSt.active then s.txAbort t 0x0E 0 (some (r.addr / 64)) else s
      | none => s
    if r.plain then s1.respond r 2 false [] else s1.fencedRead r
  | _ => if r.plain then s.respond r 2 false [] else s.fencedRead r

/-- A verify read of one of a list of granules is under way: the ordering point holds every later request for it until the read returns
(12_data_integrity.md R357). -/
def PcState.verifying (p : PcState) (gs : List Nat) : Bool :=
  (p.queue.map (·.req) ++ p.flights.map (·.req)).any fun r => r.origin == .verify && gs.contains (r.addr / 64)

/-- Request r at the ordering point of pseudo-channel pc (R24, R29 rows 4 to 8): the state after its acceptance, or none while it is held. (DEDUCED: notes/assumptions/48.md.) -/
def State.acceptReq (s : State) (pc : Nat) (r : Req) : Option State :=
  if s.fenced pc then
    match r.tx.bind fun t => s.txBarred r t with
    | some s1 => some s1
    | none => some (s.atFence r)
  else if !(s.pc pc).room r.origin.background || (s.pc pc).verifying r.granules then none
  else
    match r.origin with
    | .fill _ =>
      match r.granules with
      | g :: _ =>
        if s.basin.owes g then
          if s.basin.winTab.contains g || (s.inWindow g && decide (16 ≤ s.basin.winTab.length)) then none
          else some ((s.clearOwed g).startWrite pc r [(g, .whole)])
        else some s
      | [] => some s
    | .shadow g =>
      let s1 := s.enqueue pc (Entry.of r [r.addr / 64] [] [])
      some { s1 with basin := { s1.basin with winTab := s1.basin.winTab.filter (· ≠ g) } }
    | .cwb => some (s.enqueue pc (Entry.of r r.granules [] []))
    | .scrub | .verify => s.acceptOwn pc r
    | .log t =>
      match s.acceptWrite pc r with
      | some s1 => some (s1.updSlot t fun x => { x with log := x.log.filter fun e => e.1 ≠ r.addr / 64 })
      | none => none
    | _ =>
      match r.tx with
      | some t =>
        match s.txBarred r t with
        | some s1 => some s1
        | none => s.acceptTx pc r t
      | none =>
        match s.conflict r.writes none r.granules with
        | (.hold, _) => none
        | (_, s1) => if r.kind = .rd then s1.acceptRead pc r else s1.acceptWrite pc r

end Sys2Proof.Machine
end

