-- ==== Sys2Proof/Machine/Admit.lean ====
section
/-! DEFINITION. Sys2Proof/Machine/Admit.lean: admission at the intake (11_intake_and_basin.md R313 to R320): credit, guarantees, congestion, requests held
at their sources in order. -/
namespace Sys2Proof.Machine

/-! ## Admission (R316 to R319) -/

/-- The deliverable bandwidth as SCH_DELIV shows it, MB/s. -/
def State.deliv (s : State) : Nat := s.rd F.SCH_DELIV_DELIV 0

/-- LIMIT (R313): floor of 0.85 of the deliverable bandwidth. -/
def State.limit (s : State) : Nat := 85 * s.deliv / 100

/-- The sum of the guarantees of all requesters. -/
def State.minSum (s : State) : Nat := (List.range 64).foldl (fun a j => a + s.rd F.ITK_REQ_MINBW j) 0

/-- The effective guarantee of requester j (R314). -/
def State.effOf (s : State) (j : Nat) : Nat :=
  if s.minSum ≤ s.limit then s.rd F.ITK_REQ_MINBW j else s.rd F.ITK_REQ_MINBW j * s.limit / s.minSum

/-- CONG of a pseudo-channel (10_rills.md R286): its foreground entries have reached QHI. -/
def State.cong (s : State) (pc : Nat) : Bool := decide (s.rd F.SCH_SCHED_QHI 0 ≤ (s.pc pc).fg)

/-- How a request is admitted (R317). -/
inductive Admit where
  | held
  | guaranteed
  | data
  | user
deriving DecidableEq, Repr

/-- The first row of R317 that holds, for a request of requester j under class c to pseudo-channel pc. (DEDUCED: notes/assumptions/46.md.) -/
def State.admission (s : State) (j c pc : Nat) : Admit :=
  if s.rd F.ITK_CLS_OUTMAX c ≤ Store.get 0 s.intake.outCls c then .held
  else if 0 < Store.get 0 s.intake.c j then .guaranteed
  else if !s.flag F.ITK_CLS_KIND c then (if s.cong pc then .held else .data)
  else if 0 < Store.get 0 s.intake.h j then .user
  else .held

/-- The size of a request as R317 counts it: the transfer, or 64 B for each granule of a spout's request. -/
def Req.charged (r : Req) : Nat :=
  match r.origin with
  | .fabric _ _ => r.size
  | _ => 64 * r.granules.length

/-- A write in a byte-check window waits while the window write table is full (12_data_integrity.md R345). -/
def State.winFull (s : State) (r : Req) : Bool :=
  r.writes && decide (16 ≤ s.basin.winTab.length) && r.granules.any fun g => s.inWindow g

/-- s with an admitted request outstanding in its class (R318). -/
def State.counted (s : State) (r : Req) : State :=
  let c := classOf r.label
  let k := { s.intake with outCls := Store.put 0 s.intake.outCls c (Store.get 0 s.intake.outCls c + 1) }
  let k1 := match r.origin with
    | .fabric p tag =>
      { k with tags := Store.put [] k.tags p ((Store.get [] k.tags p).map fun e => if e.1 = tag then (tag, r.label + 1) else e) }
    | _ => k
  { s with intake := k1 }

/-- s with an admitted request charged, outstanding in its class, and at its ordering point; a transactional write is charged when its log accepts it
(R312). -/
def State.admitAs (s : State) (r : Req) (how : Admit) : State :=
  let n : Int := if r.tx.isSome && r.writes then 0 else r.charged
  let k := s.intake
  let k1 := match how with
    | .guaranteed => { k with c := Store.put 0 k.c r.reqNo (Store.get 0 k.c r.reqNo - n) }
    | .user => { k with h := Store.put 0 k.h r.reqNo (Store.get 0 k.h r.reqNo - n) }
    | _ => k
  (({ s with intake := k1 } : State).counted r).present (s.gloc (r.addr / 64)).pc r

/-- s with a request admitted, or none while it is held (R317). -/
def State.admitNow (s : State) (r : Req) : Option State :=
  if s.winFull r then none
  else
    match s.admission r.reqNo (classOf r.label) (s.gloc (r.addr / 64)).pc with
    | .held => none
    | how => some (s.admitAs r how)

/-- The requests held at a source, oldest first: 0 to 7 fabric ports, 8 + sp spouts, 169 and 170 aqueduct east and west. -/
def State.heldAt (s : State) (src : Nat) : List Req := Store.get [] s.intake.held src

/-- s with the requests held at a source replaced. -/
def State.setHeld (s : State) (src : Nat) (l : List Req) : State :=
  { s with intake := { s.intake with held := Store.put [] s.intake.held src l } }

/-- s with the oldest request held at a source admitted, if it can be. (DEDUCED: notes/assumptions/46.md.) -/
def State.admitHead (s : State) (src : Nat) : State :=
  match s.heldAt src with
  | [] => s
  | r :: rest =>
    match s.admitNow r with
    | some s1 => s1.setHeld src rest
    | none => s

/-- s with a new request of a source behind those it holds, admitted at once when it is the only one and can be (R319). (DEDUCED: notes/assumptions/46.md.) -/
def State.offer (s : State) (src : Nat) (r : Req) : State :=
  let s1 := s.setHeld src (s.heldAt src ++ [r])
  if s.heldAt src = [] then s1.admitHead src else s1

end Sys2Proof.Machine
end

