-- ==== Sys2Proof/Machine/Crypto.lean ====
section
/-! DEFINITION. Sys2Proof/Machine/Crypto.lean: SHA-384 (FIPS 180-4) and the verification of an ECDSA signature over P-384 (FIPS 186-5), as
19_cascade_and_services.md R521 and R523 use them. -/
namespace Sys2Proof.Machine

/-! ## SHA-384 -/

/-- Round constants 0 to 15. -/
def shaK0 : List Nat :=
  [0x428A2F98D728AE22, 0x7137449123EF65CD, 0xB5C0FBCFEC4D3B2F, 0xE9B5DBA58189DBBC,
   0x3956C25BF348B538, 0x59F111F1B605D019, 0x923F82A4AF194F9B, 0xAB1C5ED5DA6D8118,
   0xD807AA98A3030242, 0x12835B0145706FBE, 0x243185BE4EE4B28C, 0x550C7DC3D5FFB4E2,
   0x72BE5D74F27B896F, 0x80DEB1FE3B1696B1, 0x9BDC06A725C71235, 0xC19BF174CF692694]

/-- Round constants 16 to 31. -/
def shaK1 : List Nat :=
  [0xE49B69C19EF14AD2, 0xEFBE4786384F25E3, 0x0FC19DC68B8CD5B5, 0x240CA1CC77AC9C65,
   0x2DE92C6F592B0275, 0x4A7484AA6EA6E483, 0x5CB0A9DCBD41FBD4, 0x76F988DA831153B5,
   0x983E5152EE66DFAB, 0xA831C66D2DB43210, 0xB00327C898FB213F, 0xBF597FC7BEEF0EE4,
   0xC6E00BF33DA88FC2, 0xD5A79147930AA725, 0x06CA6351E003826F, 0x142929670A0E6E70]

/-- Round constants 32 to 47. -/
def shaK2 : List Nat :=
  [0x27B70A8546D22FFC, 0x2E1B21385C26C926, 0x4D2C6DFC5AC42AED, 0x53380D139D95B3DF,
   0x650A73548BAF63DE, 0x766A0ABB3C77B2A8, 0x81C2C92E47EDAEE6, 0x92722C851482353B,
   0xA2BFE8A14CF10364, 0xA81A664BBC423001, 0xC24B8B70D0F89791, 0xC76C51A30654BE30,
   0xD192E819D6EF5218, 0xD69906245565A910, 0xF40E35855771202A, 0x106AA07032BBD1B8]

/-- Round constants 48 to 63. -/
def shaK3 : List Nat :=
  [0x19A4C116B8D2D0C8, 0x1E376C085141AB53, 0x2748774CDF8EEB99, 0x34B0BCB5E19B48A8,
   0x391C0CB3C5C95A63, 0x4ED8AA4AE3418ACB, 0x5B9CCA4F7763E373, 0x682E6FF3D6B2B8A3,
   0x748F82EE5DEFB2FC, 0x78A5636F43172F60, 0x84C87814A1F0AB72, 0x8CC702081A6439EC,
   0x90BEFFFA23631E28, 0xA4506CEBDE82BDE9, 0xBEF9A3F7B2C67915, 0xC67178F2E372532B]

/-- Round constants 64 to 79. -/
def shaK4 : List Nat :=
  [0xCA273ECEEA26619C, 0xD186B8C721C0C207, 0xEADA7DD6CDE0EB1E, 0xF57D4F7FEE6ED178,
   0x06F067AA72176FBA, 0x0A637DC5A2C898A6, 0x113F9804BEF90DAE, 0x1B710B35131C471B,
   0x28DB77F523047D84, 0x32CAAB7B40C72493, 0x3C9EBE0A15C9BEBC, 0x431D67C49C100D4C,
   0x4CC5D4BECB3E42B6, 0x597F299CFC657E2A, 0x5FCB6FAB3AD6FAEC, 0x6C44198C4A475817]

/-- The 80 round constants. (DESIGN CHOICE: notes/assumptions/13.md.) -/
def shaK : List Nat := shaK0 ++ shaK1 ++ shaK2 ++ shaK3 ++ shaK4

/-- The initial hash value of SHA-384. -/
def shaH0 : List Nat :=
  [0xCBBB9D5DC1059ED8, 0x629A292A367CD507, 0x9159015A3070DD17, 0x152FECD8F70E5939,
   0x67332667FFC00B31, 0x8EB44A8768581511, 0xDB0C2E0D64F98FA7, 0x47B5481DBEFA4FA4]

/-- A 64-bit word rotated right. -/
def rotr64 (x n : Nat) : Nat := ((x >>> n) ||| (x <<< (64 - n))) % 2 ^ 64

/-- The big-endian value of bytes. -/
def beNat (l : Bytes) : Nat := l.foldl (fun a b => a * 256 + b.toNat) 0

/-- The next words of a message schedule held newest first. -/
def shaExtend : Nat → List Nat → List Nat
  | 0, w => w
  | n + 1, w =>
    let a := w.getD 14 0
    let b := w.getD 1 0
    let s0 := rotr64 a 1 ^^^ rotr64 a 8 ^^^ (a >>> 7)
    let s1 := rotr64 b 19 ^^^ rotr64 b 61 ^^^ (b >>> 6)
    shaExtend n (((w.getD 15 0 + s0 + w.getD 6 0 + s1) % 2 ^ 64) :: w)

/-- The eight working variables after a round with constant k and schedule word w. -/
def shaRound (v : List Nat) (k w : Nat) : List Nat :=
  match v with
  | [a, b, c, d, e, f, g, h] =>
    let s1 := rotr64 e 14 ^^^ rotr64 e 18 ^^^ rotr64 e 41
    let ch := (e &&& f) ^^^ ((2 ^ 64 - 1 - e) &&& g)
    let t1 := h + s1 + ch + k + w
    let s0 := rotr64 a 28 ^^^ rotr64 a 34 ^^^ rotr64 a 39
    let maj := (a &&& b) ^^^ (a &&& c) ^^^ (b &&& c)
    [(t1 + s0 + maj) % 2 ^ 64, a, b, c, (d + t1) % 2 ^ 64, e, f, g]
  | _ => v

/-- The hash value after a block of 128 bytes. -/
def shaBlock (h : List Nat) (blk : Bytes) : List Nat :=
  let w0 := (List.range 16).map fun i => beNat (sliceB blk (8 * i) 8)
  let ws := (shaExtend 64 w0.reverse).reverse
  let v := (shaK.zip ws).foldl (fun v kw => shaRound v kw.1 kw.2) h
  (h.zip v).map fun p => (p.1 + p.2) % 2 ^ 64

/-- The hash value after n blocks. (DESIGN CHOICE: notes/assumptions/13.md.) -/
def shaBlocks : Nat → List Nat → Bytes → List Nat
  | 0, h, _ => h
  | n + 1, h, l => shaBlocks n (shaBlock h (l.take 128)) (l.drop 128)

/-- A message with its padding: 1, zeros, and the length in 128 bits. -/
def shaPad (l : Bytes) : Bytes :=
  let z := (256 - (l.length + 17) % 128) % 128
  l ++ [0x80#8] ++ bytesOf z 0#8 ++ (toLE 16 (8 * l.length)).reverse

/-- The SHA-384 digest as a 384-bit number. (DESIGN CHOICE: notes/assumptions/13.md.) -/
def sha384 (l : Bytes) : Nat :=
  let m := shaPad l
  ((shaBlocks (m.length / 128) shaH0 m).take 6).foldl (fun a w => a * 2 ^ 64 + w) 0

/-! ## P-384 -/

/-- The field prime. -/
def p384 : Nat := 2 ^ 384 - 2 ^ 128 - 2 ^ 96 + 2 ^ 32 - 1
/-- The order of the base point. -/
def n384 : Nat := 0xFFFFFFFFFFFFFFFFFFFFFFFFFFFFFFFFFFFFFFFFFFFFFFFFC7634D81F4372DDF581A0DB248B0A77AECEC196ACCC52973
/-- The curve's coefficient b; its a is −3. -/
def b384 : Nat := 0xB3312FA7E23EE7E4988E056BE3F82D19181D9C6EFE8141120314088F5013875AC656398D8A2ED19D2A85C8EDD3EC2AEF
/-- The base point's x. -/
def gx384 : Nat := 0xAA87CA22BE8B05378EB1C71EF320AD746E1D3B628BA79B9859F741E082542A385502F25DBF55296C3A545E3872760AB7
/-- The base point's y. -/
def gy384 : Nat := 0x3617DE4A96262C6F5D9E98BF9292DC29F8F41DBD289A147CE9DA3113B5F0B8C00A60B1CE1D7E819D7A431D7C90EA0E5F

/-- Subtraction modulo the field prime. -/
def subP (a b : Nat) : Nat := (a + p384 - b % p384) % p384

/-- A power modulo m, over the low 384 bits of the exponent from the highest. -/
def powMod (m a e : Nat) : Nat :=
  (List.range 384).foldl (fun r i => let q := r * r % m; if e.testBit (383 - i) then q * a % m else q) 1

/-- A point in Jacobian coordinates; z = 0 is the point at infinity. -/
structure Jac where
  x : Nat
  y : Nat
  z : Nat
deriving DecidableEq, Repr

/-- The double of a point. -/
def Jac.dbl (q : Jac) : Jac :=
  let zz := q.z * q.z % p384
  let m := 3 * subP q.x zz * (q.x + zz) % p384
  let yy := q.y * q.y % p384
  let t := 4 * q.x * yy % p384
  let x := subP (m * m) (2 * t)
  { x := x, y := subP (m * subP t x) (8 * yy * yy), z := 2 * q.y * q.z % p384 }

/-- The sum of two points. -/
def Jac.add (a b : Jac) : Jac :=
  if a.z = 0 then b
  else if b.z = 0 then a
  else
    let za := a.z * a.z % p384
    let zb := b.z * b.z % p384
    let u1 := a.x * zb % p384
    let u2 := b.x * za % p384
    let s1 := a.y * zb * b.z % p384
    let s2 := b.y * za * a.z % p384
    if u1 = u2 then (if s1 = s2 then a.dbl else { x := 1, y := 1, z := 0 })
    else
      let h := subP u2 u1
      let r := subP s2 s1
      let hh := h * h % p384
      let hhh := h * hh % p384
      let v := u1 * hh % p384
      let x := subP (r * r) (hhh + 2 * v)
      { x := x, y := subP (r * subP v x) (s1 * hhh), z := h * a.z * b.z % p384 }

/-- The product of a 384-bit number and a point. -/
def Jac.mul (k : Nat) (q : Jac) : Jac :=
  (List.range 384).foldl (fun r i => if k.testBit (383 - i) then r.dbl.add q else r.dbl) { x := 1, y := 1, z := 0 }

/-- x and y name a point of the curve. (DESIGN CHOICE: notes/assumptions/13.md.) -/
def onCurve (x y : Nat) : Bool :=
  decide (x < p384) && decide (y < p384) && y * y % p384 == (x * x * x + 3 * (p384 - x) + b384) % p384

/-- (r, s) is a signature under the public key (x, y) over a digest of 384 bits. (DESIGN CHOICE: notes/assumptions/13.md.) -/
def ecdsaOk (x y digest r s : Nat) : Bool :=
  if r = 0 || s = 0 || n384 ≤ r || n384 ≤ s then false
  else
    let w := powMod n384 s (n384 - 2)
    let q := (Jac.mul (digest * w % n384) { x := gx384, y := gy384, z := 1 }).add (Jac.mul (r * w % n384) { x := x, y := y, z := 1 })
    if q.z = 0 then false
    else
      let zi := powMod p384 q.z (p384 - 2)
      q.x * zi % p384 * zi % p384 % n384 == r

end Sys2Proof.Machine
end

