-- ==== Sys2Proof/Machine/FontMem.lean ====
section
/-! DEFINITION. Sys2Proof/Machine/FontMem.lean: the font's own memory accesses, the verification of images (19_cascade_and_services.md R521 to
R524), the service configuration block (R520), and the end of a census snapshot (R537). -/
namespace Sys2Proof.Machine

/-! ## Reads and writes at maintenance privilege, label 0 -/

/-- The requester number of the font (11_intake_and_basin.md R311). -/
def State.fontReq (s : State) : Nat := s.rd F.ITK_SRCREQ_FONT 0

/-- A request of the font on granule g would be held: the first of an access by its class or its requester's credit (R317), any by a prepared slot or the
log of a committing one (09_transactions.md R265, R272), or by a verify read (12_data_integrity.md R357). -/
def State.fontHeld (s : State) (g : Nat) (write first : Bool) : Bool :=
  (first && s.admission s.fontReq 0 (s.gloc g).pc == .held) || (s.conflict write none [g]).1 == .hold || (s.pc (s.gloc g).pc).verifying [g]

/-- s marked by an access that is held: the whole row waits (`State.wholly`). -/
def State.heldNow (s : State) : State := { s with font := { s.font with held := true } }

/-- What a row does that makes accesses of its own: f, or nothing yet while some access of it is held. (DESIGN CHOICE: notes/assumptions/51.md.) -/
def State.wholly (s : State) (f : State → State) : State := let t := f s; if t.font.held then s else t

/-- n bytes of local memory at a, none where a granule cannot be read or is a dead one of a class that faults (R333), and s with the effects of the
reads, each charged (R312). (DEDUCED: notes/assumptions/39.md.) -/
def State.fontRead (s : State) (a n : Nat) : State × Option Bytes :=
  if n = 0 then (s, some [])
  else if s.map.mode = 0 || decide (s.cap < a + n) then (s, none)
  else
    let r := (List.range ((a + n - 1) / 64 + 1 - a / 64)).foldl (fun (acc : State × Option (List Bytes)) k =>
      match acc.2 with
      | none => acc
      | some l =>
        let g := a / 64 + k
        let u := acc.1
        let need := maskOf ((List.range 64).filter fun i => decide (a ≤ 64 * g + i ∧ 64 * g + i < a + n))
        let v := if u.fontHeld g false (k == 0) then u.heldNow else (u.conflict false none [g]).2.chargeTx u.fontReq 0 64
        match v.readNow none g need 0 0 true with
        | (t, .data d dead) => if dead && t.deadFaults 0 then (t, none) else (t, some (d :: l))
        | (t, _) => (t, none)) (s, some [])
    (r.1, r.2.map fun l => sliceB l.reverse.flatten (a % 64) n)

/-- s with bytes of local memory at a written at maintenance privilege under label 0, for requester j; what lies beyond the capacity or on a
fenced pseudo-channel is not written; a write that a transaction's slot holds back makes its row wait. -/
def State.blockWrite (s : State) (j a : Nat) (d : Bytes) : State :=
  if d.isEmpty || s.map.mode == 0 || decide (s.cap < a + d.length) then s
  else
    let r : Req :=
      { origin := .gone, kind := .wr, addr := a, size := d.length, mask := 2 ^ d.length - 1, data := d, label := 0, reqNo := j, priv := true,
        tx := none }
    foldS r.granules s fun t g =>
      if t.fenced (t.gloc g).pc then t
      else
        match t.conflict true none [g] with
        | (.hold, _) => t.heldNow
        | (_, u) => u.writeNow r g

/-- s with bytes written by the font, each granule charged to its requester (R311, R312). (DEDUCED: notes/assumptions/39.md.) -/
def State.fontWrite (s : State) (a : Nat) (d : Bytes) : State :=
  let gs := (List.range ((a + d.length + 63) / 64 - a / 64)).map (a / 64 + ·)
  let s1 := foldS gs s fun t g => if t.fontHeld g true (g == a / 64) then t.heldNow else t.chargeTx t.fontReq 0 64
  s1.blockWrite s.fontReq a d

/-- s with n granules that assay reads or writes charged one after another to the font's requester, no account below −256 bytes (R312, R316). (DESIGN
CHOICE: notes/assumptions/51.md.) -/
def State.chargeAssay (s : State) (n : Nat) : State :=
  let j := s.fontReq
  let c := Store.get 0 s.intake.c j
  let k := Nat.min n ((c + 63) / 64).toNat
  let s1 := { s with intake := { s.intake with c := Store.put 0 s.intake.c j (c - 64 * k) } }
  if s.flag F.ITK_CLS_KIND 0 && decide (k < n) then
    let h := Store.get 0 s.intake.h j
    { s1 with intake := { s1.intake with h := Store.put 0 s1.intake.h j (min h (max (-256) (h - 64 * (n - k : Nat)))) } }
  else s1

/-! ## Images (R521 to R523) -/

/-- The value of n bytes of a header at k. -/
def hdrN (h : Bytes) (k n : Nat) : Nat := leNat (sliceB h k n)
/-- The fields of the header of an image. -/
def hdrKind (h : Bytes) : Nat := hdrN h 3 1
def hdrImage (h : Bytes) : Nat := hdrN h 4 2
def hdrTspout (h : Bytes) : Nat := hdrN h 7 1
def hdrLabel (h : Bytes) : Nat := hdrN h 8 2 % 4096
def hdrLen (h : Bytes) : Nat := hdrN h 16 8
def hdrEntry (h : Bytes) : Nat := hdrN h 24 8

/-- A list of bytes is all zero. -/
def zerosB (l : Bytes) : Bool := l.all fun b => b == 0#8

/-- The header passes check 1 of R523: MAGIC, VERSION, reserved bytes, ENTRY. -/
def headerGood (h : Bytes) : Bool :=
  hdrN h 0 2 == 0x5A50 && hdrN h 2 1 == 1 && zerosB (sliceB h 10 6) && zerosB (sliceB h 80 48)
    && hdrEntry h % 8 == 0 && decide (hdrEntry h + 96 < hdrLen h)

/-- The header passes check 2 of R523. -/
def lengthGood (h : Bytes) : Bool := decide (232 ≤ hdrLen h ∧ hdrLen h ≤ 67108864) && hdrLen h % 8 == 0

/-- The bytes 0 to 103 of a key slot (R522). -/
def State.keyBytes (s : State) (slot : Nat) : Bytes := (List.range 13).flatMap fun k => toLE 8 (Store.get 0 s.font.keys (slot * 16 + k))

/-- The public key of a slot, as X and Y, where it holds a point of the curve in uncompressed form. (DEDUCED: notes/assumptions/39.md.) -/
def State.keyOf (s : State) (slot : Nat) : Option (Nat × Nat) :=
  let b := s.keyBytes slot
  let x := beNat (sliceB b 1 48)
  let y := beNat (sliceB b 49 48)
  if slot < 4 && hdrN b 0 1 == 4 && onCurve x y then some (x, y) else none

/-- The code of the first check of R523 that the image at a fails, 0 for none, with its header; `kinds` are the kinds expected. (DESIGN CHOICE: notes/assumptions/13.md.) (DEDUCED: notes/assumptions/39.md.) -/
def State.verifyImage (s : State) (a : Nat) (kinds : List Nat) : State × Nat × Bytes :=
  match s.fontRead a 128 with
  | (s1, none) => (s1, 1, [])
  | (s1, some h) =>
    if !headerGood h then (s1, 1, h)
    else if !lengthGood h then (s1, 2, h)
    else
      match s1.keyOf (hdrN h 6 1) with
      | none => (s1, 3, h)
      | some (x, y) =>
        let n := hdrLen h
        match s1.fontRead (a + 128) (n - 224) with
        | (s2, none) => (s2, 4, h)
        | (s2, some body) =>
          if sha384 body ≠ beNat (sliceB h 32 48) then (s2, 4, h)
          else
            match s2.fontRead (a + n - 96) 96 with
            | (s3, none) => (s3, 5, h)
            | (s3, some sg) =>
              if !ecdsaOk x y (sha384 h) (beNat (sg.take 48)) (beNat (sg.drop 48)) then (s3, 5, h)
              else if !kinds.contains (hdrKind h) then (s3, 6, h)
              else (s3, 0, h)

/-! ## Firmware (R524) -/

/-- s with the service firmware at a verified as KIND 2 and started, or refused with its code. (DEDUCED: notes/assumptions/39.md.) -/
def State.startFirmware (s : State) (a : Nat) : State :=
  match s.verifyImage a [2] with
  | (t, 0, h) =>
    let u : State := { t with font := { t.font with fwBase := some a } }
    ((u.wrB F.FNT_FWCTL_RUNNING 0 true).wr F.FNT_FWCTL_FWERR 0 0).emit Ev.FW_LOADED Un.inst (hdrImage h) 0
  | (t, c, _) => (t.wr F.FNT_FWCTL_FWERR 0 c).emit Ev.FW_INVALID Un.inst c 0

/-! ## The configuration block (R520, R536) -/

/-- Word k of a list of 64-bit words. (DEDUCED: notes/assumptions/39.md.) -/
def wordAt (l : List Nat) (k : Nat) : Nat := l.getD k 0
/-- The enabled mark of a word. -/
def wordV (w : Nat) : Bool := w.testBit 63

/-- The areas that words 0 to 5 of the block name, as (CFGERR, enabled, first byte, bytes). (DEDUCED: notes/assumptions/39.md.) -/
def cfgAreas (w : List Nat) : List (Nat × Bool × Nat × Nat) :=
  let base := fun k => bits (wordAt w k) 36 21 * unit2M
  let size := fun k => bits (wordAt w k) 60 48 * unit2M
  [(1, wordV (wordAt w 0), base 0, 33 * unit2M), (2, wordV (wordAt w 1), base 1, size 1), (3, wordV (wordAt w 2), base 2, 32 * unit2M),
   (4, wordV (wordAt w 3), base 3, size 3), (5, wordV (wordAt w 4), bits (wordAt w 4) 36 12 * 4096, 2 ^ bits (wordAt w 4) 47 44 * 512)]

/-- A source word of a snapshot set is one R536 allows. -/
def sourceGood (w : Nat) : Bool :=
  !wordV w || (bits w 61 37 == 0 && (if w.testBit 62 then w % 8 == 0 else (regAt (bits w 36 0)).isSome))

/-- Some enabled area of a list meets a later one. -/
def areasMeet : List (Nat × Bool × Nat × Nat) → Bool
  | [] => false
  | a :: l => (a.2.1 && l.any fun b => b.2.1 && decide (a.2.2.1 < b.2.2.1 + b.2.2.2 ∧ b.2.2.1 < a.2.2.1 + a.2.2.2)) || areasMeet l

/-- The CFGERR of a block of 512 words, 0 for none. (DEDUCED: notes/assumptions/39.md.) -/
def State.cfgError (s : State) (w : List Nat) : Nat :=
  let bad := (cfgAreas w).find? fun a => a.2.1 && (decide (s.cap < a.2.2.1 + a.2.2.2)
    || (a.1 == 2 && s.map.touchesPriv a.2.2.1 a.2.2.2) || (a.1 == 3 && !s.map.insidePriv a.2.2.1 a.2.2.2)
    || (a.1 == 4 && bits (wordAt w 3) 60 48 % 64 != 0)
    || (a.1 == 5 && !decide (8 ≤ bits (wordAt w 4) 47 44)))
  match bad with
  | some a => a.1
  | none =>
    firstCode [((w.drop 6).take 122 |>.any (· != 0), 6), ((w.drop 384).any (· != 0), 6), (((w.drop 128).take 256).any fun x => !sourceGood x, 7),
      (areasMeet (cfgAreas w), 8)]

/-- s with the configuration block refused under a code. -/
def State.cfgBad (s : State) (c : Nat) : State :=
  ((s.wr F.FNT_SVCBASE_CFGERR 0 c).wrB F.FNT_SVCBASE_VALID 0 false).emit Ev.FNT_CFG_INVALID Un.inst c 0

/-- s with the block at BASE of FNT_SVCBASE read: accepted, with the pool empty where its arena or metadata moved and the census ring begun
again where it moved, or refused. A block outside every enabled privileged region, or one that cannot be read, fails without a
CFGERR of the table. (DEDUCED: notes/assumptions/39.md.) -/
def State.readConfig (s : State) : State :=
  let a := s.rd F.FNT_SVCBASE_BASE 0 * 4096
  if !s.map.insidePriv a 4096 then s.cfgBad 0
  else
    match s.fontRead a 4096 with
    | (s1, none) => s1.cfgBad 0
    | (s1, some b) =>
      let w := (List.range 512).map fun k => leNat (sliceB b (8 * k) 8)
      match s1.cfgError w with
      | 0 =>
        let f := s1.font
        let same := wordAt f.cfg 1 == wordAt w 1 && wordAt f.cfg 2 == wordAt w 2
        let g : Font := { f with cfg := w.take 6, sets := (w.drop 128).take 256, pages := if same then f.pages else [],
                                 censusSeq := if wordAt f.cfg 4 = wordAt w 4 then f.censusSeq else 0 }
        ((({ s1 with font := g } : State).wr F.FNT_SVCBASE_CFGERR 0 0).wrB F.FNT_SVCBASE_VALID 0 true)
      | c => s1.cfgBad c

/-- s with the services back at READY (R520, R524): the configuration block read again, and the firmware that ran verified and started again. -/
def State.fontReady (s : State) : State :=
  s.wholly fun s =>
  let s1 := if s.rd F.FNT_SVCBASE_BASE 0 = 0 then s else s.readConfig
  match s1.font.fwBase with
  | some a => if s1.flag F.FNT_FWCTL_RUNNING 0 then s1 else s1.startFirmware a
  | none => s1

/-! ## The end of a snapshot (R536, R537) -/

/-- s with the record of a snapshot whose sources have all been read written to the next slot of the census ring. (DEDUCED: notes/assumptions/41.md.) -/
def State.writeSnap (s : State) (set : Nat) (x : Snap) : State :=
  let val := fun (k : Nat) => ((x.got.find? fun e => e.1 = k).bind (·.2))
  let miss := maskOf (x.srcs.filter fun k => (val k).isNone)
  let words := [x.time, x.tide + set * 2 ^ 32 + x.srcs.length * 2 ^ 40, miss, s.font.censusSeq] ++ x.srcs.map fun k => (val k).getD 0
  let n := 2 ^ bits (wordAt s.font.cfg 4) 47 44
  let a := bits (wordAt s.font.cfg 4) 36 12 * 4096 + s.font.censusSeq % n * 512
  let d := words.flatMap fun v => toLE 8 v
  let s1 := s.fontWrite a (d ++ bytesOf (512 - d.length) 0#8)
  { s1 with font := { s1.font with snaps := Store.erase s1.font.snaps set, censusSeq := s1.font.censusSeq + 1 } }

/-- s with every snapshot whose sources have all been read recorded, in ascending set order; one whose write is held is recorded later. (DEDUCED: notes/assumptions/41.md.) -/
def State.censusDone (s : State) : State :=
  foldS s.font.snaps s fun t e => if e.2.srcs.all fun k => e.2.got.any fun g => g.1 = k then t.wholly (·.writeSnap e.1 e.2) else t

end Sys2Proof.Machine
end

