-- ==== Sys2Proof/Machine/Intake.lean ====
section
/-! DEFINITION. Sys2Proof/Machine/Intake.lean: fabric requests at their ports (01_architecture.md R562; 02_ports.md R41 to R48), admission, credit
accounts and guarantees (11_intake_and_basin.md R309 to R320), the pinning window and the dead-range table's clearing (R327, R332), and
the registers of the intake and the basin (R336, R337). -/
namespace Sys2Proof.Machine

/-! ## Fabric requests (01_architecture.md R562) -/

/-- The tags of a fabric port whose requests have not had their response. -/
def State.tagsOf (s : State) (p : Nat) : List (Nat × Nat) := Store.get [] s.intake.tags p

/-- The tag is that of an earlier request of port p whose response has not transferred (02_ports.md R44). -/
def State.tagBusy (s : State) (p tag : Nat) : Bool :=
  ((s.tagsOf p).any fun e => e.1 = tag) || (Store.get [] s.intake.resp p).any fun b => b.tag == tag

/-- s with a tag outstanding on a port. -/
def State.addTag (s : State) (p tag : Nat) : State :=
  { s with intake := { s.intake with tags := Store.put [] s.intake.tags p (s.tagsOf p ++ [(tag, 0)]) } }

/-- Bytes of the transfer of a SIZE code that is used. -/
def beatBytes (b : Beat) : Nat := if b.size = 0 then 64 else if b.size = 1 then 128 else 256

/-- The beat's first `n` data bytes. -/
def beatPayload (b : Beat) : Bytes := toLE (beatBytes b) b.data.toNat

/-- The byte enables of a write beat: all of the transfer for WR, MASK for WRP. -/
def beatEnables (b : Beat) : Nat :=
  if b.op = 1 then 2 ^ (beatBytes b) - 1 else b.mask.toNat % 2 ^ (beatBytes b)

/-- OP or SIZE is not used, or ADDR is not a multiple of the transfer size (R43). -/
def beatBad (b : Beat) : Bool := decide (2 < b.op.toNat) || b.size == 3 || decide (b.addr.toNat % (beatBytes b) ≠ 0)

/-- The local request that a beat makes. -/
def beatReq (b : Beat) (p : Nat) (host : Bool) : Req :=
  { origin := .fabric p b.tag.toNat, kind := if b.op = 0 then .rd else .wr, addr := b.addr.toNat, size := (beatBytes b),
    mask := if b.op = 0 then 0 else (beatEnables b), data := if b.op = 0 then [] else (beatPayload b), label := b.label.toNat, reqNo := b.req.toNat,
    priv := host, tx := if b.txv then some b.txid.toNat else none }

/-- The frame that carries a beat to a partner (13_aqueduct_ring.md R376, R383): a WRP carries its 32 mask bytes before the data. -/
def beatFrame (b : Beat) (host : Bool) : Frame :=
  { Frame.zero with
    typ := if b.op = 0 then 1 else if b.op = 1 then 2 else 3, label := b.label, priv := host, size := b.size, addr := b.addr,
    payload := if b.op = 0 then [] else if b.op = 1 then (beatPayload b) else toLE 32 b.mask.toNat ++ (beatPayload b) }

/-- s with a beat answered at its port with a code and no data. -/
def State.refuse (s : State) (p : Nat) (b : Beat) (code : Nat) : State :=
  s.beat p { isRead := b.op == 0, counted := true, tag := b.tag.toNat, code := code, deadRead := false, data := [] }

/-- s with a fabric request of a transaction refused with DECERR: an ACTIVE slot with its label aborts with ACCESS (09_transactions.md R268). -/
def State.refuseLocal (s : State) (p : Nat) (b : Beat) : State :=
  let t := b.txid.toNat
  let s1 := if b.txv && (s.slot t).st == TxSt.active && (s.slot t).label == b.label.toNat
    then s.txAbort t 0x0E 0 (some (b.addr.toNat / 64)) else s
  s1.refuse p b 2

/-- A request to local memory from row 2 of 01_architecture.md R29: beyond the capacity or privileged DECERR, a WRP that enables nothing OK, and
otherwise on to its admission. A WRP that enables nothing has its answer before the transaction row of R29 is reached, of a slot that is not ACTIVE too
(DESIGN CHOICE: notes/assumptions/46.md). -/
def State.fabricLocal (s : State) (p : Nat) (host : Bool) (b : Beat) : State :=
  let r := beatReq b p host
  if s.cap < r.addr + r.size || (!host && s.map.touchesPriv r.addr r.size) then s.refuseLocal p b
  else if r.kind = .wr && r.mask == 0 then s.refuse p b 0
  else s.offer p r

/-- A beat that has transferred while its port is OPEN, its tag free (R562 items 2 to 7). (DEDUCED: notes/assumptions/46.md.) -/
def State.fabricChecked (s0 : State) (p : Nat) (host : Bool) (b : Beat) : State :=
  let s := s0.addTag p b.tag.toNat
  let node := b.node.toNat
  if beatBad b then s.refuse p b 2
  else if !b.rem then s.fabricLocal p host b
  else if b.rinst.toNat ≠ s.me then s.refuse p b 2
  else if b.txv then
    let t := b.txid.toNat
    (if (s.slot t).st = TxSt.active then s.txAbort t 0x0D 0 none else s).refuse p b 4
  else if node = s.node then s.fabricLocal p host b
  else if s.route node = 0 then s.refuse p b 2
  else s.sendRemote (.fabric p b.tag.toNat) node (beatFrame b host) (beatBytes b) (b.op == 0)

/-- A beat answered NOT_READY at a port that is not OPEN (row 1 of R29). (DEDUCED: notes/assumptions/46.md.) -/
def State.notReady (s : State) (p : Nat) (b : Beat) : State :=
  s.beat p { isRead := b.op == 0, counted := false, tag := b.tag.toNat, code := 1, deadRead := false, data := [] }

/-- A frame of port p waits at its source (13_aqueduct_ring.md R382; 14_weir_shaping.md R401). -/
def State.frameHeld (s : State) (p : Nat) : Bool :=
  s.ring.remotes.any fun r => !r.taken && (match r.origin with | .fabric q _ => q == p | _ => false)

/-- Port p holds READY low: its oldest beat is not admitted (11_intake_and_basin.md R319), or the ports hold it low
(18_bringup_reset_lowpower.md R486, R487; 16_power_and_thermal.md R448). -/
def State.readyLow (s : State) (p : Nat) : Bool := s.holding || (s.fpSt p == 2 && (!(s.heldAt p).isEmpty || s.frameHeld p))

/-- s with the beats that wait at port p replaced. -/
def State.setWaiting (s : State) (p : Nat) (l : List (Bool × Beat)) : State :=
  { s with intake := { s.intake with tagWait := Store.put [] s.intake.tagWait p l } }

/-- s with the beats that wait at port p transferring in order while READY is high; one of a reused tag waits, and TAGWAIT says so (R44). (DEDUCED:
notes/assumptions/46.md.) -/
def State.takeTagWait (s : State) (p : Nat) : List (Bool × Beat) → State
  | [] => s.setWaiting p []
  | (host, b) :: l =>
    if s.readyLow p then s.setWaiting p ((host, b) :: l)
    else if s.tagBusy p b.tag.toNat then (s.setWaiting p ((host, b) :: l)).wrB F.ITK_FPSTAT_TAGWAIT p true
    else if s.fpSt p ≠ 2 then State.takeTagWait (s.notReady p b) p l
    else State.takeTagWait (s.fabricChecked p host b) p l

/-- s with the beats that wait at port p taken as far as they can be. -/
def State.takeBeats (s : State) (p : Nat) : State := s.takeTagWait p (Store.get [] s.intake.tagWait p)

/-- s with the beats that wait at every port taken as far as they can be. -/
def State.takeWaits (s : State) : State := foldS (List.range 8) s fun t p => t.takeBeats p

/-- FABRIC_REQUEST: a beat raised at a port transfers behind those that wait there, once READY is high. A beat ends IDLE. (DEDUCED:
notes/assumptions/46.md.) -/
def execFabricRequest (p : FPort) (host : Bool) (b : Beat) (s0 : State) : Res :=
  let n := p.val
  let s := s0.leaveIdle 1
  .next (if (Store.get [] s.intake.tagWait n).isEmpty then s.takeTagWait n [(host, b)]
    else s.setWaiting n (Store.get [] s.intake.tagWait n ++ [(host, b)]))

/-- INTAKE_ADMIT (R317, R319): the oldest request held at a source is checked again; where it was a port's, the beats behind it follow. (DEDUCED:
notes/assumptions/46.md.) -/
def execIntakeAdmit (src : Fin 171) (s : State) : Res :=
  let s1 := s.admitHead src.val
  .next (if src.val < 8 then s1.takeBeats src.val else s1)

/-- s with the request of a response beat that has left port p no longer outstanding. -/
def State.beatGone (s : State) (p : Nat) (b : RespBeat) : State :=
  if !b.counted then s
  else
    match (s.tagsOf p).find? fun e => e.1 = b.tag with
    | some (_, k + 1) => (s.outDec k).dropTag p b.tag
    | _ => s.dropTag p b.tag

/-- RESPONSE_BEAT_TRANSFER (R41, R318): the oldest response beat of a port transfers, its request is no longer outstanding, and a beat that waited
for its tag goes on (R44). -/
def execResponseBeatTransfer (p : FPort) (s : State) : Res :=
  let n := p.val
  match Store.get [] s.intake.resp n with
  | [] => .next s
  | b :: rest =>
    let s2 := ({ s with intake := { s.intake with resp := Store.put [] s.intake.resp n rest } } : State).beatGone n b
    .next (s2.takeBeats n)

/-! ## Refill (R314, R316) -/

/-- INTAKE_REFILL: EFF recomputed, SCALED and its events, then both accounts of every requester. -/
def execIntakeRefill (s : State) : Res :=
  let scaled := decide (s.limit < s.minSum)
  let was := s.flag F.ITK_ERR_SCALED 0
  let s1 := foldS (List.range 64) s fun t j => t.wr F.ITK_EFF_EFF j (s.effOf j)
  let s2 := s1.wrB F.ITK_ERR_SCALED 0 scaled
  let s3 := if scaled && !was then s2.emit Ev.GUARANTEE_SCALED Un.inst s.deliv s.limit
    else if was && !scaled then s2.emit Ev.GUARANTEE_RESTORED Un.inst 0 0 else s2
  let effs := (List.range 64).foldl (fun a j => a + s3.rd F.ITK_EFF_EFF j) 0
  let wts := (List.range 64).foldl (fun a j => a + s3.rd F.ITK_REQ_WT j) 0
  .next (foldS (List.range 64) s3 fun t j =>
    let cap : Int := t.rd F.ITK_REQ_BURST j * 1024
    let c := Store.get 0 t.intake.c j
    let h := Store.get 0 t.intake.h j
    let share : Int := if wts = 0 then 0 else ((s3.deliv - effs) * t.rd F.ITK_REQ_WT j / wts : Nat)
    let c1 := min cap (c + (t.rd F.ITK_EFF_EFF j : Int))
    let h1 := min cap (h + share)
    { t with intake := { t.intake with c := Store.put 0 t.intake.c j c1, h := Store.put 0 t.intake.h j h1 } })

/-! ## Registers of the intake and the basin -/

/-- s with a write of the intake's registers refused (R336). -/
def State.itkRefuse (s : State) (code idx : Nat) : State :=
  ((s.wr F.ITK_ERR_ERR 0 code).wr F.ITK_ERR_IDX 0 idx).emit Ev.ITK_CFG_REFUSED Un.inst code idx

/-- s after a write of ITK_REQ[j] (R313, R336); `check` is false for a tier record (R315). -/
def State.wItkReq (s : State) (j v : Nat) (check : Bool) : State :=
  let p := s.proposed .ITK_REQ j v false
  let mn := F.ITK_REQ_MINBW.of p
  let old := s.rd F.ITK_REQ_MINBW j
  let excess := check && decide (old < mn) && decide (s.limit < s.minSum - old + mn)
  match firstCode [(F.ITK_REQ_BURST.of p == 0, 2), (excess, 3)] with
  | 0 =>
    let s1 := s.storeReg .ITK_REQ j v false
    { s1 with intake := { s1.intake with c := Store.erase s1.intake.c j, h := Store.erase s1.intake.h j } }
  | c => s.itkRefuse c j

/-- ITK_REQ_WRITE (R313). -/
def execItkReqWrite (j : Fin 64) (v : Word) (s : State) : Res :=
  .next (s.hostWrite .ITK_REQ j.val fun t => t.wItkReq j.val v.toNat true)

/-- s after a write of ITK_CLS[c] (R336). -/
def State.wItkCls (s : State) (c v : Nat) : State :=
  if F.ITK_CLS_OUTMAX.of (s.proposed .ITK_CLS c v false) = 0 then s.itkRefuse 1 c else s.storeReg .ITK_CLS c v false

/-- s after a write of BAS_CFG (R337, R332). -/
def State.wBasCfg (s : State) (v : Nat) : State :=
  let p := s.proposed .BAS_CFG 0 v false
  let g := F.BAS_CFG_GUARD.of p
  match firstCode [(decide (75 < F.BAS_CFG_PINCAP.of p), 1), (decide (100 < F.BAS_CFG_FLOOR.of p), 2), (g == 0 || decide (75 < g), 3)] with
  | 0 =>
    let s1 := s.storeReg .BAS_CFG 0 v false
    if F.BAS_CFG_DEADCLR.of v = 1 then { s1 with basin := { s1.basin with dead := [], deadWas := false } } else s1
  | c => (s.wr F.BAS_STAT_ERR 0 c).emit Ev.BAS_CFG_REFUSED Un.inst c 0

/-- DEADCLR (R332): a write of BAS_CFG with DEADCLR 1 and the other fields as they are. -/
def execDeadclr (s : State) : Res :=
  .next (s.hostWrite .BAS_CFG 0 fun t => t.wBasCfg (setBits (t.reg .BAS_CFG 0) 7 7 1))

/-! ## The pinning window (R327) -/

/-- Pinned lines. -/
def State.pinned (s : State) : Nat := pinnedIn s.basin.lines

/-- Lines present: all 278,528, or the 16,384 of part A while quadrants 2 and 3 are gated (R326). -/
def State.presentLines (s : State) : Nat := if s.bGated then 16384 else 278528

/-- PIN_WINDOW_END: REFUSING is decided where the window had at least 1,024 lookups of the unpinned classes. (DEDUCED: notes/assumptions/45.md.) -/
def execPinWindowEnd (s : State) : Res :=
  let l := s.basin.lookups
  let h := s.basin.hits
  let s1 := { s with basin := { s.basin with lookups := 0, hits := 0 } }
  if l < 1024 then .next (s1.wr F.BAS_STAT_UHIT 0 0xFF)
  else
    let uhit := h * 100 / l
    let s2 := s1.wr F.BAS_STAT_UHIT 0 uhit
    let was := s.flag F.BAS_STAT_REFUSING 0
    let now := decide (h * 100 < s.rd F.BAS_CFG_FLOOR 0 * l) && decide (s.rd F.BAS_CFG_GUARD 0 * s.presentLines < s.pinned * 100)
    let s3 := s2.wrB F.BAS_STAT_REFUSING 0 now
    .next (if now && !was then s3.emit Ev.PIN_REFUSING Un.inst uhit s.pinned
      else if was && !now then s3.emit Ev.PIN_ACCEPTING Un.inst 0 0 else s3)

/-! ## Census (10_rills.md R291) -/

/-- CENSUS_READ_MISSED: the oldest census read at a pseudo-channel completes without data. (DEDUCED: notes/assumptions/41.md.) -/
def execCensusReadMissed (pc : Pc) (s : State) : Res :=
  let isC := fun (r : Req) => match r.origin with
    | .census _ _ => true
    | _ => false
  let p := s.pc pc.val
  match (p.queue.find? fun e => isC e.req), (p.waiting.find? fun w => isC w.2) with
  | some e, _ => .next ((s.updPc pc.val fun q => { q with queue := dropFirst (fun x => x == e) q.queue }).respond e.req 1 false []).censusDone
  | none, some w => .next ((s.updPc pc.val fun q => { q with waiting := dropFirst (fun x => x == w) q.waiting }).respond w.2 1 false []).censusDone
  | none, none => .next s

end Sys2Proof.Machine
end

