-- ==== Sys2Proof/Machine/Weir.lean ====
section
/-! DEFINITION. Sys2Proof/Machine/Weir.lean: the weirs (14_weir_shaping.md): occurrences in the tide event table, the refill, the choice of the next
frame, transit places, policing, and the register rows. -/
namespace Sys2Proof.Machine

/-! ## Occurrences of a tide event entry (15_time_and_tide.md R418, R419) -/

/-- Entry i of the table is enabled and, when one-shot, has neither fired nor expired. (DESIGN CHOICE: notes/assumptions/18.md.) -/
def State.evtLive (s : State) (i : Nat) : Bool :=
  s.flag F.TIM_EVT0_EN i && (s.flag F.TIM_EVT0_PER i || (!s.flag F.TIM_EVT1_FIRED i && !s.flag F.TIM_EVT1_EXPIRED i))

/-- The distance from tide t, exclusive, forward to the next occurrence of a periodic entry: 1 to 2^32. -/
def nextPeriodic (t n res point : Nat) : Nat :=
  let k := max n 1
  let p := point % 1024
  let s0 := if t % 1024 < p then t / 1024 else t / 1024 + 1
  let st := s0 + (res + k - s0 % k) % k
  if st < 2 ^ 22 then 1024 * st + p - t else 2 ^ 32 + 1024 * res + p - t

/-- The distance from tide t forward to the next occurrence of entry i, none where it has none ahead. -/
def State.nextOcc (s : State) (i t : Nat) : Option Nat :=
  let point := s.rd F.TIM_EVT0_POINT i
  if s.flag F.TIM_EVT0_PER i then some (nextPeriodic t (s.rd F.TIM_EVT0_N i) (s.rd F.TIM_EVT0_RES i) point)
  else
    let d := (point + 2 ^ 32 - t) % 2 ^ 32
    if 0 < d ∧ d < 2 ^ 31 then some d else none

/-! ## Levels -/

/-- The bucket level of queue q of port p, from −320 to BURST (R395). -/
def State.bucket (s : State) (p q : Nat) : Int := sx 22 (s.rd F.WEI_BKT_LEVEL (8 * p + q))

/-- s with a bucket's level. -/
def State.setBucket (s : State) (p q : Nat) (v : Int) : State := s.wr F.WEI_BKT_LEVEL (8 * p + q) (wrapInt 22 v)

/-- Fields of WEI_Q[q] as in force: WT, BURST, RATE. -/
def State.liveWt (s : State) (p q : Nat) : Nat := bits (s.weiLive p q) 63 56
def State.liveBurst (s : State) (p q : Nat) : Nat := bits (s.weiLive p q) 43 24
def State.liveRate (s : State) (p q : Nat) : Nat := bits (s.weiLive p q) 13 0

/-- WEI_POL[c] of port p as in force. -/
def State.livePol (s : State) (p c : Nat) : Nat := Store.get (Reg.resetVal .WEI_POL c) (s.weir p).live (8 + c)

/-- s with an event of the weir of port p that is recorded once in a millisecond, by its key (R400, R401, R404). -/
def State.weirOnce (s : State) (p key code a0 : Nat) : State :=
  let due := match Store.get none (s.weir p).marks key with
    | some t => decide (t + 100000 ≤ s.time.ticks)
    | none => true
  if due then (s.emit code (Un.aport p) a0 0).updWeir p fun w => { w with marks := Store.put none w.marks key (some s.time.ticks) } else s

/-! ## Sources that wait (R397, R401) -/

/-- s with the frames held at their sources for port p offered again, in order. -/
def State.unpark (s : State) (p : Nat) : State :=
  foldS (s.weir p).parked (s.updWeir p fun w => { w with parked := [] }) fun t f => t.weirLocal p f

/-- w with the classes free again whose frames of the old queue have all started. -/
def Weir.freeClasses (w : Weir) : Weir :=
  { w with holdC := w.holdC.filter fun h => (w.q h.2).any fun e => e.2.label.toNat / 256 = h.1 }

/-- A transit frame at the weir of port p (R401): s with the frame queued, or none where its queue's places are full or its class changes queue. -/
def State.weirTransit (s : State) (p : Nat) (f : Frame) : Option State :=
  let w := s.weir p
  let q := w.queueOf f.label.toNat
  if (w.holdC.any fun h => h.1 = f.label.toNat / 256) || decide (64 ≤ w.transitLen q) then none
  else some (s.updWeir p fun w => w.setQ q (w.q q ++ [(true, f)]))

/-- s with a refused transit frame counted where its queue's places were full. (DESIGN CHOICE: notes/assumptions/18.md.) -/
def State.transitFull (s : State) (p : Nat) (f : Frame) : State :=
  let q := (s.weir p).queueOf f.label.toNat
  if 64 ≤ (s.weir p).transitLen q then (s.bump F.WEI_STAT_TFULL p 1).weirOnce p 0x100 0x0E04 q else s

/-! ## Refill (R394 to R399) -/

/-- The tide distance to the next entry that closes the gate of queue q on port p, none where there is none. (DESIGN CHOICE: notes/assumptions/18.md.) -/
def State.closeDist (s : State) (p q : Nat) : Option Nat :=
  let t := s.rd F.TIM_TIDE_TIDE 0
  let ds := (List.range 256).filterMap fun i =>
    let a := s.rd F.TIM_EVT1_ARG i
    if s.evtLive i && s.rd F.TIM_EVT0_ACTION i == 1 && a.testBit (16 + p) && a.testBit q && !a.testBit (8 + q) then s.nextOcc i t else none
  ds.foldl (fun (m : Option Nat) d => some (match m with | some x => min x d | none => d)) none

/-- The predicted close C(q) at a refill, in ns of wall time: the first refill at or after the predicted firing time, which ρ gives from the wall
time of the last tide; none without an entry, without ρ, or more than 1 ms ahead (R399). (DESIGN CHOICE: notes/assumptions/18.md.) -/
def State.predictClose (s : State) (p q : Nat) : Option Nat :=
  let (adv, ns) := s.time.rho
  let held := s.rd F.TIM_TIDE_TSTATE 0 == 2 && s.flag F.TIM_TCTL_HOLDMODE 0
  match s.closeDist p q with
  | none => none
  | some d =>
    if adv = 0 || held || s.rd F.TIM_TIDE_TSTATE 0 == 0 then none
    else
      let behind := (s.rd F.TIM_TIDE_TIDE 0 + 2 ^ 32 - s.time.tLast) % 2 ^ 32
      let fire := s.time.wallLast + ceilDiv ((behind + d) * ns) adv
      if s.wall + 1000000 < fire then none else some (s.wall + 64 * ceilDiv (fire - s.wall) 64)

/-- s with a late close recorded where a tide action closes the gate of the queue whose frame is being sent (R400). -/
def State.lateClose (s : State) (p mask set : Nat) : State :=
  match (s.weir p).sending with
  | some q =>
    if mask.testBit q && !set.testBit q && (s.weir p).gate.testBit q then (s.bump F.WEI_STAT_LATECLOSE p 1).weirOnce p 0x101 0x0E03 q else s
  | none => s

/-- s with a gate action in force: mask and set (R398). -/
def State.gateNow (s : State) (p mask set : Nat) : State :=
  let s1 := s.lateClose p mask set
  let f := fun (g : Nat) => (List.range 8).foldl (fun a q => if mask.testBit q then setBitTo a q (set.testBit q) else a) g
  (s1.wr F.WEI_GATE_OPEN p (f (s1.rd F.WEI_GATE_OPEN p))).updWeir p fun w => { w with gate := f w.gate }

/-- s with a bucket or a policer level after its gain. -/
def gain (level : Int) (rate burst : Nat) : Int := min (level + rate) burst

/-- WEIR_REFILL (R396): register writes, gate changes, credit, then what eligibility needs. (DESIGN CHOICE: notes/assumptions/18.md.) -/
def execWeirRefill (p : APort) (s : State) : Res :=
  let n := p.val
  let w := s.weir n
  let live := (List.range 8).foldl (fun l q => Store.put (Reg.resetVal .WEI_Q q) l q (s.reg .WEI_Q (8 * n + q))) w.live
  let live2 := (List.range 16).foldl (fun l c => Store.put (Reg.resetVal .WEI_POL c) l (8 + c) (s.reg .WEI_POL (16 * n + c))) live
  let cls := s.rd F.WEI_CLSQ_QUEUE n
  let moved := (List.range 16).filterMap fun c =>
    let old := (w.liveC / 8 ^ c) % 8
    if (cls / 8 ^ c) % 8 ≠ old && ((w.q old).any fun e => e.2.label.toNat / 256 = c) then some (c, old) else none
  let s1 := s.updWeir n fun w =>
    { w with live := live2, liveC := cls, gate := s.rd F.WEI_GATE_OPEN n, holdC := w.holdC ++ moved, waitG := [] }
  let s2 := foldS w.waitG s1 fun t g => t.gateNow n g.1 g.2
  let s3 := foldS (List.range 8) s2 fun t q =>
    if t.liveRate n q = 0 then t else t.setBucket n q (gain (t.bucket n q) (t.liveRate n q) (t.liveBurst n q))
  let s4 := foldS (List.range 16) s3 fun t c =>
    let v := t.livePol n c
    if v.testBit 63 then
      t.updWeir n fun w => { w with pol := Store.put 0 w.pol c (min (Store.get 0 w.pol c + bits v 13 0) (bits v 43 24)) }
    else t
  let s5 := s4.updWeir n fun w =>
    { w with close := (List.range 8).foldl (fun m q => Store.put none m q (if w.gate.testBit q then s4.predictClose n q else none)) w.close }
  .next (s5.unpark n)

/-! ## The next frame (R391 to R393) -/

/-- The replay buffer of 512 KiB has room for a frame (13_aqueduct_ring.md R378). -/
def AqPort.roomFor (a : AqPort) (f : Frame) : Bool :=
  decide ((a.replayBuf.foldl (fun n g => n + (Frame.len g)) 0) + (Frame.len f) ≤ 524288)

/-- The head of queue q may start now: rate, bucket, gate and guard band (R391, R399). -/
def State.eligibleQ (s : State) (p q : Nat) : Bool :=
  let w := s.weir p
  match w.q q with
  | [] => false
  | (_, f) :: _ =>
    s.aqSt p == 4 && (s.aq p).roomFor f && s.liveRate p q != 0 && decide (0 ≤ s.bucket p q) && w.gate.testBit q &&
      (match Store.get none w.close q with
       | none => true
       | some c =>
         let bw := 50 * s.rd F.AQD_STAT_WIDTH p
         decide ((s.wall + s.rd F.WEI_GUARD_GMARGIN p) * bw + (Frame.len f) ≤ c * bw))

/-- D(q). -/
def State.deficit (s : State) (p q : Nat) : Nat := s.rd F.WEI_BKT_DEFICIT (8 * p + q)
/-- s with D(q). -/
def State.setDeficit (s : State) (p q v : Nat) : State := s.wr F.WEI_BKT_DEFICIT (8 * p + q) v

/-- s with a frame of port p on its way: its acknowledgement fields, and as the frame being sent (13_aqueduct_ring.md R376, R378). -/
def State.launch (s : State) (p : Nat) (f : Frame) : State :=
  s.updAq p fun a => { a with sent := some { f with lack := BitVec.ofNat 16 a.lastSeq, nak := a.nak }, nak := false, ackDue := false }

/-- s with a new frame that carries LSEQ numbered, kept for replay and sent (13_aqueduct_ring.md R378). -/
def State.launchSeq (s : State) (p : Nat) (f : Frame) : State :=
  let k := (s.aq p).nextSeq
  let g := { f with lseq := BitVec.ofNat 16 k }
  (s.updAq p fun a => { a with replayBuf := a.replayBuf ++ [g], nextSeq := (k + 1) % 65536 }).launch p g

/-- s with the head of queue q started (R391, R395). -/
def State.startFrame (s : State) (p q : Nat) : State :=
  match (s.weir p).q q with
  | [] => s
  | (_, f) :: rest =>
    let s1 := s.updWeir p fun w => ({ w.setQ q rest with sending := some q } : Weir).freeClasses
    let s2 := (s1.setBucket p q (s1.bucket p q - (Frame.len f))).bump F.WEI_QSTAT_FRAMES (8 * p + q) 1
    (s2.launchSeq p f).unpark p

/-- The weighted group's choice (R393): visits from the queue whose turn it is, at most n of them. -/
def State.drr (s : State) (p : Nat) : Nat → State
  | 0 => s.updWeir p fun w => { w with sending := none }
  | n + 1 =>
    let w := s.weir p
    let q := w.turn
    let next := fun (t : State) => (t.updWeir p fun w => { w with turn := if q = 7 then 2 else q + 1, inTurn := false }).drr p n
    match w.q q with
    | [] => next (if w.inTurn then s.setDeficit p q 0 else s)
    | (_, f) :: _ =>
      let s1 := if w.inTurn then s else s.setDeficit p q (s.deficit p q + 320 * s.liveWt p q)
      if !s1.eligibleQ p q then next (s1.setDeficit p q (min (s1.deficit p q) (320 * s1.liveWt p q)))
      else if (Frame.len f) ≤ s1.deficit p q then ((s1.setDeficit p q (s1.deficit p q - (Frame.len f))).updWeir p fun w => { w with inTurn := true }).startFrame p q
      else next s1

/-- The first link frame that may go (R389): a replay, else a new link frame; a ring state frame only while the replay buffer has room. -/
def AqPort.linkReady (a : AqPort) : Option Frame := a.outNow.find? fun f => f.typ != 0x10 || a.roomFor f

/-- WEIR_FRAME_SELECT (R392). A port in TRAIN or FAILED sends training frames only. (DESIGN CHOICE: notes/assumptions/18.md.) -/
def execWeirFrameSelect (p : APort) (s : State) : Res :=
  let n := p.val
  let idle := (s.updWeir n fun w => { w with sending := none }).updAq n fun a => { a with sent := none }
  let a := s.aq n
  if s.aqSt n = 3 ∨ s.aqSt n = 5 then
    match a.outNow.find? fun f => f.typ = 0x12 with
    | some f => .next ((idle.updAq n fun a => { a with outNow := dropFirst (fun g => g == f) a.outNow }).launch n f)
    | none => .next idle
  else if s.aqSt n ≠ 4 then .next idle
  else
    match a.replays with
    | f :: rest => .next ((idle.updAq n fun a => { a with replays := rest }).launch n f)
    | [] =>
      match a.linkReady with
      | some f =>
        let t := idle.updAq n fun a => { a with outNow := dropFirst (fun g => g == f) a.outNow }
        .next (if f.typ = 0x10 then t.launchSeq n f else t.launch n f)
      | none =>
        if s.eligibleQ n 0 then .next (idle.startFrame n 0)
        else if s.eligibleQ n 1 then .next (idle.startFrame n 1)
        else .next (idle.drr n 13)

/-! ## Policing (R403, R404) -/

/-- A request frame at the policer of its class on port p: s after it, and whether it passes. -/
def State.police (s : State) (p : Nat) (f : Frame) : State × Bool :=
  let c := f.label.toNat / 256
  if !(s.livePol p c).testBit 63 then (s, true)
  else
    let level := Store.get 0 (s.weir p).pol c
    if (Frame.len f) ≤ level && bits (s.livePol p c) 13 0 != 0 then (s.updWeir p fun w => { w with pol := Store.put 0 w.pol c (level - (Frame.len f)) }, true)
    else ((s.bump F.WEI_POLDROP_DROPS (16 * p + c) 1).weirOnce p c 0x0E02 c, false)

/-! ## Register rows (R405) -/

/-- s with a weir write refused. -/
def State.weiRefuse (s : State) (p code idx : Nat) : State :=
  ((s.wr F.WEI_STAT_ERR p code).wr F.WEI_STAT_IDX p idx).emit Ev.WEI_CFG_REFUSED (Un.aport p) code idx

/-- s after a write of WEI_Q[q] of port p. (DESIGN CHOICE: notes/assumptions/18.md.) -/
def State.wWeiQ (s : State) (p q v : Nat) : State :=
  let d := F.WEI_Q_QDEPTH.of v
  let others := ((List.range 8).filter (· ≠ q)).foldl (fun a k => a + s.rd F.WEI_Q_QDEPTH (8 * p + k)) 0
  match firstCode [(decide (2 ≤ q) && F.WEI_Q_WT.of v == 0, 1), (d == 0, 2), (decide (3584 < others + d), 3), (F.WEI_Q_BURST.of v == 0, 4)] with
  | 0 => s.storeReg .WEI_Q (8 * p + q) v false
  | c => s.weiRefuse p c q

/-- WEI_Q_WRITE. -/
def execWeiQWrite (p : APort) (q : Fin 8) (v : Word) (s : State) : Res :=
  .next (s.hostWrite .WEI_Q (8 * p.val + q.val) fun t => t.wWeiQ p.val q.val v.toNat)

/-- s after a write of WEI_POL[c] of port p. (DESIGN CHOICE: notes/assumptions/18.md.) -/
def State.wWeiPol (s : State) (p c v : Nat) : State :=
  if F.WEI_POL_BURST.of v = 0 then s.weiRefuse p 4 c else s.storeReg .WEI_POL (16 * p + c) v false

/-- WEI_CLSQ_WRITE (R397): in force at the next refill. -/
def execWeiClsqWrite (p : APort) (v : Word) (s : State) : Res :=
  .next (s.hostWrite .WEI_CLSQ p.val fun t => t.storeReg .WEI_CLSQ p.val v.toNat false)

/-- WEI_GATE_WRITE (R398): in force at the next refill, without a guard band. -/
def execWeiGateWrite (p : APort) (v : Word) (s : State) : Res :=
  .next (s.hostWrite .WEI_GATE p.val fun t => t.storeReg .WEI_GATE p.val v.toNat false)

end Sys2Proof.Machine
end

