-- ==== Sys2Proof/Machine/Aqueduct.lean ====
section
/-! DEFINITION. Sys2Proof/Machine/Aqueduct.lean: the aqueduct ports and the ring (13_aqueduct_ring.md R368 to R387): states, qualification, training,
received frames, replay, ring state and routes, remote requests at both ends. Port 0 is east, port 1 west. -/
namespace Sys2Proof.Machine

/-! ## Lanes -/

/-- A lane register's number. -/
def laneOf (p l : Nat) : Nat := 4 * p + l

/-- The lanes of port p that are not excluded, as a mask. -/
def State.kept (s : State) (p : Nat) : Nat := maskOf ((List.range 4).filter fun l => !s.flag F.AQD_LANE_EXCL (laneOf p l))

/-- s with AQD_STAT showing the exclusions of port p. -/
def State.showLanes (s : State) (p : Nat) : State := s.wr F.AQD_STAT_LEXCL p (15 - s.kept p)

/-- s with the lanes in use of port p; a port that uses none is trained with no one, so SELF reads 0 (R373; DEDUCED: notes/assumptions/19.md). -/
def State.useLanes (s : State) (p m : Nat) : State :=
  let s1 := (s.wr F.AQD_STAT_LUP p m).wr F.AQD_STAT_WIDTH p (popcount 4 m)
  if m = 0 then s1.wrB F.AQD_STAT_SELF p false else s1

/-- s with lane l of port p excluded for a cause, recorded where it was not (R388). -/
def State.exclude (s : State) (p l cause : Nat) : State :=
  let was := s.flag F.AQD_LANE_EXCL (laneOf p l)
  let s1 := ((s.wrB F.AQD_LANE_EXCL (laneOf p l) true).wr F.AQD_LANE_CAUSE (laneOf p l) cause).showLanes p
  if was then s1 else s1.emit Ev.AQD_LANE_EXCLUDED (Un.aport p) l cause

/-- s with lane l of port p no longer excluded. -/
def State.include (s : State) (p l : Nat) : State :=
  ((s.wrB F.AQD_LANE_EXCL (laneOf p l) false).wr F.AQD_LANE_CAUSE (laneOf p l) 0).showLanes p

/-! ## Ring state and routes (R380, R381) -/

/-- RSTATE as the ports and the returned frames make it: 0 NONE, 1 RING, 2 HORSESHOE. -/
def State.ringNow (s : State) : Nat :=
  if s.aqSt 0 ≠ 4 ∧ s.aqSt 1 ≠ 4 then 0
  else if Store.get false s.ring.selfBack 0 && Store.get false s.ring.selfBack 1 then 1 else 2

/-- s of the manager with the state of ring k held in RINGS, and RING_REPORT at a change (19_cascade_and_services.md R515). -/
def State.ringReport (s : State) (k r : Nat) : State :=
  let v := s.rd F.CAS_STAT_RINGS 0
  if bits v (2 * k + 1) (2 * k) = r then s
  else (s.wr F.CAS_STAT_RINGS 0 (setBits v (2 * k + 1) (2 * k) r)).emit Ev.RING_REPORT Un.inst k r

/-- s with RSTATE brought up to date: SIZE reads 0 but in RING, each change is recorded, and a worker reports it (19_cascade_and_services.md R515). -/
def State.updRing (s : State) (size : Nat) : State :=
  let old := s.rd F.AQD_RING_RSTATE 0
  let new := s.ringNow
  let s1 := (s.wr F.AQD_RING_RSTATE 0 new).wr F.AQD_RING_SIZE 0 (if new = 1 then size else 0)
  if old = new then s1
  else
    let s2 := s1.emit Ev.AQD_RING_STATE Un.inst new (s1.rd F.AQD_RING_SIZE 0)
    if s2.role = 1 then s2.send 0x07 false false s2.mgr [new, s2.rd F.AQD_RING_SIZE 0]
    else if s2.role = 2 then s2.ringReport s2.me new else s2

/-- The hops to node n by the records of port p. -/
def State.hopsOf (s : State) (n p : Nat) : Option Nat := (s.ring.records.find? fun r => r.1 = n && r.2.1 == p).map (·.2.2)

/-- The route to node n (R381): direction and hops. -/
def State.routeTo (s : State) (n : Nat) : Nat × Nat :=
  if n = s.node then (3, 0)
  else
    match s.hopsOf n 0, s.hopsOf n 1 with
    | some e, some w => if e ≤ w then (1, e) else (2, w)
    | some e, none => (1, e)
    | none, some w => (2, w)
    | none, none => (0, 0)

/-- Request frames to node n wait for a response on another port than d. -/
def State.oldRoute (s : State) (n d : Nat) : Bool :=
  s.ring.remotes.any fun r => r.node = n && r.rtag < 4096 && r.port + 1 != d && !(s.ring.held.any fun h => h.1 = r.rtag)

/-- s with a remote request complete under a code with its data (R386): the fabric's response beat, the spout's response; a spout's write that
fails after the weir took it stays unacknowledged. -/
def State.completeRemote (s : State) (r : Remote) (code : Nat) (dead : Bool) (data : Bytes) : State :=
  let s1 : State := { s with ring := { s.ring with remotes := s.ring.remotes.filter fun x => x.rtag ≠ r.rtag } }
  match r.origin with
  | .fabric p tag =>
    if r.reads && s1.fpSt p != 2 then s1.dropTag p tag
    else s1.beat p { isRead := r.reads, counted := true, tag := tag, code := code, deadRead := dead && code == 0, data := if code = 0 then data else [] }
  | .spout sp idx =>
    (s1.updSp sp fun x =>
      { x with outs := x.outs.map fun (o : Out) =>
          if o.idx ≠ idx then o
          else
            let answers := !o.write || (match o.need with | .prior _ => true | _ => false)
            if answers || code = 0 || !r.taken then { o with accepted := true, resp := some (code, data) } else o }).landedAt sp
  | _ => s1

/-- s with the held request frames sent that may go: a free tag, and no older route to the node in use; one whose node has no route by then completes
with DECERR (R383). -/
def State.releaseHeld (s : State) : State :=
  let still := s.ring.changed.filter fun c => s.oldRoute c.1 c.2
  let s1 : State := { s with ring := { s.ring with changed := still, held := [] } }
  foldS s.ring.held s1 fun t h =>
    match t.ring.remotes.find? fun r => r.rtag = h.1 with
    | none => t
    | some r =>
      let tag := if h.1 < 4096 then h.1 else t.freeTag
      if (t.ring.changed.any fun c => c.1 = r.node) || decide (4096 ≤ tag) then
        { t with ring := { t.ring with held := t.ring.held ++ [h] } }
      else if t.route r.node = 1 ∨ t.route r.node = 2 then
        let port := t.route r.node - 1
        let fix := fun (x : Remote) => if x.rtag = h.1 then { x with rtag := tag, port := port } else x
        let t1 : State := { t with ring := { t.ring with remotes := t.ring.remotes.map fix } }
        t1.weirLocal port { h.2 with rtag := BitVec.ofNat 12 tag }
      else t.completeRemote r 2 false []

/-- s with the route to node n brought up to date; new requests for a node whose route changes port are held (R382). -/
def State.updRoute (s : State) (n : Nat) : State :=
  let (d, h) := s.routeTo n
  let s1 := (s.wr F.AQD_ROUTE_DIR n d).wr F.AQD_ROUTE_HOPS n h
  if (d = 1 ∨ d = 2) ∧ s1.oldRoute n d ∧ ¬(s1.ring.changed.any fun c => c.1 = n) then
    { s1 with ring := { s1.ring with changed := s1.ring.changed ++ [(n, d)] } }
  else s1

/-- s with every route brought up to date, and the requests sent that waited for one (R382). -/
def State.updRoutes (s : State) : State := (foldS (List.range 64) s fun t n => t.updRoute n).releaseHeld

/-! ## Link loss and frames dropped (R374) -/

/-- s with the replay buffer and every queued frame of port p discarded and counted in DROP. (DEDUCED: notes/assumptions/19.md.) -/
def State.discardPort (s : State) (p : Nat) : State :=
  let n := (s.aq p).replayBuf.length + (List.range 8).foldl (fun a q => a + ((s.weir p).q q).length) 0
  let s1 := (s.bump F.AQD_CNT_DROP p n).updAq p fun a =>
    { a with replayBuf := [], replays := [], outNow := [], replayDue := false, nextSeq := 1, lastSeq := 0, nak := false, discard := false, ackDue := false }
  (s1.updWeir p fun w => ({ w with queues := [] } : Weir).freeClasses).unpark p

/-- A training frame's payload: the nonce in its first four bytes, then zeros (DEDUCED: notes/assumptions/26.md). -/
def State.trnFrame (s : State) : Frame :=
  { Frame.zero with typ := 0x12, src := BitVec.ofNat 6 s.node, payload := toLE 4 s.ring.nonce ++ bytesOf 12 0#8 }

/-- s with port p in TRAIN, no lane in use. -/
def State.toTrain (s : State) (p : Nat) : State :=
  (((s.wr F.AQD_STAT_STATE p 3).useLanes p 0).linkFrame p s.trnFrame).updRing (s.rd F.AQD_RING_SIZE 0)

/-- s with the link of an UP port lost (R374). -/
def State.linkLoss (s : State) (p : Nat) : State := if s.aqSt p = 4 then s.toTrain p else s

/-! ## Qualification (R368 to R371) -/

/-- s with port p in a state where it carries nothing. -/
def State.portTo (s : State) (p st : Nat) : State := ((s.wr F.AQD_STAT_STATE p st).useLanes p 0).updRing (s.rd F.AQD_RING_SIZE 0)

/-- s with port p about to detect: every exclusion is forgotten (R375). -/
def State.toDetect (s : State) (p : Nat) : State :=
  let s1 := foldS (List.range 4) s fun t l => t.include p l
  (s1.portTo p 1).updAq p fun a => { a with loopDone := false, passed := false, everUp := false, detectRec := false }

/-- s with QUAL clear and both ports OFF: resets, gating, and power states that stop their clocks (R371). -/
def State.aqOff (s : State) : State :=
  foldS [0, 1] (s.wr F.AQD_RING_QUAL 0 0) fun t p => (t.portTo p 0).updAq p fun a => { a with loopDone := false, passed := false, everUp := false, detectRec := false }

/-- LINK_POWER_UP: the PLLs of a port lock. -/
def execLinkPowerUp (p : APort) (s : State) : Res :=
  let n := p.val
  if s.aqSt n = 0 && s.domOn (56 + n) then
    .next (if s.flag F.AQD_CTL_DISABLE n then s.portTo n 6 else s.toDetect n)
  else .next s

/-- The lanes that detect-sense readings detect (R369; 02_ports.md R60): those whose transmit pair (bit 2n) and receive pair (bit 2n + 1) both read
as joined. -/
def sensedLanes (v : Nat) : Nat := maskOf ((List.range 4).filter fun n => v.testBit (2 * n) && v.testBit (2 * n + 1))

/-- s with the far end of port p sensed (R369): the readings of its eight inputs decide its lanes. -/
def State.detectFrom (s : State) (p sense : Nat) : State :=
  let lanes := sensedLanes sense
  let s0 := s.updAq p fun a => { a with sense := sense }
  let s1 := foldS (List.range 4) s0 fun t l =>
    let t1 := t.wrB F.AQD_LANE_DETECT (laneOf p l) (lanes.testBit l)
    if lanes.testBit l then t1.include p l else t1.exclude p l 1
  if lanes % 16 ≠ 0 then s1.portTo p 2
  else if (s1.aq p).detectRec then s1
  else (s1.emit Ev.AQD_DETECT_FAIL (Un.aport p) 0 0).updAq p fun a => { a with detectRec := true }

/-- s with port p sensed while it is in DETECT. -/
def State.detect (s : State) (p sense : Nat) : State := if s.aqSt p = 1 then s.detectFrom p sense else s

/-- DETECT_DONE. (DESIGN CHOICE: notes/assumptions/12.md.) -/
def execDetectDone (p : APort) (sense : BitVec 8) (s : State) : Res := .next (s.detect p.val sense.toNat)
/-- DETECT_RETRY: the detection of a port without lanes, one second later. -/
def execDetectRetry (p : APort) (sense : BitVec 8) (s : State) : Res := .next (s.detect p.val sense.toNat)

/-- s qualified where both ports have passed (R370): QUAL, the nonce, and training (R371, R372). -/
def State.tryQual (s : State) : State :=
  let ok := fun p => s.aqSt p == 2 && (s.aq p).loopDone && (s.aq p).passed && s.kept p != 0
  if ok 0 && ok 1 then
    let (k, s1) := s.draw
    let s2 : State := { s1 with ring := { s1.ring with nonce := (Config.jitter k).toNat } }
    let s3 := (s2.wr F.AQD_RING_QUAL 0 1).emit Ev.AQD_QUALIFIED Un.inst (s2.kept 0 + 16 * s2.kept 1) 0
    (s3.toTrain 0).toTrain 1
  else s

/-- LOOP_MEASURE_DONE: errors counted on every receive lane; a lane above 1,374,389 is excluded from both ports. (DEDUCED: notes/assumptions/19.md.) -/
def execLoopMeasureDone (errsE errsW : List Nat) (s : State) : Res :=
  if s.aqSt 0 = 2 && s.aqSt 1 = 2 then
    let both := fun (t : State) l => t.flag F.AQD_LANE_DETECT (laneOf 0 l) && t.flag F.AQD_LANE_DETECT (laneOf 1 l)
    let s1 := foldS (List.range 4) s fun t l =>
      if both t l then
        let t1 := (t.bump F.AQD_LANE_BITERR (laneOf 0 l) (errsE.getD l 0)).bump F.AQD_LANE_BITERR (laneOf 1 l) (errsW.getD l 0)
        if 1374389 < errsE.getD l 0 ∨ 1374389 < errsW.getD l 0 then (t1.exclude 0 l 2).exclude 1 l 2 else t1
      else t
    let mark := fun (a : AqPort) => { a with loopDone := true }
    .next (((s1.updAq 0 mark).updAq 1 mark).tryQual)
  else .next s

/-- QUALIFY_WINDOW_PASS. -/
def execQualifyWindowPass (p : APort) (s : State) : Res :=
  if s.aqSt p.val = 2 then .next ((s.updAq p.val fun a => { a with passed := true }).tryQual) else .next s

/-- UNCORRECTABLE_CODEWORD: counted; in LOOP the window of the direction starts again, in UP the fourth within 1 ms is a link loss. -/
def execUncorrectableCodeword (p : APort) (s : State) : Res :=
  let n := p.val
  let s1 := s.bump F.AQD_CNT_UNCORR n 1
  if s1.aqSt n = 2 then .next ((s1.updAq n fun a => { a with passed := false }).emit Ev.AQD_QUAL_RESTART (Un.aport n) 0 0)
  else if s1.aqSt n = 4 then
    let now := s1.time.ticks
    let l := ((s1.aq n).codewords.filter fun t => decide (now < t + 100000)) ++ [now]
    let s2 := s1.updAq n fun a => { a with codewords := if 4 ≤ l.length then [] else l }
    .next (if 4 ≤ l.length then s2.linkLoss n else s2)
  else .next s1

/-- s after REQUAL: QUAL clear, and both ports that are on and enabled detect again (R371). -/
def State.requal (s : State) : State :=
  foldS [0, 1] (s.wr F.AQD_RING_QUAL 0 0) fun t p => if t.aqSt p = 0 ∨ t.aqSt p = 6 then t else t.toDetect p

/-! ## Training, width (R372, R373, R375) -/

/-- s with port p UP on lanes m with a partner: replay to the same partner, and otherwise everything for the last one discarded (R374). -/
def State.portUp (s : State) (p m node nonce : Nat) : State :=
  let a := s.aq p
  let s1 := if a.nonce = some nonce then s.updAq p fun a => { a with replays := a.replayBuf, outNow := a.outNow.filter fun f => f.typ ≠ 0x12 }
    else if a.nonce.isSome then s.discardPort p
    else s.updAq p fun a => { a with outNow := a.outNow.filter fun f => f.typ ≠ 0x12 }
  let s2 := s1.updAq p fun a => { a with everUp := true, nonce := some nonce, codewords := [] }
  let self := decide (nonce = s2.ring.nonce ∧ node = s2.node)
  let s3 := (((s2.wr F.AQD_STAT_STATE p 4).useLanes p m).wr F.AQD_STAT_PARTNER p node).wrB F.AQD_STAT_SELF p self
  (s3.emit Ev.AQD_PORT_UP (Un.aport p) (popcount 4 m) node).updRing (s3.rd F.AQD_RING_SIZE 0)

/-- TRAINING_DONE: the bit errors of each lane over 2^30 bits, and the lanes, NODE and nonce of the partner; a width of 0 fails the attempt. -/
def execTrainingDone (p : APort) (errs : List Nat) (partner : BitVec 4) (node : BitVec 6) (nonce : BitVec 32) (s : State) : Res :=
  let n := p.val
  if s.aqSt n = 3 ∨ s.aqSt n = 5 then
    let s1 := foldS (List.range 4) s fun t l =>
      if t.flag F.AQD_LANE_EXCL (laneOf n l) then t
      else
        let t1 := t.bump F.AQD_LANE_BITERR (laneOf n l) (errs.getD l 0)
        if 1073 < errs.getD l 0 then t1.exclude n l 3 else t1
    let m := s1.kept n &&& partner.toNat
    .next (if m = 0 then s1 else s1.portUp n m node.toNat nonce.toNat)
  else .next s

/-- TRAIN_TIMEOUT: a port that has been UP fails (R368, R374). -/
def execTrainTimeout (p : APort) (s : State) : Res :=
  let n := p.val
  if s.aqSt n = 3 && (s.aq n).everUp then .next (((s.discardPort n).portTo n 5).emit Ev.AQD_PORT_FAILED (Un.aport n) 0 0) else .next s

/-- FAILED_RETRY: the next attempt begins with a training frame. (DEDUCED: notes/assumptions/19.md.) -/
def execFailedRetry (p : APort) (s : State) : Res :=
  if s.aqSt p.val = 5 then .next ((s.updAq p.val fun a => { a with outNow := [] }).linkFrame p.val s.trnFrame) else .next s

/-- LINK_LOSS (R374): loss of signal or of lane alignment. -/
def execLinkLoss (p : APort) (s : State) : Res := .next (s.linkLoss p.val)

/-- A width-change frame with the lanes now in use (R375, R377). -/
def State.sendWidth (s : State) (p m : Nat) : State :=
  s.linkFrame p { Frame.zero with typ := 0x11, op := 1, src := BitVec.ofNat 6 s.node, addr := BitVec.ofNat 37 m }

/-- LANE_DEGRADE (R375). -/
def execLaneDegrade (p : APort) (l : Fin 4) (s : State) : Res :=
  let n := p.val
  let m := s.rd F.AQD_STAT_LUP n
  if s.aqSt n = 4 && m.testBit l.val then
    let m1 := setBitTo m l.val false
    let s1 := (s.exclude n l.val 3).useLanes n m1
    .next (if m1 = 0 then s1.linkLoss n else s1.sendWidth n m1)
  else .next s

/-- LANE_RETRY (R375): the lanes excluded in service that pass are in use again. -/
def execLaneRetry (p : APort) (passed : BitVec 4) (s : State) : Res :=
  let n := p.val
  if s.aqSt n ≠ 4 then .next s
  else
    let back := (List.range 4).filter fun l => passed.getLsbD l && s.flag F.AQD_LANE_EXCL (laneOf n l) && s.rd F.AQD_LANE_CAUSE (laneOf n l) == 3
    let s1 := foldS back s fun t l => (t.include n l).emit Ev.AQD_LANE_RESTORED (Un.aport n) l 0
    let m := s1.rd F.AQD_STAT_LUP n ||| maskOf back
    .next (if back.isEmpty then s1 else (s1.useLanes n m).sendWidth n m)

/-- s after a write of AQD_CTL: DISABLE, then RETRAIN; LANERETRY asks for LANE_RETRY. -/
def State.wAqdCtl (s : State) (p v : Nat) : State :=
  let s1 := s.storeReg .AQD_CTL p v false
  let s2 := if s1.flag F.AQD_CTL_DISABLE p then (if s1.aqSt p = 0 ∨ s1.aqSt p = 6 then s1 else s1.portTo p 6)
    else if s1.aqSt p = 6 then (if s1.flag F.AQD_RING_QUAL 0 then s1.toTrain p else s1.toDetect p) else s1
  if F.AQD_CTL_RETRAIN.of v = 1 && (s2.aqSt p == 4 || s2.aqSt p == 5) then s2.toTrain p else s2

/-- AQD_RETRAIN (R368): AQD_CTL written as it is with RETRAIN 1. -/
def execAqdRetrain (p : APort) (s : State) : Res :=
  .next (s.hostWrite .AQD_CTL p.val fun t => t.wAqdCtl p.val (t.reg .AQD_CTL p.val + 4))
/-- AQD_DISABLE (R368): a write of AQD_CTL. -/
def execAqdDisable (p : APort) (v : Word) (s : State) : Res := .next (s.hostWrite .AQD_CTL p.val fun t => t.wAqdCtl p.val v.toNat)

/-! ## Remote requests at the originator (R382, R383, R386) -/

/-- s with a remote request complete (R386), and the requests sent that waited for it (R382, R383). -/
def State.finishRemote (s : State) (r : Remote) (code : Nat) (dead : Bool) (data : Bytes) : State := (s.completeRemote r code dead data).releaseHeld

/-- s with a request frame that no RESP answers in time complete (R386): DECERR, and a spout's write stays unacknowledged. -/
def State.timeoutRemote (s : State) (r : Remote) : State := s.finishRemote r 2 false []

/-- REMOTE_TIMEOUT (R386): RTO runs from the moment the weir takes the frame. (DESIGN CHOICE: notes/assumptions/10.md.) -/
def execRemoteTimeout (rtag : BitVec 12) (s : State) : Res :=
  match s.ring.remotes.find? fun r => r.rtag = rtag.toNat with
  | some r => if r.taken then .next (s.timeoutRemote r) else .next s
  | none => .next s

/-! ## Receiving frames (R376 to R378, R384, R385) -/

/-- s with a frame dropped that the link must send again. (DEDUCED: notes/assumptions/19.md.) -/
def State.askReplay (s : State) (p : Nat) : State := s.updAq p fun a => { a with nak := true, discard := true }

/-- s with a bad frame dropped, counted and asked for again (R376, R377). (DEDUCED: notes/assumptions/19.md.) -/
def State.badFrame (s : State) (p : Nat) : State := (s.bump F.AQD_CNT_CRCERR p 1).askReplay p

/-- FRAME_CHECK_FAIL. -/
def execFrameCheckFail (p : APort) (s : State) : Res := if s.aqSt p.val = 4 then .next (s.badFrame p.val) else .next s

/-- s with the acknowledgement of a received frame taken (R378): frames up to LACK leave the replay buffer, and NAK asks for a replay. -/
def State.takeAck (s : State) (p : Nat) (f : Frame) : State :=
  s.updAq p fun a =>
    let k := f.lack.toNat
    let b := if a.replayBuf.any fun g => g.lseq.toNat = k then (a.replayBuf.dropWhile fun g => g.lseq.toNat ≠ k).drop 1 else a.replayBuf
    let r := a.replays.filter fun g => b.any fun x => x.lseq = g.lseq
    { a with replayBuf := b, replays := r, replayDue := a.replayDue || f.nak }

/-- REPLAY (R378): every frame not acknowledged is sent again, in order. (DEDUCED: notes/assumptions/19.md.) -/
def execReplay (p : APort) (s : State) : Res :=
  let n := p.val
  if (s.aq n).replayDue && s.aqSt n == 4 then
    .next ((s.bump F.AQD_CNT_REPLAY n 1).updAq n fun a => { a with replays := a.replayBuf, replayDue := false })
  else .next s

/-- The frame is the next of its link in order. -/
def State.inOrder (s : State) (p : Nat) (f : Frame) : Bool := f.lseq.toNat == ((s.aq p).lastSeq + 1) % 65536

/-- s with a frame of the link accepted. (DEDUCED: notes/assumptions/19.md.) -/
def State.linkAccept (s : State) (p : Nat) (f : Frame) : State :=
  s.updAq p fun a => { a with lastSeq := f.lseq.toNat, ackDue := true, discard := false, nak := false }

/-- s after a frame with LSEQ on an UP port: out of sequence it is dropped and asked for once; `body` takes a frame in order, and answers none
where it refuses it. -/
def State.receive (s0 : State) (p : Nat) (f : Frame) (body : State → Option State) : State :=
  if s0.aqSt p ≠ 4 then s0
  else
    let s := s0.takeAck p f
    if !s.inOrder p f then (if (s.aq p).discard then s else s.askReplay p)
    else
      match body s with
      | some t => t.linkAccept p f
      | none => s.askReplay p

/-- A transit frame (R384): s with it forwarded or dropped, or none where the outbound weir refuses it (R401). (DEDUCED: notes/assumptions/19.md.) -/
def State.transit (s : State) (p : Nat) (f : Frame) : Option State :=
  let o := 1 - p
  if f.ttl = 0 || !([3, 4].contains (s.aqSt o)) then some (s.bump F.AQD_CNT_DROP p 1)
  else s.weirTransit o { f with ttl := f.ttl - 1 }

/-- s after a frame that is for this node or in transit. -/
def State.takeFrame (s : State) (p : Nat) (f : Frame) (here : State → State) : State :=
  s.receive p f fun t =>
    if f.dst.toNat = t.node then some (here t)
    else t.transit p f

/-- s after such a frame, a transit frame that was refused counted (R401). -/
def State.gotFrame (s : State) (p : Nat) (f : Frame) (here : State → State) : State :=
  let refused := s.aqSt p == 4 && s.inOrder p f && f.dst.toNat != s.node && (s.transit p f).isNone
  (if refused then s.transitFull (1 - p) f else s).takeFrame p f here

/-- Bytes that a SIZE code names. -/
def sizeBytes (c : BitVec 2) : Nat := if c = 0 then 64 else if c = 1 then 128 else 256

/-- The local request of a request frame (R385): a WR whose CODE is POISON carries the poison marker (DESIGN CHOICE: notes/assumptions/21.md). -/
def State.frameReq (s : State) (p : Nat) (f : Frame) : Req :=
  let n := sizeBytes f.size
  let w := 2 ^ f.ew.toNat
  let base : Req :=
    { origin := .remote p f.src.toNat f.rtag.toNat, kind := .rd, addr := f.addr.toNat, size := n, mask := 0, data := [], label := f.label.toNat,
      reqNo := if p = 0 then s.rd F.ITK_SRCREQ_AQE 0 else s.rd F.ITK_SRCREQ_AQW 0, priv := f.priv, tx := none }
  match f.typ.toNat with
  | 1 => base
  | 2 =>
    if f.code = 3 then { base with kind := .mark, mask := 2 ^ n - 1, data := f.payload } else { base with kind := .wr, mask := 2 ^ n - 1, data := f.payload }
  | 3 => { base with kind := .wr, mask := leNat (f.payload.take 32) % 2 ^ n, data := f.payload.drop 32 }
  | _ => { base with kind := .atom f.op.toNat w, size := w, data := f.payload.take w }

/-- A request frame whose operation, size or address no request can have. (DEDUCED: notes/assumptions/19.md.) -/
def frameBad (f : Frame) : Bool :=
  if f.typ = 4 then f.addr.toNat % 2 ^ f.ew.toNat != 0 else f.size == 3 || f.addr.toNat % sizeBytes f.size != 0

/-- s after a request frame for this node (R385, R403): policed, and then answered at once or admitted. -/
def State.serveFrame (s : State) (p : Nat) (f : Frame) : State :=
  match s.police p f with
  | (t, false) => t
  | (t, true) =>
    let r := t.frameReq p f
    let answer := fun c => t.sendResp f.src.toNat f.rtag.toNat f.label.toNat c false []
    if t.flag F.AQD_RING_DUP 0 then answer 2
    else if !t.anyOpen then answer 1
    else if frameBad f || decide (t.cap < r.addr + r.size) || (!f.priv && t.map.touchesPriv r.addr r.size) then answer 2
    else if r.kind = .wr && r.mask = 0 then answer 0
    else t.offer (169 + p) r

/-- Payload lengths of write data under a SIZE code (R377): SIZE bytes, and for the code of no data any transfer. (DEDUCED: notes/assumptions/19.md.) -/
def dataLens (c : BitVec 2) : List Nat := if c = 3 then [64, 128, 256] else [sizeBytes c]

/-- Payload lengths of a response (R377): data or a prior value only with CODE OK. -/
def respLens (f : Frame) : List Nat := if f.code ≠ 0 then [0] else if f.size = 3 then [0, 8] else [0, 8, sizeBytes f.size]

/-- A PLEN that a type allows (R377). -/
def plenOk (f : Frame) (ns : List Nat) : Bool := ns.contains f.payload.length

/-- FRAME_RD. -/
def execFrameRd (p : APort) (f : Frame) (s : State) : Res :=
  let g := { f with typ := 1 }
  .next (if s.aqSt p.val = 4 && !plenOk g [0] then s.badFrame p.val else s.gotFrame p.val g fun t => t.serveFrame p.val g)
/-- FRAME_WR. -/
def execFrameWr (p : APort) (f : Frame) (s : State) : Res :=
  let g := { f with typ := 2 }
  .next (if s.aqSt p.val = 4 && !plenOk g (dataLens g.size) then s.badFrame p.val else s.gotFrame p.val g fun t => t.serveFrame p.val g)
/-- FRAME_WRP. -/
def execFrameWrp (p : APort) (f : Frame) (s : State) : Res :=
  let g := { f with typ := 3 }
  .next (if s.aqSt p.val = 4 && !plenOk g ((dataLens g.size).map (32 + ·)) then s.badFrame p.val else s.gotFrame p.val g fun t => t.serveFrame p.val g)
/-- FRAME_ATOM: an OP of 7 to 15 is dropped as bad. -/
def execFrameAtom (p : APort) (f : Frame) (s : State) : Res :=
  let g := { f with typ := 4 }
  .next (if s.aqSt p.val = 4 && (!plenOk g [8] || decide (7 ≤ g.op.toNat)) then s.badFrame p.val else s.gotFrame p.val g fun t => t.serveFrame p.val g)

/-- FRAME_RESP (R386): a response whose request has timed out is counted in LATE. -/
def execFrameResp (p : APort) (f : Frame) (s : State) : Res :=
  let g := { f with typ := 8 }
  .next (if s.aqSt p.val = 4 && !plenOk g (respLens g) then s.badFrame p.val
    else s.gotFrame p.val g fun t =>
      match t.ring.remotes.find? fun r => r.rtag = g.rtag.toNat && r.node == g.src.toNat && r.taken with
      | some r => t.finishRemote r g.code.toNat g.deadRead g.payload
      | none => t.bump F.AQD_RTO_LATE 0 1)

/-- A ring state frame's payload: nonce, HOPS, RSTATE and the widths of the two ports (DEDUCED: notes/assumptions/26.md). -/
def rsfPayload (nonce hops rstate we ww : Nat) : Bytes :=
  toLE 4 nonce ++ toLE 1 hops ++ toLE 1 rstate ++ toLE 1 we ++ toLE 1 ww ++ bytesOf 8 0#8

/-- s with ring state frame f of port p, in order, acted upon (R380). (DEDUCED: notes/assumptions/26.md.) (DEDUCED: notes/assumptions/19.md.) -/
def State.takeRsf (s : State) (p : Nat) (f : Frame) : State :=
  let nonce := leNat (f.payload.take 4)
  let hops := leNat (sliceB f.payload 4 1)
  let src := f.src.toNat
  if src = s.node then
    if nonce = s.ring.nonce then
      let s1 : State := { s with ring := { s.ring with selfBack := Store.put false s.ring.selfBack p true } }
      s1.updRing hops
    else if s.flag F.AQD_RING_DUP 0 then s
    else (s.wr F.AQD_RING_DUP 0 1).emit Ev.AQD_DUP_NODE Un.inst s.node 0
  else if f.ttl = 0 then s
  else
    let keep := s.ring.records.filter fun r => !(r.1 = src && r.2.1 == p)
    let s1 : State := { s with ring := { s.ring with records := keep ++ [(src, p, hops)] } }
    let s2 := (s1.updRoute src).releaseHeld
    let o := 1 - p
    if s2.aqSt o = 4 then
      s2.linkFrame o { f with ttl := f.ttl - 1, payload := patchB f.payload 4 (toLE 1 (hops + 1)), lseq := 0, lack := 0, nak := false }
    else s2

/-- FRAME_RSF. -/
def execFrameRsf (p : APort) (f : Frame) (s : State) : Res :=
  let g := { f with typ := 0x10 }
  .next (if s.aqSt p.val = 4 && !plenOk g [16] then s.badFrame p.val else s.receive p.val g fun t => some (t.takeRsf p.val g))

/-- FRAME_LCTL: acknowledgement, or the partner's lanes in use (R375). -/
def execFrameLctl (p : APort) (f : Frame) (s : State) : Res :=
  let n := p.val
  if s.aqSt n ≠ 4 then .next s
  else if f.payload ≠ [] then .next (s.badFrame n)
  else
    let s1 := s.takeAck n f
    if f.op = 1 then
      let m := s1.kept n &&& f.addr.toNat % 16
      let s2 := s1.useLanes n m
      .next (if m = 0 then s2.linkLoss n else s2)
    else .next s1

/-- FRAME_TRN: exchanged in TRAIN, where TRAINING_DONE tells the outcome; on an UP port a link loss (R374). -/
def execFrameTrn (p : APort) (f : Frame) (s : State) : Res :=
  let n := p.val
  let good := f.payload.length == 16
  if s.aqSt n = 4 then .next (if good then s.linkLoss n else s.badFrame n)
  else .next (if (s.aqSt n == 3 || s.aqSt n == 5) && !good then s.bump F.AQD_CNT_CRCERR n 1 else s)

/-! ## Timers (R378, R380) -/

/-- LACK_TIMER: an acknowledgement where one is due. -/
def execLackTimer (p : APort) (s : State) : Res :=
  let a := s.aq p.val
  if s.aqSt p.val = 4 && (a.ackDue || a.nak) then .next (s.linkFrame p.val { Frame.zero with typ := 0x11, src := BitVec.ofNat 6 s.node }) else .next s

/-- RSF_SEND: a ring state frame on each UP port, unless a duplicate node was seen. -/
def execRsfSend (s : State) : Res :=
  if s.flag F.AQD_RING_DUP 0 then .next s
  else
    let f : Frame :=
      { Frame.zero with typ := 0x10, src := BitVec.ofNat 6 s.node, ttl := 63,
                        payload := rsfPayload s.ring.nonce 1 (s.rd F.AQD_RING_RSTATE 0) (s.rd F.AQD_STAT_WIDTH 0) (s.rd F.AQD_STAT_WIDTH 1) }
    .next (foldS [0, 1] s fun t p => if t.aqSt p = 4 then t.linkFrame p f else t)

/-- ROUTE_AGE_OUT: the record of a node on a port, or for the own node the return of the own ring state frames, is 12 ms old. -/
def execRouteAgeOut (node : Fin 64) (p : APort) (s : State) : Res :=
  if node.val = s.node then
    let s1 : State := { s with ring := { s.ring with selfBack := Store.put false s.ring.selfBack p.val false } }
    .next (s1.updRing (s1.rd F.AQD_RING_SIZE 0))
  else
    let s1 : State := { s with ring := { s.ring with records := s.ring.records.filter fun r => !(r.1 = node.val && r.2.1 == p.val) } }
    .next (s1.updRoute node.val).releaseHeld

/-! ## Ring registers (R371, R379, R387) -/

/-- s with NODE set: a duplicate is forgotten, and the routes follow. -/
def State.setNode (s : State) (n : Nat) : State := ((s.wr F.AQD_RING_NODE 0 n).wr F.AQD_RING_DUP 0 0).updRoutes

/-- s after a write of AQD_RING: NODE but on a worker, copied to the workers by the manager, and REQUAL. -/
def State.wAqdRing (s : State) (v : Nat) : State :=
  let n := F.AQD_RING_NODE.of v
  let s1 := if s.role = 1 then s else s.setNode n
  let s2 := if s1.role = 2 then ({ s1 with cas := { s1.cas with nodeSent := some n } } : State).send 0x05 true false 0 [0, n] else s1
  if F.AQD_RING_REQUAL.of v = 1 then s2.requal else s2

/-- NODE_WRITE (R379): a write of AQD_RING. -/
def execNodeWrite (v : Word) (s : State) : Res := .next (s.hostWrite .AQD_RING 0 fun t => t.wAqdRing v.toNat)

/-- REQUAL (R371): AQD_RING written as it is with REQUAL 1. -/
def execRequal (s : State) : Res := .next (s.hostWrite .AQD_RING 0 fun t => t.wAqdRing (t.node * 2 ^ 32 + 2 ^ 63))

/-- s after a write of AQD_RTO. -/
def State.wAqdRto (s : State) (v : Nat) : State :=
  let n := F.AQD_RTO_RTO.of v
  match firstCode [(n == 0, 1), (decide (n < 100 ∨ 100000 < n), 2)] with
  | 0 => s.storeReg .AQD_RTO 0 v false
  | c => (s.wr F.AQD_RING_ERR 0 c).emit Ev.AQD_CFG_REFUSED Un.inst c 0

end Sys2Proof.Machine
end

