-- ==== Sys2Proof/Machine/Gate.lean ====
section
/-! DEFINITION. Sys2Proof/Machine/Gate.lean: the switched domains and their triads (16_power_and_thermal.md R424, R427), gating a domain (R435,
R426) and asking for its wake (R436). -/
namespace Sys2Proof.Machine

/-- The triad that feeds domain d (R427). -/
def triadOf (d : Nat) : Nat :=
  if d < 32 then d / 8
  else if d < 40 then ((d - 32) / 2 + 1) % 4
  else if d < 48 then 4
  else if d < 56 then 5
  else if d = 56 ∨ d = 57 ∨ d = 64 then 7
  else 6

/-- The domains that triad t feeds. -/
def domainsOf (t : Nat) : List Nat := (List.range 66).filter fun d => triadOf d == t

/-- s with domain d in a state: 0 OFF, 1 WAKING, 2 ON, 3 GATING, 4 DARK. -/
def State.setDom (s : State) (d v : Nat) : State := s.wr F.PWR_DSTAT_STATE d v

/-- s with what the unit of domain d loses when its power goes: the tile stores, the lines of the sets of quadrants 2 and 3 (11_intake_and_basin.md
R323), the port with QUAL (13_aqueduct_ring.md R368, R371). (DESIGN CHOICE: notes/assumptions/4.md.) -/
def State.losePower (s : State) (d : Nat) : State :=
  if d = 59 then { s with tiles := [] }
  else if d = 60 ∨ d = 61 then s.dropLines (fun l => decide (1024 ≤ setOf l.chunk)) 2
  else if d = 56 ∨ d = 57 then
    ((s.wr F.AQD_RING_QUAL 0 0).portTo (d - 56) 0).updAq (d - 56) fun a => { a with loopDone := false, passed := false, everUp := false, detectRec := false }
  else s

/-- s with domain d gated (R435), the 200 ns in GATING taken at once; a wake it waits for or makes is given up. A DARK domain stays DARK. -/
def State.gateDomain (s : State) (d : Nat) : State :=
  let p := s.power
  let s1 : State := { s with power := { p with wakes := p.wakes.filter (fun w => w.1 ≠ d), ramps := p.ramps.filter (fun w => w.1 ≠ d),
                                               delayed := p.delayed.filter (· ≠ d) } }
  if s.domSt d = 4 then s1 else (s1.losePower d).setDom d 0

/-- s with domain d waiting to wake (R436), unless it is ON or on its way. -/
def State.wantWake (s : State) (d : Nat) : State :=
  if (s.domSt d = 0 || s.domSt d = 4) && !(s.power.wakes.any fun w => w.1 = d) then
    { s with power := { s.power with wakes := s.power.wakes ++ [(d, false)] } }
  else s

/-- The domains that a host request for d applies to: the two quadrants of part B go together (R426). -/
def requestOf (d : Nat) : List Nat := if d = 60 ∨ d = 61 then [60, 61] else [d]

/-- s with the host's request for domain d carried out (R426). -/
def State.followRequest (s : State) (d : Nat) : State :=
  foldS (requestOf d) s fun t k => if t.flag F.PWR_DCTL_ON d then t.wantWake k else t.gateDomain k

/-- s with the host's requests carried out that waited for the end of a power state or a reset (R426). -/
def State.lateRequests (s : State) : State :=
  foldS s.power.late ({ s with power := { s.power with late := [] } } : State) fun t d => t.followRequest d

end Sys2Proof.Machine
end

