-- ==== Sys2Proof/Machine/Spare.lean ====
section
/-! DEFINITION. Sys2Proof/Machine/Spare.lean: spare rills, their uses and the calibration activities that take them (10_rills.md R300 to R302;
17_calibration_and_training.md R457, R461, R462, R464). -/
namespace Sys2Proof.Machine

/-- USE of spare m: 0 FREE, 1 MEASURE, 2 CARRY, 3 TAKEOVER. -/
def State.spareUse (s : State) (m : Nat) : Nat := s.rd F.SP_STAT_USE m
/-- The pseudo-channel spare m serves. -/
def State.sparePc (s : State) (m : Nat) : Nat := 8 * m + s.rd F.SP_STAT_PC m
/-- The octet's spare serves pseudo-channel n in a use of at least u. -/
def State.served (s : State) (n u : Nat) : Bool := s.spareUse (n / 8) != 0 && s.sparePc (n / 8) == n && decide (u ≤ s.spareUse (n / 8))

/-- The leg that carries pseudo-channel n's traffic: the second while the spare carries or has taken over, else the primary. -/
def State.drivingLeg (s : State) (n : Nat) : Nat := if s.served n 2 then 2 * n + 1 else 2 * n

/-- The leg carries traffic: its pseudo-channel is open or parked and it is the driving leg. -/
def State.legBusy (s : State) (leg : Nat) : Bool := (s.pcSt (leg / 2) == 1 || s.pcSt (leg / 2) == 2) && s.drivingLeg (leg / 2) == leg

/-- The trims of a leg are verified. -/
def State.trimsOk (s : State) (leg : Nat) : Bool := s.flag F.CAL_ZQ_VERIFIED leg && s.flag F.CAL_VREF_VERIFIED leg

/-- The delays of a leg for the set point in use are valid. -/
def State.delaysValid (s : State) (leg : Nat) : Bool :=
  s.flag F.CAL_RDLY_VALID (2 * leg + s.fsp) && s.flag F.CAL_WDLY_VALID (2 * leg + s.fsp)

/-- The delays of a leg for the set point in use are valid and verified. -/
def State.delaysOk (s : State) (leg : Nat) : Bool :=
  s.delaysValid leg && s.flag F.CAL_RDLY_VERIFIED (2 * leg + s.fsp) && s.flag F.CAL_WDLY_VERIFIED (2 * leg + s.fsp)

/-- Spare m works: its domain is ON and its checker passed the last self-test (12_data_integrity.md R361). -/
def State.spareWorks (s : State) (m : Nat) : Bool := s.domOn (32 + m) && !(s.rd F.RAS_STSPARE_SPFAIL 0).testBit m

/-- The octet's spare is available for CARRY on pseudo-channel n (17_calibration_and_training.md R457). -/
def State.carryOk (s : State) (n : Nat) : Bool :=
  let m := n / 8
  decide (s.spareUse m ≤ 1) && s.spareWorks m && s.trimsOk (2 * n + 1) && s.delaysOk (2 * n + 1) && !s.flag F.CAL_LSTAT_BAD (2 * n + 1)

/-- s with spare m's use and pseudo-channel set, and SPARE of the pseudo-channels of the octet telling which one it drives. -/
def State.setSpare (s : State) (m use pc : Nat) : State :=
  let s1 := (s.wr F.SP_STAT_USE m use).wr F.SP_STAT_PC m (if use = 0 then 0 else pc % 8)
  foldS (List.range 8) s1 fun t k => t.wrB F.PC_STAT_SPARE (8 * m + k) (decide (2 ≤ use) && pc == 8 * m + k)

/-- s with an activity that was under way ended without applying anything, under a cause of R464 in the order of its rows, 1 to 6; it stays to be
retried unless it is a drift check whose pseudo-channel left OPEN, or ends in a trip; a drift check takes MEASURE again. -/
def State.abandonAct (s : State) (a : Act) (cause : Nat) : State :=
  let again := if (a.kind = 0 && cause = 2) || cause = 5 then [] else [{ a with started := false, use := if a.kind = 0 && a.use = 2 then 1 else a.use }]
  let s1 := (s.bump F.CAL_CNT_ABANDON 0 1).emit Ev.CAL_ABANDONED (Un.leg a.leg) cause 0
  let s2 := s1.wr F.CAL_LSTAT_ACT a.leg 0
  let c := s2.cal
  let s3 := { s2 with cal :=
                { c with acts := (c.acts.filter (· ≠ a)) ++ again, meas := Store.erase c.meas a.leg, pending := Store.erase c.pending a.leg,
                         pendDly := Store.erase c.pendDly a.leg, points := Store.erase c.points a.leg, kept := Store.erase c.kept a.leg,
                         retried := c.retried.filter (· ≠ a.leg) } }
  if a.use ≠ 0 && s3.served (a.leg / 2) 1 && decide (s3.spareUse (a.leg / 16) ≤ 2) then s3.setSpare (a.leg / 16) 0 0 else s3

/-- s with every activity under way of which p holds abandoned under a cause. -/
def State.abandonAll (s : State) (p : Act → Bool) (cause : Nat) : State :=
  foldS (s.cal.acts.filter fun a => a.started && p a) s fun t a => t.abandonAct a cause

/-- s with every activity under way on pseudo-channel n abandoned under a cause. -/
def State.abandonPc (s : State) (n cause : Nat) : State := s.abandonAll (fun a => a.leg / 2 == n) cause

/-- s with spare m's lower use ended under a cause of R464, handed back where it was CARRY (R301). -/
def State.endUseFor (s : State) (m cause : Nat) : State :=
  if s.spareUse m = 0 ∨ s.spareUse m = 3 then s
  else
    let s1 := s.abandonPc (s.sparePc m) cause
    if s1.spareUse m = 0 then s1 else s1.setSpare m 0 0

/-- s with spare m's lower use ended for one of higher priority (R300). -/
def State.endUse (s : State) (m : Nat) : State := s.endUseFor m 1

/-- s with the octet's spare in TAKEOVER for pseudo-channel n, recorded in the map record (R300 to R302). -/
def State.takeover (s : State) (n : Nat) : State :=
  let s1 := ((s.endUse (n / 8)).setSpare (n / 8) 3 n).emit Ev.TAKEOVER (Un.pc n) (n / 8) 0
  { s1 with map := { s1.map with takeover := (s1.map.takeover.filter fun e => e.1 ≠ n / 8) ++ [(n / 8, n)] } }

/-- s after pseudo-channel n lost the rill that drives it (R302): the spare takes it over, or it is retired where the spare is in TAKEOVER, is dark or
failed its self-test; RILL_FAIL in either case. -/
def State.rillFails (s : State) (n : Nat) : State :=
  if s.fenced n then s
  else if s.spareUse (n / 8) = 3 || !s.spareWorks (n / 8) then
    ((s.abandonPc n 2).retirePc n).emit Ev.RILL_FAIL (Un.pc n) 0xFF 0
  else ((s.abandonPc n 2).takeover n).emit Ev.RILL_FAIL (Un.pc n) (n / 8) 0

/-- s after the driving leg of pseudo-channel n failed its training (17_calibration_and_training.md R460). (DEDUCED: notes/assumptions/45.md.) -/
def State.legFails (s : State) (n : Nat) : State :=
  if s.carryOk n then s.takeover n else s.retirePc n

/-! ## Activities that start (17_calibration_and_training.md R461, R463, R469) -/

/-- The effective reading of the sensor that governs pseudo-channel n's pads (16_power_and_thermal.md R439), as 8 bits. -/
def State.padTemp (s : State) (n : Nat) : Nat := s.rd F.THM_SENS_TEMP (n / 16)

/-- The activity of a leg that is under way. (DEDUCED: notes/assumptions/45.md.) -/
def State.actOf (s : State) (leg : Nat) : Option Act := s.cal.acts.find? fun a => a.leg = leg && a.started

/-- A set-point change holds or switches (R469): no activity starts. -/
def State.calHeld (s : State) : Bool := s.flag F.CAL_STAT_HOLD 0 || s.flag F.CAL_STAT_SWITCH 0

/-- Impedance recalibrations wait for a window that is not open (R463). -/
def State.windowWaits (s : State) (a : Act) : Bool :=
  a.kind == 2 && !a.nowin && s.flag F.CAL_CFG_WINONLY 0 && !s.time.calWin

/-- ACT of an activity that starts: 1 measuring, 2 sweeping; 3 applying where new delays already wait. -/
def Act.shows (a : Act) : Nat := if a.kind = 2 then 1 else 2

/-- s with an activity started. -/
def State.startAct (s : State) (a : Act) : State :=
  let s1 := { s with cal := { s.cal with acts := s.cal.acts.map fun x => if x = a then { x with started := true } else x } }
  s1.wr F.CAL_LSTAT_ACT a.leg (if (Store.find s.cal.pendDly a.leg).isSome then 3 else a.shows)

/-- The activity can start as far as its pseudo-channel goes: it is OPEN, nothing holds, no trip runs, and its window is open. -/
def State.mayStart (s : State) (a : Act) : Bool := !a.started && s.power.shut == 0 && s.pcSt (a.leg / 2) == 1 && !s.calHeld && !s.windowWaits a

/-- s with every activity that takes no spare started where it may. -/
def State.kick (s : State) : State :=
  foldS s.cal.acts s fun t a => if a.use = 0 && t.mayStart a && (t.actOf a.leg).isNone then t.startAct a else t

/-- The spare of a pseudo-channel can serve it in MEASURE: it works and has not been taken over. -/
def State.measureOk (s : State) (n : Nat) : Bool := s.spareUse (n / 8) != 3 && s.spareWorks (n / 8)

/-- s with a calibration activity added, unless the same one is there. -/
def State.addAct (s : State) (a : Act) : State :=
  if s.cal.acts.any fun x => x.kind = a.kind && x.leg = a.leg then s
  else { s with cal := { s.cal with acts := s.cal.acts ++ [a] } }

/-- s with a drift check of pseudo-channel n asked for, unless one waits or is under way (17_calibration_and_training.md R461). -/
def State.askDrift (s : State) (n : Nat) : State :=
  if s.cal.acts.any fun a => a.kind = 0 && a.leg / 2 = n then s
  else (s.addAct { kind := 0, leg := s.drivingLeg n, use := if s.measureOk n then 1 else 0, started := false, nowin := true }).kick

/-- The sensor that governs pseudo-channel n has moved 5 °C or more since its last drift check (17_calibration_and_training.md R461); with no check
yet there is nothing to compare (DEDUCED: notes/assumptions/45.md). -/
def State.driftMoved (s : State) (n : Nat) : Bool :=
  match Store.find s.cal.driftT n with
  | some t =>
    let d := sx 8 (s.padTemp n) - sx 8 t
    decide (5 ≤ d ∨ d ≤ -5)
  | none => false

/-- s with the parked pseudo-channel n OPEN again, with the drift check that its sensor asks for (R303; 17_calibration_and_training.md R461). -/
def State.unparkPc (s : State) (n : Nat) : State :=
  let s1 := s.wr F.PC_STAT_STATE n 1
  if s1.driftMoved n then s1.askDrift n else s1

end Sys2Proof.Machine
end

