-- ==== Sys2Proof/Machine/Rill.lean ====
section
/-! DEFINITION. Sys2Proof/Machine/Rill.lean: the rills (10_rills.md): the ordering point's choice, the command tiers, the check buffer, refresh,
neighbour refresh, promotion, park, self-refresh, channel reset, rill failure; the returns of stack reads (12_data_integrity.md R341,
R347, R354) and scrub (R355, R356). -/
namespace Sys2Proof.Machine

/-! ## Ordering point (01_architecture.md R24) -/

/-- The log writes of committing slots that lie on pseudo-channel pc: those a held request waits for first (09_transactions.md R265). -/
def State.logWrites (s : State) (pc : Nat) : List Req :=
  let all := (List.range 64).flatMap fun t =>
    if (s.slot t).st = TxSt.committing then
      ((s.slot t).log.filter fun e => (s.gloc e.1).pc = pc).map fun e =>
        { origin := .log t, kind := .wr, addr := 64 * e.1, size := 64, mask := 2 ^ 64 - 1, data := e.2, label := (s.slot t).label,
          reqNo := (s.slot t).reqOf e.1, priv := true, tx := none : Req }
    else []
  let wanted := fun (r : Req) => (s.pc pc).waiting.any fun w => w.2.granules.contains (r.addr / 64)
  all.filter wanted ++ all.filter fun r => !wanted r

/-- A read of its own that the block asks of granule g, with the bit errors it will meet. -/
def ownRead (o : Origin) (g : Nat) (errs : Bytes) : Req :=
  { origin := o, kind := .rd, addr := 64 * g, size := 64, mask := 2 ^ 64 - 1, data := errs, label := 0, reqNo := 0, priv := true, tx := none }

/-- The requests of its own that a pseudo-channel offers to its ordering point: the write-back or marker at the head of its correction queue, the
verify reads due, the reads of the page being scrubbed (12_data_integrity.md R353 to R355). While it is not OPEN it scrubs and verifies nothing
(R356). -/
def PcState.ownReqs (p : PcState) (isOpen : Bool) : List Req :=
  let back := match p.corrQ with
    | (_, g, d, marker) :: _ =>
      [{ origin := .cwb, kind := .wr, addr := 64 * g, size := 64, mask := 2 ^ 64 - 1, data := if marker then [] else d, label := 0, reqNo := 0,
         priv := true, tx := none : Req }]
    | [] => []
  if isOpen then back ++ (p.verifyQ.map fun e => ownRead .verify e.2 []) ++ p.scrubQ.map fun e => ownRead .scrub e.1 e.2 else back

/-- The requests a source presents to a pseudo-channel's ordering point, in order, without those behind an earlier one of the same source on a
common granule (R25, R26). -/
def State.presented (s : State) (pc src : Nat) : List Req :=
  let own := ((s.pc pc).waiting.filter fun w => w.1 = src).map (·.2)
  let l := if src = 13 then s.logWrites pc ++ own else if src = 14 then (s.pc pc).ownReqs (s.pcSt pc == 1) ++ own else own
  (l.foldl (fun (acc : List Req × List Nat) r =>
    if r.granules.any fun g => acc.2.contains g then (acc.1, acc.2 ++ r.granules) else (acc.1 ++ [r], acc.2 ++ r.granules)) ([], [])).1

/-- s with an accepted request no longer waiting. -/
def State.takeWaiting (s : State) (pc : Nat) (r : Req) : State :=
  s.updPc pc fun p =>
    match r.origin with
    | .cwb => { p with corrQ := p.corrQ.drop 1 }
    | .verify => { p with verifyQ := dropFirst (fun e => e.2 == r.addr / 64) p.verifyQ }
    | .scrub => { p with scrubQ := dropFirst (fun e => e.1 == r.addr / 64) p.scrubQ }
    | _ => { p with waiting := dropFirst (fun w => w.2 == r) p.waiting }

/-- The first request among those of a source that the ordering point can accept, with the state after. -/
def State.firstAccept (s : State) (pc : Nat) : List Req → Option State
  | [] => none
  | r :: rs =>
    match (s.takeWaiting pc r).acceptReq pc r with
    | some s1 => some s1
    | none => s.firstAccept pc rs

/-- The first source in rotation, from a list of source numbers, from which a request is accepted: its number and the state after. (DEDUCED: notes/assumptions/46.md.) -/
def State.rotate (s : State) (pc : Nat) : List Nat → Option (Nat × State)
  | [] => none
  | k :: ks =>
    match s.firstAccept pc (s.presented pc k) with
    | some s1 => some (k, s1)
    | none => s.rotate pc ks

/-- Source k waits at pseudo-channel pc for a free entry of the queue: it has a request of a kind none of whose entries is free (10_rills.md R284). -/
def State.waitsForRoom (s : State) (pc k : Nat) : Bool := (s.presented pc k).any fun r => !(s.pc pc).room r.origin.background

/-- The source the rotation stands at after it took a request of source k: the next one, or the first source passed over that waits for a full
queue and keeps its place (10_rills.md R284). -/
def State.nextRot (s : State) (pc k : Nat) (order : List Nat) : Nat :=
  ((order.takeWhile (· != k)).find? fun j => s.waitsForRoom pc j).getD ((k + 1) % 15)

/-- The ordering point of a pseudo-channel takes requests: it is open or parked, or fenced. -/
def State.takes (s : State) (pc : Nat) : Bool := s.pcSt pc == 1 || s.pcSt pc == 2 || s.pcSt pc == 5

/-- ORDERING_POINT_ACCEPT (01_architecture.md R24, R284): the next source in rotation with a request that can be accepted; a request reaching a parked
pseudo-channel ends its park (18_bringup_reset_lowpower.md R486). Unchanged while nothing can be accepted. -/
def execOrderingPointAccept (pc : Pc) (s : State) : Res :=
  let n := pc.val
  if s.takes n then
    let rot := (s.pc n).rot
    let order := (List.range 15).map fun k => (rot + k) % 15
    match s.rotate n order with
    | some (k, s1) =>
      let s2 := s1.updPc n fun p => { p with rot := s.nextRot n k order }
      .next (if s.pcSt n = 2 then s2.unparkPc n else s2).censusDone
    | none => .next s
  else .next s

/-! ## Command issue (R281, R287 to R294, R299) -/

/-- The bank of granule g. -/
def State.bankG (s : State) (g : Nat) : Nat := bankOf (s.gloc g).page

/-- The tier of a queue entry (R287): promoted or URGENT 2, HI 3, correction write-back 4, MID 5, LO 6, scrub and verify reads 8, census 10. -/
def State.tierOf (s : State) (e : Entry) : Nat :=
  match e.req.origin with
  | .cwb => 4
  | .verify | .scrub => 8
  | .census _ _ => 10
  | _ =>
    if e.promoted then 2
    else
      match bits (s.rd F.SCH_CLSRANK_RANK 0) (2 * classOf e.req.label + 1) (2 * classOf e.req.label) with
      | 3 => 2
      | 2 => 3
      | 1 => 5
      | _ => 6

/-- The first granule of entry number k that no older entry still has to serve (R285). -/
def PcState.eligible (p : PcState) (k : Nat) : Option Nat :=
  match p.queue[k]? with
  | none => none
  | some e => e.todo.find? fun g => !((p.queue.take k).any fun o => o.todo.contains g)

/-- Entries of a queue that can go on, oldest first: number, entry and granule. -/
def PcState.candidates (p : PcState) : List (Nat × Entry × Nat) :=
  (List.range p.queue.length).filterMap fun k =>
    match p.queue[k]?, p.eligible k with
    | some e, some g => some (k, e, g)
    | _, _ => none

/-- Writes in a queue. -/
def PcState.writes (p : PcState) : Nat := (p.queue.filter fun e => e.req.kind != .rd).length

/-- Write drain after the checks of R290. -/
def State.drainNow (s : State) (n : Nat) : Bool :=
  let p := s.pc n
  let w := p.writes
  let rd := p.candidates.any fun c => c.2.1.req.kind == .rd
  if s.flag F.PC_STAT_DRAIN n then !(decide (w ≤ s.rd F.SCH_SCHED_WRLO 0) && rd)
  else decide (s.rd F.SCH_SCHED_WRHI 0 ≤ w) || (decide (0 < w) && !rd)

/-- s with the next column command of entry number k for granule g issued: the check column a read needs, then the two data columns; with the last
one the granule is served (R281, R284). (DESIGN CHOICE: notes/assumptions/17.md.) -/
def State.column (s : State) (n k g : Nat) (e : Entry) : State :=
  let x := s.gloc g
  let b := bankOf x.page
  let c := colOf x.slot
  if e.req.kind = .rd && !s.inWindow g && !((s.pc n).bank b).held.getLsbD c then s.readCheck n b c
  else if e.cols = 0 then s.updPc n fun p => { p with queue := p.queue.set k { e with cols := 1, todo := g :: e.todo.filter (· ≠ g) } }
  else (s.serve n k g).updPc n PcState.sweep

/-- A granule of a remapped place, or of an entry on an open page, in bank b. -/
def State.openFor (s : State) (n g : Nat) : Bool := ((s.pc n).bank (s.bankG g)).showsPage (s.gloc g).page

/-- The command that `precharge` issues to bank b can issue: the write of a check column, or the PRE. -/
def State.mayClose (s : State) (n : Nat) (ready : Ready) (b : Nat) : Bool :=
  if ((s.pc n).bank b).changed = 0 then ready.pre.getLsbD b else ready.wr.getLsbD b

/-- The column command that `column` issues next for an entry can issue: a read of a check or a data column, or a write. -/
def readyCol (ready : Ready) (e : Entry) (b : Nat) : Bool := if e.req.kind = .rd then ready.rd.getLsbD b else ready.wr.getLsbD b

/-- What R288 takes first of requests of one tier and one kind, oldest first: a column command, an ACT, or a PRE, each only where the bank's
timing allows it (`ready`); `keep` are the banks whose open row some request of the same or a lower-numbered tier targets. A remapped
granule is served without a command (12_data_integrity.md R357). (DESIGN CHOICE: notes/assumptions/17.md.) -/
def State.chooseReq (s : State) (n : Nat) (ready : Ready) (keep : List Nat) (cs : List (Nat × Entry × Nat)) : Option State :=
  let p := s.pc n
  match cs.find? fun c => (s.remapOf (s.gloc c.2.2)).isSome with
  | some c => some ((s.serve n c.1 c.2.2).updPc n PcState.sweep)
  | none =>
  match cs.find? fun c => s.openFor n c.2.2 && readyCol ready c.2.1 (s.bankG c.2.2) with
  | some c => some (s.column n c.1 c.2.2 c.2.1)
  | none =>
    match cs.find? fun c =>
        let b := p.bank (s.bankG c.2.2)
        b.row.isNone && !b.rfm && b.owed != 8 && ready.act.getLsbD (s.bankG c.2.2) with
    | some c => some (s.activate n c.2.2)
    | none =>
      match cs.find? fun c =>
          let b := p.bank (s.bankG c.2.2)
          b.row.isSome && !s.openFor n c.2.2 && !keep.contains (s.bankG c.2.2) && s.mayClose n ready (s.bankG c.2.2) with
      | some c => some (s.precharge n (s.bankG c.2.2))
      | none => none

/-- The refresh of tier 1 or 7 that can issue, over banks in number order: the PRE of an open row, then the command. (DESIGN CHOICE: notes/assumptions/17.md.) -/
def State.chooseRef (s : State) (n : Nat) (ready : Ready) (want : Bank → Bool) (keep : List Nat) : Option State :=
  let p := s.pc n
  match (List.range 80).find? fun b =>
      want (p.bank b) && (if (p.bank b).row.isNone then ready.ref.getLsbD b else !keep.contains b && s.mayClose n ready b) with
  | none => none
  | some b =>
    if (p.bank b).row.isSome then some (s.precharge n b)
    else if (p.bank b).rfm then some (s.issueRfm n b)
    else some (s.issueRef n b)

/-- Banks whose open row a request of one of the tiers up to t targets. -/
def State.targeted (s : State) (n t : Nat) : List Nat :=
  ((s.pc n).queue.filter fun e => decide (s.tierOf e ≤ t)).flatMap fun e => (e.todo.filter fun g => s.openFor n g).map s.bankG

/-- The command of tier t, if one can issue (R287 to R290). (DESIGN CHOICE: notes/assumptions/17.md.) -/
def State.chooseTier (s : State) (n : Nat) (ready : Ready) (t : Nat) : Option State :=
  if t = 1 then s.chooseRef n ready (fun b => b.rfm || b.owed == 8) []
  else if t = 7 then
    if s.flag F.SCH_STAT_DEFER 0 then none
    else s.chooseRef n ready (fun b => decide (0 < b.owed)) (s.targeted n 7)
  else
    let cs := (s.pc n).candidates.filter fun c => s.tierOf c.2.1 == t
    let rds := cs.filter fun c => c.2.1.req.kind == .rd
    let wrs := cs.filter fun c => c.2.1.req.kind != .rd
    let keep := s.targeted n t
    let (a, b) := if s.flag F.PC_STAT_DRAIN n then (wrs, rds) else (rds, wrs)
    match s.chooseReq n ready keep a with
    | some s1 => some s1
    | none => s.chooseReq n ready keep b

/-- The tiers in the order this command clock takes them: while scrub is behind, or while a tide action holds its window open
(15_time_and_tide.md R420), one clock in every 64 puts tier 8 before tiers 2 to 7 (R287, R291).
Tier 9 has no command of the queue: calibration on the primary leg is the rows of 17_calibration_and_training.md. (DESIGN CHOICE:
notes/assumptions/17.md.) -/
def PcState.tiers (p : PcState) (opened : Bool) : List Nat :=
  if (p.behind || opened) && p.clocks % 64 == 63 then [1, 8, 2, 3, 4, 5, 6, 7, 10] else [1, 2, 3, 4, 5, 6, 7, 8, 10]

/-- The rill of pseudo-channel n runs and keeps its stack refreshed: it is OPEN, or kept closed for retraining after self-refresh (R293, R305). -/
def State.rillRuns (s : State) (n : Nat) : Bool := s.pcSt n == 1 || (s.pcSt n == 0 && s.map.mode != 0)

/-- RILL_COMMAND_ISSUE (R287): one command clock of a rill; `ready` says of each bank and kind of command whether the timing parameters of R282 let
it issue. (DESIGN CHOICE: notes/assumptions/10.md.) (DESIGN CHOICE: notes/assumptions/17.md.) -/
def execRillCommandIssue (pc : Pc) (ready : Ready) (s : State) : Res :=
  let n := pc.val
  if s.rillRuns n then
    let s1 := (s.updPc n fun p => { p with clocks := (p.clocks + 1) % 64 }).wrB F.PC_STAT_DRAIN n (s.drainNow n)
    match ((s.pc n).tiers s.sched.scrubPrec).findSome? fun t => s1.chooseTier n ready t with
    | some s2 => .next s2
    | none => .next s1
  else .next s

/-- AGE_PROMOTE (R289): a foreground entry moves to tier 2. -/
def execAgePromote (pc : Pc) (entry : Fin 64) (s : State) : Res :=
  .next (s.updPc pc.val fun p =>
    match p.queue[entry.val]? with
    | some e => if e.bg then p else { p with queue := p.queue.set entry.val { e with promoted := true } }
    | none => p)

/-! ## Returns of stack reads -/

/-- The errors of a command that fall on run number k of a read whose runs have these lengths, with positions within the run. -/
def flipsOf (fl : List (Nat × Byte)) (start len : Nat) : List (Nat × Byte) :=
  (fl.filter fun f => decide (start ≤ f.1 ∧ f.1 < start + len)).map fun f => (f.1 - start, f.2)

/-- s after the decode of each run of read r, and what its granules get; positions of the errors run on from one run to the next. A granule written
since the read was accepted gets no write-back (01_architecture.md R28). -/
def State.decodeRuns (s : State) (r : Req) (newer : List Nat) (src : Nat) (fl : List (Nat × Byte)) :
    Nat → List (Nat × Bytes) → State × List (Nat × Got)
  | _, [] => (s, [])
  | start, (g, w) :: rest =>
    let (s1, got) := s.decode g (r.span g) (flipBytes w (flipsOf fl start w.length)) src r.label (if newer.contains g then .none else .all)
    let (s2, gots) := State.decodeRuns s1 r newer src fl (start + w.length) rest
    (s2, (g, got) :: gots)

/-- Bytes as read with the errors of a scrub command. -/
def xorBytes (w errs : Bytes) : Bytes := (List.range w.length).map fun i => w.getD i 0#8 ^^^ errs.getD i 0#8

/-- s with the oldest read in flight at pseudo-channel n that satisfies p taken out, and that read. -/
def State.takeFlight (s : State) (n : Nat) (p : Flight → Bool) : State × Option Flight :=
  (s.updPc n fun q => { q with flights := dropFirst p q.flights }, (s.pc n).flights.find? p)

/-- READ_DATA_RETURN (12_data_integrity.md R341): the data of the oldest read on its way, verify reads apart, comes back, with the bit errors of the
command, and is decoded and answered; a scrub read is decoded only (R355). -/
def execReadDataReturn (pc : Pc) (flips : List (Nat × Byte)) (s : State) : Res :=
  match s.takeFlight pc.val fun f => f.req.origin != .verify with
  | (_, none) => .next s
  | (s1, some f) =>
    match f.req.origin with
    | .scrub => .next (s1.decodeRuns f.req f.newer 1 flips 0 (f.raws.map fun e => (e.1, xorBytes e.2 f.req.data))).1
    | .census _ _ =>
      let (s2, gots) := s1.decodeRuns { f.req with label := 0 } f.newer 4 flips 0 f.raws
      .next (s2.finishRead f.req (f.got ++ gots) false).censusDone
    | _ =>
      let (s2, gots) := s1.decodeRuns f.req f.newer 0 flips 0 f.raws
      .next (s2.finishRead f.req (f.got ++ gots) true)

/-- MERGE_READ_RETURN (R347): the oldest merge's read returns and the merge ends, once its full-granule write finds a free entry. -/
def execMergeReadReturn (pc : Pc) (flips : List (Nat × Byte)) (s : State) : Res :=
  match (s.pc pc.val).merges with
  | [] => .next s
  | m :: _ => if (s.pc pc.val).room false then .next (s.endMerge m flips true) else .next s

/-- The first remap entry without VALID. -/
def State.freeRemap (s : State) : Option Nat := (List.range 32).find? fun i => !s.flag F.RAS_REMAP_VALID i

/-- s with a page on the pending repair list, or REPAIR_LIST_FULL recorded (R358). -/
def State.pendPage (s : State) (pc page : Nat) : State :=
  let has := (List.range 16).any fun i => s.flag F.RAS_PEND_VALID i && s.rd F.RAS_PEND_PC i == pc && s.rd F.RAS_PEND_PAGE i == page
  if has then s
  else
    match (List.range 16).find? fun i => !s.flag F.RAS_PEND_VALID i with
    | some i => (((s.wr F.RAS_PEND_VALID i 1).wr F.RAS_PEND_TRIES i 0).wr F.RAS_PEND_PC i pc).wr F.RAS_PEND_PAGE i page
    | none => s.emit Ev.REPAIR_LIST_FULL (Un.pc pc) page 0

/-- s after a hard error on granule g (R357, R358): its data, or poison where there is none, in a remap slot with the records; with the table full
the page waits for repair; so does a page that takes a second entry. -/
def State.hardError (s : State) (g : Nat) (d : Option Bytes) : State :=
  let x := s.gloc g
  match s.freeRemap with
  | none => (s.pendPage x.pc x.page).emit Ev.REMAP_FULL (Un.pc x.pc) x.page 0
  | some i =>
    let twice := (List.range 32).any fun k => s.flag F.RAS_REMAP_VALID k && s.rd F.RAS_REMAP_PC k == x.pc && s.rd F.RAS_REMAP_PAGE k == x.page
    let s1 := (((s.wr F.RAS_REMAP_VALID i 1).wr F.RAS_REMAP_PC i x.pc).wr F.RAS_REMAP_PAGE i x.page).wr F.RAS_REMAP_SLOT i x.slot
    let s2 := match d with
      | some b => s1.setSlot i b
      | none => s1.wrB F.RAS_REMAP_POISON i true
    let s3 := (s2.errRecord 3 3 x (s2.inWindow g) 0 (some (64 * g)) 127 127 0).emit Ev.HARD_ERROR (Un.pc x.pc) i 0
    if twice then s3.pendPage x.pc x.page else s3

/-- VERIFY_READ_RETURN (R354, R357): the oldest verify read on its way comes back: clean marks the error soft; another failure is a hard error, unless
the granule was written meanwhile. With the remap table full the granule stays on the stack, corrected or poisoned (R358). -/
def execVerifyReadReturn (pc : Pc) (flips : List (Nat × Byte)) (s : State) : Res :=
  match s.takeFlight pc.val fun f => f.req.origin == .verify with
  | (s1, some f) =>
    match f.raws with
    | (g, w0) :: _ =>
      let w := flipBytes w0 flips
      if f.newer.contains g then .next s1
      else
        let s2 := (s1.decode g (2 ^ 64 - 1) w 3 0 (if s1.freeRemap.isSome then .none else .all)).1
        match s1.decodeBytes g (2 ^ 64 - 1) w with
        | .corrected d _ _ _ => .next (s2.hardError g (some d))
        | .uncorrectable _ => .next (s2.hardError g none)
        | _ => .next s2
    | [] => .next s1
  | _ => .next s

/-! ## Scrub (R355, R356) -/

/-- Length of the scrub period in always-on cycles. -/
def State.scrubCycles (s : State) : Nat := s.rd F.RAS_SCRUB_PERIOD 0 * 6000000000

/-- Scrub lag of pseudo-channel n in whole percent of the period, rounded toward minus infinity: the fraction of the period elapsed in the pass less
the fraction of the pages scrubbed. -/
def State.scrubLag (s : State) (n : Nat) : Int :=
  let p := s.pc n
  let per := s.scrubCycles
  if per = 0 then 0
  else (((s.time.ticks - p.passStart : Nat) : Int) * pcPages * 100 - (p.scrubPage : Int) * per * 100) / ((per : Int) * pcPages)

/-- The lag of pseudo-channel n exceeds k percent. -/
def State.lagOver (s : State) (n k : Nat) : Bool :=
  let p := s.pc n
  let per := s.scrubCycles
  decide (p.scrubPage * per * 100 + k * per * pcPages < (s.time.ticks - p.passStart) * pcPages * 100)

/-- The pseudo-channels that scrub counts: those of the map that are not fenced. -/
def State.scrubbed (s : State) : List Nat := s.map.pcs.filter fun n => !s.fenced n

/-- s with BEHIND of each pseudo-channel and of the instance brought up to date, and SCRUB_BEHIND recorded when it becomes set (R356). -/
def State.updBehind (s : State) : State :=
  let per := s.scrubCycles
  let s1 := foldS (List.range 64) s fun t n =>
    let b := (t.pc n).behind
    let b1 := per != 0 && t.scrubbed.contains n && (if b then t.lagOver n 5 else t.lagOver n 10)
    if b = b1 then t else t.updPc n fun p => { p with behind := b1 }
  let was := s.flag F.RAS_SCRUBSTAT_BEHIND 0
  let now := (List.range 64).any fun n => (s1.pc n).behind
  let s2 := s1.wrB F.RAS_SCRUBSTAT_BEHIND 0 now
  let worst := (s2.scrubbed.map s2.scrubLag).foldl max (-200)
  if now && !was then s2.emit Ev.SCRUB_BEHIND Un.inst (wrapInt 8 worst) 0 else s2

/-- Passes completed by every pseudo-channel that scrubs. -/
def State.passes (s : State) : Nat :=
  match s.scrubbed.map fun n => (s.pc n).passes with
  | [] => 0
  | p :: ps => ps.foldl Nat.min p

/-- The reads of a page's scrub (R355): each granule of the user capacity whose block is valid, whose fill is not owed and which the remap table does
not hold, with the bit errors of the command as (slot, byte, error). -/
def State.scrubReads (s : State) (n page : Nat) (flips : List (Nat × Nat × Byte)) : List (Nat × Bytes) :=
  (List.range 15).filterMap fun k =>
    match s.map.addrOf ⟨n, page, k⟩ with
    | some a =>
      let g := a / 64
      if decide (a < s.cap) && s.validG g && !s.basin.owes g && (s.remapOf (s.gloc g)).isNone then
        some (g, flipBytes (bytesOf 100 0#8) ((flips.filter fun f => f.1 = k).map fun f => (f.2.1, f.2.2)))
      else none
    | none => none

/-- SCRUB_PAGE (R355): the reads of the next page of an OPEN pseudo-channel go to its ordering point, once those of the page before have all been
accepted; with them the page counts as scrubbed. (DESIGN CHOICE: notes/assumptions/52.md.) -/
def execScrubPage (pc : Pc) (flips : List (Nat × Nat × Byte)) (s : State) : Res :=
  let n := pc.val
  if s.pcSt n = 1 && !s.fenced n && s.rd F.RAS_SCRUB_PERIOD 0 != 0 && s.map.mode != 0 && (s.pc n).scrubQ.isEmpty then
    let page := (s.pc n).scrubPage
    let s1 := s.updPc n fun p => { p with scrubQ := s.scrubReads n page flips }
    if page + 1 < pcPages then .next (s1.updPc n fun p => { p with scrubPage := page + 1 }).updBehind
    else
      let before := s1.passes
      let s2 := s1.updPc n fun p => { p with scrubPage := 0, passes := p.passes + 1, passStart := s1.time.ticks }
      let s3 := if before < s2.passes then s2.emit Ev.SCRUB_PASS Un.inst (s2.passes % 65536) 0 else s2
      .next s3.updBehind
  else .next s.updBehind

/-- CE_WINDOW_END (R360, R363): the 1 s windows of a pseudo-channel end, and the next one takes CETHR as it stands (R364). -/
def execCeWindowEnd (pc : Pc) (s : State) : Res :=
  .next (s.updPc pc.val fun q => { q with ceCount := 0, ceSent := false, ceThr := s.rd F.RAS_CFG_CETHR 0, uePages := [] })

/-! ## Refresh -/

/-- s with the refreshes owed to bank b issued, each counted as what it is. -/
def State.issueOwed (s : State) (n b : Nat) : State := foldS (List.range ((s.pc n).bank b).owed) s fun t _ => t.issueRef n b

/-- s with the neighbour refreshes pending at pseudo-channel n issued, its rows closed (R299). -/
def State.issueRfms (s : State) (n : Nat) : State :=
  foldS (List.range 80) s fun t b => if ((t.pc n).bank b).rfm then t.issueRfm n b else t

/-- s with every owed refresh of a parked pseudo-channel issued (R303), but for deferred ones while a deferral window is open (R296). (DEDUCED:
notes/assumptions/17.md.) -/
def State.parkRefresh (s : State) (n : Nat) : State :=
  foldS (List.range 80) s fun t b =>
    if t.flag F.SCH_STAT_DEFER 0 then (if ((t.pc n).bank b).owed = 8 then t.issueRef n b else t) else t.issueOwed n b

/-- REFRESH_ACCRUAL (R293): a bank of a pseudo-channel that is open, parked or kept closed after self-refresh owes one refresh more, up to 8; a parked
one leaves power-down when any bank reaches 8 and issues all (R303). -/
def execRefreshAccrual (pc : Pc) (bank : Fin 80) (s : State) : Res :=
  let n := pc.val
  if s.rillRuns n || s.pcSt n = 2 then
    let s1 := s.updPc n fun p => p.setBank bank.val { (p.bank bank.val) with owed := Nat.min 8 ((p.bank bank.val).owed + 1) }
    .next (if s.pcSt n = 2 && ((s1.pc n).bank bank.val).owed = 8 then s1.parkRefresh n else s1)
  else .next s

/-- s after a reading of the stack's temperature, or a failed reading (R295). -/
def State.stackTemp (s : State) (reading : Option (BitVec 8)) : State :=
  match reading with
  | some t =>
    let v := t.toInt
    let s1 := { (s.wr F.SCH_STAT_STEMP 0 t.toNat).wrB F.SCH_STAT_TEMPFAIL 0 false with sched := { s.sched with tempFails := 0 } }
    let hot := s1.flag F.SCH_STAT_HOT 0
    if !hot && decide (85 < v) then ((s1.wrB F.SCH_STAT_HOT 0 true).emit Ev.REF_HOT Un.inst t.toNat 0).updDeliv
    else if hot && decide (v ≤ 81) then ((s1.wrB F.SCH_STAT_HOT 0 false).emit Ev.REF_COOL Un.inst (wrapInt 48 v) 0).updDeliv
    else s1
  | none =>
    let k := s.sched.tempFails + 1
    let s1 := { s with sched := { s.sched with tempFails := k } }
    if k = 3 then
      let s2 := if s1.flag F.SCH_STAT_HOT 0 then s1
        else (s1.wrB F.SCH_STAT_HOT 0 true).emit Ev.REF_HOT Un.inst (s1.rd F.SCH_STAT_STEMP 0) 0
      ((s2.wrB F.SCH_STAT_TEMPFAIL 0 true).emit Ev.STACK_TEMP_FAIL Un.inst 0 0).updDeliv
    else s1

/-- s with the deferral window opened or closed (R296). -/
def State.setDefer (s : State) (on : Bool) : State :=
  { (s.wrB F.SCH_STAT_DEFER 0 on) with sched := { s.sched with forcedRec := false } }

/-- DEFER_EXPIRE (R296): an open deferral window closes on its own. -/
def execDeferExpire (s : State) : Res :=
  .next (if s.flag F.SCH_STAT_DEFER 0 then (s.setDefer false).emit Ev.DEFER_EXPIRED Un.inst 0 0 else s)

/-! ## Rill failure -/

/-- RILL_CHECK_MISMATCH (R302). -/
def execRillCheckMismatch (pc : Pc) (s : State) : Res := .next (s.rillFails pc.val)

/-- PC_RETIRE (03_address_map.md R84): a write of the pseudo-channel's bit of GLB_RETIRED, or a retirement by the block. -/
def execPcRetire (pc : Pc) (s : State) : Res := .next ((s.abandonPc pc.val 2).retirePc pc.val)

/-! ## Park, self-refresh, channel reset -/

/-- s with every bank of pseudo-channel n closed, the check buffers written back (PREA, R303, R304). -/
def State.closeAll (s : State) (n : Nat) : State := foldS ((s.pc n).banks.map (·.1)) s fun t b => t.closeBank n b

/-- PARK_ENTER (R303): while power state PARK is in force, an OPEN pseudo-channel with an empty queue parks. -/
def execParkEnter (pc : Pc) (s : State) : Res :=
  let n := pc.val
  if s.pcSt n = 1 && s.rd F.GLB_PSTATE_CUR 0 == 2 && (s.pc n).queue.isEmpty then
    .next ((((s.abandonPc n 2).closeAll n).issueRfms n).wr F.PC_STAT_STATE n 2)
  else .next s

/-- s with the queue of pseudo-channel n served entry by entry, whatever place its granules lie at. -/
def State.flushPc (s : State) (n : Nat) : State :=
  let ks := List.range (s.pc n).queue.length
  let s1 := foldS ks s fun t k =>
    match (t.pc n).queue[k]? with
    | some e => foldS e.todo t fun u g => (u.openRow g).serve n k g
    | none => t
  s1.updPc n PcState.sweep

/-- s with pseudo-channel n in self-refresh (R304): calibration uses ended, merges and queue served, every bank closed, pending
neighbour refreshes and owed refreshes issued. -/
def State.intoSelfRefresh (s : State) (n : Nat) : State :=
  let s1 := s.abandonPc n 2
  let s2 := foldS (s1.pc n).merges s1 fun t m => t.endMerge m [] true
  let s3 := ((s2.flushPc n).closeAll n).issueRfms n
  let s4 := (foldS (List.range 80) s3 fun t b => t.issueOwed n b).updPc n fun p => { p with banks := [] }
  s4.wr F.PC_STAT_STATE n 3

/-- s with a set-point change over once every pseudo-channel that was open before it has reopened or failed (17_calibration_and_training.md R469). -/
def State.switchDone (s : State) : State :=
  if s.flag F.CAL_STAT_SWITCH 0 && (s.cal.wasOpen.all fun n => s.pcSt n == 1 || s.fenced n) then
    let code := if s.fsp = 0 then s.rd F.CAL_FSP_RATE0 0 else s.rd F.CAL_FSP_RATE1 0
    let s1 := (s.wrB F.CAL_STAT_SWITCH 0 false).emit Ev.FSP_SWITCHED Un.inst s.fsp code
    { s1 with cal := { s1.cal with wasOpen := [] } }
  else s

/-- s with pseudo-channel n open after self-refresh, or kept closed for retraining (R305; 17_calibration_and_training.md R467, R470): every owed count
0; the outcomes are those of the short sweep of the driving leg and, where the spare is available, of the second leg. -/
def State.outOfSelfRefresh (s : State) (n : Nat) (first second : Bool) : State :=
  let s1 := s.updPc n fun p => { p with banks := [] }
  let lg := s1.drivingLeg n
  if !s1.delaysValid lg then (s1.addAct { kind := 3, leg := lg, use := 0, started := true, nowin := true }).wr F.CAL_LSTAT_ACT lg 2
  else if first then (s1.wr F.PC_STAT_STATE n 1).switchDone
  else if lg = 2 * n && s1.carryOk n && second && s1.spareUse (n / 8) = 0 then
    let s2 := (s1.addAct { kind := 1, leg := lg, use := 2, started := true, nowin := true }).wr F.CAL_LSTAT_ACT lg 2
    ((s2.setSpare (n / 8) 2 n).wr F.PC_STAT_STATE n 1).switchDone
  else (s1.addAct { kind := 1, leg := lg, use := 0, started := true, nowin := true }).wr F.CAL_LSTAT_ACT lg 2

/-- s with a refused scheduler write (R307). -/
def State.schRefuse (s : State) (code : Nat) : State := (s.wr F.SCH_STAT_ERR 0 code).emit Ev.SCH_CFG_REFUSED Un.inst code 0

/-- s after a write of PC_CTL[n] (R306): CRESET of an OPEN pseudo-channel goes through self-refresh, returns its CHAN registers to their reset values
and shows CRESET until it has left self-refresh; in any other state it is refused. -/
def State.wPcCtl (s : State) (n v : Nat) : State :=
  if F.PC_CTL_CRESET.of v = 0 then s
  else if s.pcSt n = 1 then
    let s1 := s.intoSelfRefresh n
    let sp := s1.rd F.PC_STAT_SPARE n
    let s2 := s1.resetRegs [.PC_CTL, .PC_STAT, .PC_REFSTAT] n
    (s2.wr F.PC_STAT_SPARE n sp).wr F.PC_STAT_STATE n 4
  else s.schRefuse 12

/-- CRESET (R306). -/
def execCreset (pc : Pc) (s : State) : Res := .next (s.hostWrite .PC_CTL pc.val fun t => t.wPcCtl pc.val 1)

/-! ## Register writes -/

/-- The first check of R307 that a value of a timing register breaks, or 0: field zero, tRC, tREFI. -/
def tmgCode (r : Reg) (v : Nat) : Nat :=
  firstCode
    [(r.fields.any fun f => f.of v == 0, 1),
     (decide (r = .SCH_TMG0) && decide (F.SCH_TMG0_TRC.of v < F.SCH_TMG0_TRAS.of v + F.SCH_TMG0_TRP.of v), 2),
     (decide (r = .SCH_TMG2) && decide (F.SCH_TMG2_TREFI.of v < 4 * F.SCH_TMG2_TRFCPB.of v), 3)]

/-- Timing registers of set point f count as running: it is in use, and the units run (R283; 18_bringup_reset_lowpower.md R495: they are stopped while
the tiers are applied in phase 3). -/
def State.tmgRuns (s : State) (f : Nat) : Bool := s.fsp == f && s.rd F.GLB_BOOTSTAT_PHASE 0 != 3

/-- s after a write of v to a timing register of set point f (R283, R16: judged on the value it would store). -/
def State.wTmg (s : State) (r : Reg) (f v : Nat) : State :=
  let run := s.tmgRuns f
  match tmgCode r (s.proposed r f v run) with
  | 0 => (s.storeReg r f v run).updDeliv
  | c => s.schRefuse c

/-- Timing register i. -/
def tmgReg (i : Fin 3) : Reg :=
  match i with
  | 0 => .SCH_TMG0
  | 1 => .SCH_TMG1
  | 2 => .SCH_TMG2

/-- SCH_TMG_WRITE (R283). -/
def execSchTmgWrite (i : Fin 3) (f : Fin 2) (v : Word) (s : State) : Res :=
  .next (s.hostWrite (tmgReg i) f.val fun t => t.wTmg (tmgReg i) f.val v.toNat)

/-- s after a write of SCH_SCHED (R307). -/
def State.wSched (s : State) (v : Nat) : State :=
  let p := s.proposed .SCH_SCHED 0 v false
  let age := F.SCH_SCHED_AGE.of p
  let hi := F.SCH_SCHED_WRHI.of p
  let lo := F.SCH_SCHED_WRLO.of p
  let q := F.SCH_SCHED_QHI.of p
  match firstCode [(age == 0, 4), (decide (age < 64), 5), (hi == 0 || decide (60 < hi) || decide (hi ≤ lo), 6), (q == 0, 7), (decide (60 < q), 8)] with
  | 0 => s.storeReg .SCH_SCHED 0 v false
  | c => s.schRefuse c

/-- s after a write of SCH_REF (R307). -/
def State.wRef (s : State) (v : Nat) : State :=
  let p := s.proposed .SCH_REF 0 v false
  let d := F.SCH_REF_RFMD.of p
  let m := F.SCH_REF_DEFERMAX.of p
  match firstCode [(d == 0, 9), (decide (d < 64 ∨ 8192 < d), 10), (m == 0, 11), (m == 63, 13)] with
  | 0 => s.storeReg .SCH_REF 0 v false
  | c => s.schRefuse c

/-- s after a write of RAS_CFG (12_data_integrity.md R364). -/
def State.wRasCfg (s : State) (v : Nat) : State :=
  if F.RAS_CFG_CETHR.of v = 0 then (s.wr F.RAS_STAT_ERR 0 1).emit Ev.RAS_CFG_REFUSED Un.inst 1 0 else s.storeReg .RAS_CFG 0 v false

/-- s after a write of RAS_SCRUB (R364, R355): PERIOD 0 stops scrub at its page, and the next non-zero PERIOD starts a new pass at page 0. -/
def State.wScrub (s : State) (v : Nat) : State :=
  let p := F.RAS_SCRUB_PERIOD.of v
  if decide (0 < p ∧ p < 60) || decide (10080 < p) then (s.wr F.RAS_STAT_ERR 0 2).emit Ev.RAS_CFG_REFUSED Un.inst 2 0
  else
    let s1 := s.storeReg .RAS_SCRUB 0 v false
    if s.rd F.RAS_SCRUB_PERIOD 0 = 0 && p != 0 then
      foldS (List.range 64) s1 fun t n => t.updPc n fun q => { q with scrubPage := 0, passStart := t.time.ticks }
    else if p = 0 then foldS (List.range 64) s1 fun t n => t.updPc n fun q => { q with scrubQ := [] }
    else s1

end Sys2Proof.Machine
end

