-- ==== Sys2Proof/Machine/MapCmd.lean ====
section
/-! DEFINITION. Sys2Proof/Machine/MapCmd.lean: privileged regions, byte-check windows and remap (03_address_map.md R85 to R94): the zero fill, the
valid bitmap's home, and the writes of the map's registers. -/
namespace Sys2Proof.Machine

/-! ## The privileged fill and the bitmap home (R89, R93, R94) -/

/-- The instance-local address of the granule that a memory key belongs to, data or check slot. -/
def MapRec.addrOfKey (m : MapRec) (k : Nat) : Option Nat :=
  let b := k % 1024
  m.addrOf { pc := k / 1024 / pcPages, page := (k / 1024) % pcPages, slot := if b < 960 then b / 64 else (b - 960) / 4 }

/-- s with every granule of the bytes [lo, hi) holding zeros with valid check data, whose bytes are all 0; remapped granules too (12_data_integrity.md
R352). -/
def State.zeroBytes (s : State) (lo hi : Nat) : State :=
  let inside := fun (a : Option Nat) => match a with
    | some x => decide (lo ≤ x ∧ x < hi)
    | none => false
  let s1 := { s with mem := s.mem.filter fun e => !inside (s.map.addrOfKey e.1) }
  foldS (List.range 32) s1 fun t i =>
    let x : Loc := { pc := t.rd F.RAS_REMAP_PC i, page := t.rd F.RAS_REMAP_PAGE i, slot := t.rd F.RAS_REMAP_SLOT i }
    if t.flag F.RAS_REMAP_VALID i && inside (t.map.addrOf x) then t.setSlot i (bytesOf 64 0#8) else t

/-- Granule i of the bitmap: the valid bits of its 512 blocks, bit K in bit K mod 8 of byte K / 8 (R93). -/
def bitmapGran (v : Ranges) (i : Nat) : Bytes :=
  toLE 64 (v.foldl (fun a p =>
    let lo := Nat.max p.1 (512 * i) - 512 * i
    let hi := Nat.min p.2 (512 * i + 512) - 512 * i
    if lo < hi then a + (2 ^ hi - 2 ^ lo) else a) 0)

/-- The numbers of the bitmap's granules that are not all zero. -/
def bitmapGrans (v : Ranges) : List Nat :=
  v.flatMap fun p => (List.range ((p.2 - 1) / 512 + 1 - p.1 / 512)).map (p.1 / 512 + ·)

/-- s with the valid bitmap written to its home (R93, R94). -/
def State.writeHome (s : State) : State :=
  let base := s.map.homeBase
  foldS (bitmapGrans s.basin.valid) (s.zeroBytes base (base + homeBytes)) fun t i => t.writeGran (base / 64 + i) (bitmapGran s.basin.valid i)

/-- s with every ordering point's accepted work done: merges ended, queues served, rows closed. -/
def State.finishWork (s : State) : State :=
  foldS (List.range 64) s fun t n =>
    let t1 := foldS (t.pc n).merges t fun u m => u.endMerge m [] true
    (t1.flushPc n).closeAll n

/-- s with the privileged regions that the registers hold filled with zeros, their blocks valid and every other block as it is, and the bitmap
home written (R89, R93). -/
def State.privFill (s : State) : State :=
  let rs := s.pregSet
  let s1 := ({ s with map := { s.map with regions := rs } } : State).evalRecbase
  let s2 := foldS rs s1 fun t r => t.zeroBytes (r.2.1 * unit2M) ((r.2.1 + r.2.2) * unit2M)
  let v := rs.foldl (fun v r => Ranges.add v (r.2.1 * 512) ((r.2.1 + r.2.2) * 512)) s2.basin.valid
  { s2 with basin := { s2.basin with valid := v } }.writeHome

/-! ## Building a map (R85, R86; 11_intake_and_basin.md R323; 12_data_integrity.md R350) -/

/-- s with what the basin and the rills hold of memory contents that are forfeit dropped: lines, the dead-range and fill tables, every valid bit. -/
def State.forget (s : State) : State :=
  let s1 := s.finishWork.dropLines (fun _ => true) 1
  let s2 := { s1 with basin := { s1.basin with valid := [], buffer := [], dead := [], deadWas := false, fills := [], winTab := [] } }
  foldS (List.range 64) s2 fun t n => t.updPc n fun p => { p with corrQ := [], verifyQ := [], scrubQ := [], banks := [] }

/-- s with a privileged fill begun where a map is in force. -/
def State.beginFill (s : State) : State := if s.map.mode = 0 then s else s.wrB F.GLB_MAPSTAT_BUSY 0 true

/-- s with a new map built where memory contents are forfeit, the windows of the registers in force, and the fill begun. -/
def State.newMap (s : State) : State := s.forget.buildMap.updDeliv.beginFill

/-- s with the map of the record in force and its contents forfeit (18_bringup_reset_lowpower.md R483), and the fill begun. -/
def State.oldMap (s : State) : State :=
  let s1 := s.forget
  if s1.map.mode = 0 then s1.showMap
  else ({ s1 with map := { s1.map with windows := s1.bcwSet } } : State).showMap.updDeliv.beginFill

/-- Every spout but the font's is IDLE, FAULTED or HALTED. -/
def State.spoutsStopped (s : State) : Bool :=
  (List.range 160).all fun n => s.spSt n == 0 || s.spSt n == 5 || s.spSt n == 6

/-- s with every ACTIVE transaction aborted with RESET and a detail. -/
def State.abortAll (s : State) (detail : Nat) : State :=
  foldS (List.range 64) s fun t k => if (t.slot k).st = TxSt.active then t.txAbort k 0x11 detail none else t

/-- The stack is the one of 00_scope.md R1. -/
def State.stackOk (s : State) : Bool := match s.boot.env with
  | some e => e.stackOk
  | none => true

/-- s after a write of GLB_MAPCTL (R87): a remap, or MAP_BUSY. A stack that is not the one of 00_scope.md R1 gives no map. -/
def State.wMapCtl (s : State) (v : Nat) : State :=
  if F.GLB_MAPCTL_REMAP.of v = 0 then s
  else if s.anyOpen || s.flag F.GLB_MAPSTAT_BUSY 0 || !s.spoutsStopped then s.mapRefuse 10 0
  else if !s.stackOk then s
  else (s.abortAll 4).newMap

/-- REMAP (R87). -/
def execRemap (s : State) : Res := .next (s.hostWrite .GLB_MAPCTL 0 fun t => t.wMapCtl 1)

/-- s after a write of GLB_PREG[i] (R88, R90): judged on the value it would store. -/
def State.wPreg (s : State) (i v : Nat) : State :=
  let run := s.anyOpen
  let p := s.proposed .GLB_PREG i v run
  match s.pregError i (F.GLB_PREG_EN.of p == 1) (F.GLB_PREG_BASE.of p) (F.GLB_PREG_SIZE.of p) with
  | 0 => s.storeReg .GLB_PREG i v run
  | c => s.mapRefuse c i

/-- PREG_WRITE (R90). -/
def execPregWrite (i : Fin 4) (v : Word) (s : State) : Res := .next (s.hostWrite .GLB_PREG i.val fun t => t.wPreg i.val v.toNat)

/-- s after a write of GLB_BCW[i] (R90, R92): a window takes effect at the next build or restore of the map. -/
def State.wBcw (s : State) (i v : Nat) : State :=
  let run := s.anyOpen
  let p := s.proposed .GLB_BCW i v run
  match s.bcwError i (F.GLB_BCW_EN.of p == 1) (F.GLB_BCW_BASE.of p) (F.GLB_BCW_SIZE.of p) with
  | 0 => s.storeReg .GLB_BCW i v run
  | c => s.mapRefuse c i

/-- BCW_WRITE (R92). -/
def execBcwWrite (i : Fin 4) (v : Word) (s : State) : Res := .next (s.hostWrite .GLB_BCW i.val fun t => t.wBcw i.val v.toNat)

end Sys2Proof.Machine
end

