-- ==== Sys2Proof/Machine/Boot.lean ====
section
/-! DEFINITION. Sys2Proof/Machine/Boot.lean: the bring-up phases from STACK to READY (18_bringup_reset_lowpower.md R473 to R480): the stack's
identification, training, the test of a pseudo-channel, the map and its fill, and the release of the fabric ports. -/
namespace Sys2Proof.Machine

/-! ## Phases -/

/-- CAUSE of the latest sequence: 0 POR, 1 cold reset, 2 warm reset, 3 thermal restart, 4 exit from DEEP. -/
def State.cause (s : State) : Nat := s.rd F.GLB_BOOTSTAT_CAUSE 0

/-- s in phase p, with BOOT_PHASE (R500). -/
def State.setPhase (s : State) (p : Nat) : State := (s.wr F.GLB_BOOTSTAT_PHASE 0 p).emit Ev.BOOT_PHASE Un.inst p s.cause

/-- Pseudo-channels that are OPEN or parked. -/
def State.openPcs (s : State) : Nat := ((List.range 64).filter fun n => s.pcSt n == 1 || s.pcSt n == 2).length

/-- s with fabric port p moved to OPEN where it has negotiated, a map is in force, no fill runs and phase 8 has begun (R477; 02_ports.md R48;
03_address_map.md R94). -/
def State.releasePort (s : State) (p : Nat) : State :=
  if s.phase = 8 && s.fpSt p == 1 && Store.get false s.intake.negDone p && s.map.mode != 0 && !s.flag F.GLB_MAPSTAT_BUSY 0 then
    s.wr F.ITK_FPSTAT_STATE p 2 else s

/-- s in phase 8 (R477). -/
def State.goReady (s : State) : State :=
  let s1 := (s.setPhase 8).wr F.GLB_BOOTSTAT_OPENPCS 0 s.openPcs
  let s2 := foldS (List.range 8) s1 fun t p => t.releasePort p
  (({ s2 with boot := { s2.boot with leaving := false } } : State).emit Ev.BOOT_READY Un.inst s2.cap s2.openPcs).fontReady.takeWaits.lateRequests

/-! ## Recovery of transactions (09_transactions.md R274, R275; R481 step 11) -/

/-- s with a manager that takes its role asking every instance for its states (R275). -/
def State.startRecovery (s : State) : State :=
  let s1 : State := { s with txu := { s.txu with recovering := true, collected := [], pkts := [] } }
  foldS (List.range 8) s1 fun u x => u.send 0x1C true true 0 [x, 0, 0]

/-- s with an instance's recovery after a reset begun (R274): XT_EPOCH, then XT_QUERY for each prepare record, whose slot is PREPARED again. -/
def State.recoverRecords (s : State) : State :=
  let s1 := s.send 0x1B false true s.mgr [s.me]
  let xs := s1.txu.records.map (·.1)
  if xs.isEmpty then s1.emit Ev.TX_RECOVERED Un.inst 0 0
  else
    let s2 : State := { s1 with txu := { s1.txu with awaits := xs, outcome := (0, 0) } }
    foldS s1.txu.records s2 fun u e =>
      (u.updSlot (56 + e.1) fun _ => { TxSlot.init with st := .prepared, log := e.2.log }).send 0x1C false true s.mgr [e.1, 0, if e.2.committed then 3 else 2]

/-- Every pseudo-channel of the map is open, parked or fenced. -/
def State.pcsBack (s : State) : Bool := s.map.mode == 0 || s.map.pcs.all fun n => s.pcSt n == 1 || s.pcSt n == 2 || s.fenced n

/-- s with the recovery that is due begun. (DEDUCED: notes/assumptions/35.md.) -/
def State.beginRecovery (s : State) : State :=
  if s.boot.recover then
    let s1 := ({ s with boot := { s.boot with recover := false } } : State).recoverRecords
    if s1.role = 2 then s1.startRecovery else s1
  else s

/-- s in phase 8 where phase 7 has done all that R477 asks: the pseudo-channels of the map open or fenced, the fill over, recovery over; and with the
exit from SR over once they are back (R488). -/
def State.tryReady (s : State) : State :=
  if s.phase = 7 && !s.flag F.GLB_MAPSTAT_BUSY 0 && s.pcsBack then
    let s1 := s.beginRecovery
    if s1.txu.recovering || !s1.txu.awaits.isEmpty then s1 else s1.goReady
  else if s.phase = 8 && s.boot.leaving && decide (s.rd F.GLB_PSTATE_CUR 0 < 3) && s.pcsBack then
    let s1 := s.beginRecovery
    ({ s1 with boot := { s1.boot with leaving := false } } : State).takeWaits.lateRequests
  else s

/-- s in phase 7 of a bring-up: a map is built (R85, R86), or after a thermal restart that lost the contents the recorded one is restored (R483); one repeated after a trip in its own cause builds its map (03_address_map.md R85). -/
def State.enterMap (s : State) : State :=
  let s0 := s.setPhase 7
  let s1 := if s0.boot.lostData && decide (1 < s0.cause) then s0.oldMap else s0.newMap
  if s1.map.mode = 0 then s1.goReady else s1

/-- The pseudo-channels that the bring-up test covers: those not retired. -/
def State.testSet (s : State) : List Nat := (List.range 64).filter fun n => !s.fenced n

/-- The test mode (R478): FULL after POR, otherwise COLDTEST. (DEDUCED: notes/assumptions/45.md.) -/
def State.testMode (s : State) : Nat := if s.cause = 0 then 0 else s.rd F.GLB_BOOTCFG_COLDTEST 0

/-- s with pseudo-channel n finished with the test, phase 7 when it is the last (R479). (DEDUCED: notes/assumptions/45.md.) -/
def State.finishTest (s : State) (n : Nat) : State :=
  let done := if s.boot.tested.contains n then s.boot.tested else s.boot.tested ++ [n]
  let s1 := { s with boot := { s.boot with tested := done } }
  let s2 := (s1.wr F.GLB_BOOTSTAT_TESTED 0 done.length).wr F.GLB_BOOTSTAT_TESTSEC 0 (Nat.min 0xFFFF ((s.time.ticks - s.boot.testStart) / 100000000))
  if s2.phase = 6 && s2.testSet.all fun k => done.contains k then s2.enterMap else s2

/-- s in phase 6; in mode NONE nothing is written or read, and every pseudo-channel opens. -/
def State.enterTest (s : State) : State :=
  let s1 := s.setPhase 6
  let s2 := { s1 with boot := { s1.boot with tested := [], testStart := s1.time.ticks } }
  if s2.testMode = 2 || s2.testSet.isEmpty then
    (foldS s2.testSet s2 fun t n => t.wr F.PC_STAT_STATE n 1).enterMap
  else s2

/-- The legs of the pseudo-channels that are not retired. -/
def State.liveLegs (s : State) : List Nat := (List.range 128).filter fun l => !s.fenced (l / 2)

/-- The work of a leg in phase 5: after POR calibration and then a full sweep; otherwise verification (17_calibration_and_training.md R465). -/
def State.startTrain (s : State) : State :=
  let s1 := s.setPhase 5
  let acts := s1.liveLegs.map fun l => ({ kind := 2, leg := l, use := 0, started := true, nowin := true } : Act)
  let s2 := { s1 with cal := { s1.cal with acts := acts } }
  foldS s1.liveLegs s2 fun t l => t.wr F.CAL_LSTAT_ACT l 1

/-- s training its stack (R2): one that is not the stack of 00_scope.md R1 leaves every pseudo-channel closed and leads to phase 8. -/
def State.trainStack (s : State) : State :=
  match s.boot.env with
  | some e =>
    if e.stackOk then s.startTrain
    else
      let s2 := { s with map := { s.map with mode := 0, openList := [], windows := [] } }
      (s2.showMap.emit Ev.STACK_MISMATCH Un.inst e.stackId.toNat 0).goReady
  | none => s.startTrain

/-- s in phase 4 and on (R473). -/
def State.enterStack (s : State) : State := (s.setPhase 4).trainStack

/-- s where phase 5 ends with its last activity: a pseudo-channel whose driving leg is BAD is handed over or retired (17_calibration_and_training.md
R460), and the test begins. (DEDUCED: notes/assumptions/45.md.) -/
def State.trainStep (s : State) : State :=
  if s.phase = 5 && s.cal.acts.isEmpty then
    (foldS (List.range 64) s fun t n =>
      if !t.fenced n && t.flag F.CAL_LSTAT_BAD (t.drivingLeg n) then t.legFails n else t).enterTest
  else s

/-! ## The test's findings (R479; 12_data_integrity.md R357 to R359) -/

/-- The entry of the pending repair list that holds a page. -/
def State.pendOf (s : State) (pc page : Nat) : Option Nat :=
  (List.range 16).find? fun i => s.flag F.RAS_PEND_VALID i && s.rd F.RAS_PEND_PC i == pc && s.rd F.RAS_PEND_PAGE i == page

/-- s with a page's repair ended as given: its remap entries freed and the page off the list; a failed attempt; or no spare row. After
two failures it is not attempted again (R359). -/
def State.repairPage (s : State) (pc page : Nat) (r : Repair) : State :=
  match s.pendOf pc page with
  | none => s
  | some i =>
    if 2 ≤ s.rd F.RAS_PEND_TRIES i then s
    else
    match r with
    | .done =>
      let s1 := foldS (List.range 32) s fun t k =>
        if t.flag F.RAS_REMAP_VALID k && t.rd F.RAS_REMAP_PC k == pc && t.rd F.RAS_REMAP_PAGE k == page then
          let x : Loc := { pc := pc, page := page, slot := t.rd F.RAS_REMAP_SLOT k }
          let d := t.slotData k
          let u := { (t.setReg .RAS_REMAP k 0) with ras := { t.ras with slots := Store.erase t.ras.slots k } }
          match d, u.map.addrOf x with
          | some b, some a => u.store (a / 64) b
          | none, some a => u.storeMarker (a / 64)
          | _, none => u
        else t
      (s1.setReg .RAS_PEND i 0).emit Ev.REPAIR_DONE (Un.pc pc) page 0
    | .failed =>
      let k := s.rd F.RAS_PEND_TRIES i
      (s.wr F.RAS_PEND_TRIES i (k + 1)).emit Ev.REPAIR_FAILED (Un.pc pc) page (k + 1)
    | .noRow => s.emit Ev.REPAIR_EXHAUSTED (Un.pc pc) page 0

/-- s with a granule that failed the second march in a remap slot of zeros with its records; none where no entry is free (R357, R479). -/
def State.remapZero (s : State) (x : Loc) : Option State :=
  match s.remapOf x, s.freeRemap with
  | some i, _ => some (s.setSlot i (bytesOf 64 0#8))
  | none, none => none
  | none, some i =>
    let s1 := (((s.wr F.RAS_REMAP_VALID i 1).wr F.RAS_REMAP_PC i x.pc).wr F.RAS_REMAP_PAGE i x.page).wr F.RAS_REMAP_SLOT i x.slot
    let s2 := s1.setSlot i (bytesOf 64 0#8)
    some ((s2.errRecord 3 5 x false 0 none 127 127 0).emit Ev.HARD_ERROR (Un.pc x.pc) i 0)

/-- s with the pages of a test's findings put on the list and repaired, and whether the pseudo-channel must be retired: a page found no place, or
a repair failed twice (R479 steps 1 and 3). -/
def State.repairAll (s : State) (pc : Nat) : List (Nat × Repair) → State × Bool × Nat
  | [] => (s, false, 0)
  | (page, r) :: l =>
    let s1 := s.pendPage pc page
    let placed := (s1.pendOf pc page).isSome
    let s2 := if r = .failed then (s1.repairPage pc page r).repairPage pc page r else s1.repairPage pc page r
    let (s3, bad, n) := State.repairAll s2 pc l
    (s3, bad || !placed || r == .failed, n + (if placed && r == .done then 1 else 0))

/-- s with the granules still failing remapped: whether one found no free entry, and how many took one. -/
def State.remapAll (s : State) (pc : Nat) : List (Nat × Nat) → State × Bool × Nat
  | [] => (s, false, 0)
  | (page, slot) :: l =>
    match s.remapZero { pc := pc, page := page, slot := slot } with
    | none => let (s2, _, n) := State.remapAll s pc l; (s2, true, n)
    | some s1 => let (s2, b, n) := State.remapAll s1 pc l; (s2, b, n + 1)

/-- s with the stack memory of a pseudo-channel as if never written: the test overwrote it (DESIGN CHOICE: notes/assumptions/4.md). -/
def State.wipePc (s : State) (pc : Nat) : State :=
  { s with mem := s.mem.filter fun e => decide (e.1 / 1024 / pcPages ≠ pc) }

/-- s after assay's test of pseudo-channel n, its accesses charged (a march of ten operations a granule, three a repaired one), and the actions of R479: whether it passed, the rows repaired and the remap entries taken. A
retired pseudo-channel is fenced. -/
def State.assayed (s : State) (n : Nat) (f : Findings) : State × Bool × Nat × Nat :=
  let s0 := ((s.updPc n fun p => { p with banks := [], corrQ := [], verifyQ := [], scrubQ := [] }).wipePc n).chargeAssay (150 * pcPages + 45 * f.bad.length)
  if 64 < f.bad.length then
    (((s0.retirePc n).emit Ev.TEST_RESULT (Un.pc n) 1 0), false, 0, 0)
  else
    let (s1, bad1, rows) := s0.repairAll n f.bad
    let (s2, bad2, ents) := s1.remapAll n f.still
    let arg := rows * 65536 + ents
    if bad1 || bad2 || f.corner then ((s2.retirePc n).emit Ev.TEST_RESULT (Un.pc n) 1 arg, false, rows, ents)
    else (s2.emit Ev.TEST_RESULT (Un.pc n) 0 arg, true, rows, ents)

/-- BRING_UP_TEST_DONE (R479): in phase 6, of a pseudo-channel that has not finished. -/
def execBringUpTestDone (pc : Pc) (f : Findings) (s : State) : Res :=
  let n := pc.val
  if s.phase = 6 && !s.fenced n && !s.boot.tested.contains n then
    let (s1, ok, _, _) := s.assayed n f
    let s2 := if ok then (s1.wr F.PC_STAT_STATE n 1).wr F.GLB_BOOTSTAT_OPENPCS 0 (s1.rd F.GLB_BOOTSTAT_OPENPCS 0 + 1) else s1
    .next (s2.finishTest n)
  else .next s

/-- PRIVILEGED_FILL_DONE (03_address_map.md R89, R94; R473): the fill of a bring-up or a remap completes, and the ports may open. -/
def execPrivilegedFillDone (s : State) : Res :=
  if s.flag F.GLB_MAPSTAT_BUSY 0 then
    let s1 := s.privFill.wrB F.GLB_MAPSTAT_BUSY 0 false
    .next (foldS (List.range 8) s1 fun t p => t.releasePort p).tryReady
  else .next s

/-! ## Fabric ports (02_ports.md R48 to R50) -/

/-- s with a compute-part reset's end, or the intake's waking, taking a port to NEGOTIATE; its failures in a row go on until it has negotiated (R50). -/
def State.toNegotiate (s : State) (p : Nat) : State :=
  { (s.wr F.ITK_FPSTAT_STATE p 1) with
    intake := { s.intake with negDone := Store.put false s.intake.negDone p false } }

/-- NEGOTIATION_COMPLETE (R48). -/
def execNegotiationComplete (p : FPort) (s : State) : Res :=
  let n := p.val
  if s.fpSt n = 1 then
    let k := s.intake
    .next ({ s with intake := { k with negDone := Store.put false k.negDone n true, negFail := Store.put 0 k.negFail n 0 } }.releasePort n)
  else .next s

/-- NEGOTIATION_RETRY (R50): FPORT_NEG_FAIL at the third failure in a row. -/
def execNegotiationRetry (p : FPort) (s : State) : Res :=
  let n := p.val
  if s.fpSt n = 1 && !Store.get false s.intake.negDone n then
    let k := Nat.min 4 (Store.get 0 s.intake.negFail n + 1)
    let s1 := { s with intake := { s.intake with negFail := Store.put 0 s.intake.negFail n k } }
    .next (if k = 3 then s1.emit Ev.FPORT_NEG_FAIL (Un.fport n) 0 0 else s1)
  else .next s

/-- Origin of a request is port p. -/
def Origin.ofPort (o : Origin) (p : Nat) : Bool :=
  match o with
  | .fabric q _ => q == p
  | _ => false

/-- Accepted requests of port p are still on their way: local ones, and writes to remote memory (R48, R49). -/
def State.portBusy (s : State) (p : Nat) : Bool :=
  let mine := fun (r : Req) => r.origin.ofPort p
  (s.heldAt p).any mine || (s.ring.remotes.any fun r => r.origin.ofPort p && !r.reads) || (List.range 64).any fun n =>
    let q := s.pc n
    (q.waiting.any fun w => mine w.2) || (q.queue.any fun e => mine e.req && e.req.kind == .rd) || (q.flights.any fun f => mine f.req)

/-- s with port p DOWN; remote reads of it are discarded when they return, and its tags are those of the beats that wait (R49 step 3). -/
def State.portDown (s : State) (p : Nat) : State :=
  let s1 := s.wr F.ITK_FPSTAT_STATE p 0
  let rs := s1.ring.remotes.map fun r => if r.origin.ofPort p then { r with origin := .gone } else r
  let tags := (s1.tagsOf p).filter fun e => (Store.get [] s1.intake.resp p).any fun b => b.tag == e.1
  { s1 with ring := { s1.ring with remotes := rs }, intake := { s1.intake with tags := Store.put [] s1.intake.tags p tags } }

/-- QUIESCE_DRAIN_DONE (R49 steps 3 and 4): no accepted request of the port is left, and it enters DOWN, and NEGOTIATE where RESET_COMPUTE is
deasserted by then. -/
def execQuiesceDrainDone (p : FPort) (s : State) : Res :=
  let n := p.val
  if s.fpSt n = 3 && !s.portBusy n then
    let s1 := s.portDown n
    .next (if s1.boot.compute then s1 else (s1.setReg .ITK_FPSTAT n 0).toNegotiate n)
  else .next s

/-- s with the read beats that wait on port p discarded (R48), but for one that is already presented, which holds until it transfers (R41). -/
def State.dropReadBeats (s : State) (p : Nat) : State :=
  let l := Store.get [] s.intake.resp p
  let gone := fun (b : RespBeat) => b.isRead && b.counted
  let s1 : State := { s with intake := { s.intake with resp := Store.put [] s.intake.resp p (l.take 1 ++ (l.drop 1).filter fun b => !gone b) } }
  foldS ((l.drop 1).filter gone) s1 fun t b => t.beatGone p b

/-- s with every OPEN port in QUIESCE (R49 step 1). -/
def State.quiescePorts (s : State) : State :=
  foldS (List.range 8) s fun t p => if t.fpSt p = 2 then (t.wr F.ITK_FPSTAT_STATE p 3).dropReadBeats p else t

end Sys2Proof.Machine
end

