-- ==== Sys2Proof/Machine/Cal.lean ====
section
/-! DEFINITION. Sys2Proof/Machine/Cal.lean: calibration, training and set points (17_calibration_and_training.md): measurements, sweeps, application
points, the order in which a spare serves its octet, drift checks, recalibration, and the change of set point. -/
namespace Sys2Proof.Machine

/-! ## Activities that end or follow -/

/-- s with an activity over: the leg idle, its partial results gone, and the spare handed back (R301). (DEDUCED: notes/assumptions/45.md.) -/
def State.endAct (s : State) (a : Act) : State :=
  let c := s.cal
  let s1 := { s with cal :=
                { c with acts := c.acts.filter (· ≠ a), meas := Store.erase c.meas a.leg, pending := Store.erase c.pending a.leg,
                         pendDly := Store.erase c.pendDly a.leg, points := Store.erase c.points a.leg, kept := Store.erase c.kept a.leg,
                         retried := c.retried.filter (· ≠ a.leg) } }
  let s2 := s1.wr F.CAL_LSTAT_ACT a.leg 0
  if a.use ≠ 0 && s2.served (a.leg / 2) 1 && decide (s2.spareUse (a.leg / 16) ≤ 2) then s2.setSpare (a.leg / 16) 0 0 else s2

/-- s with an activity replaced by another one of the same leg that goes on at once. (DEDUCED: notes/assumptions/45.md.) -/
def State.follow (s : State) (a b : Act) : State :=
  let c := s.cal
  let s1 := { s with cal :=
                { c with acts := c.acts.map fun x => if x = a then { b with started := true } else x,
                         points := Store.erase c.points a.leg, kept := Store.erase c.kept a.leg, meas := Store.erase c.meas a.leg,
                         pendDly := Store.erase c.pendDly a.leg, pending := Store.erase c.pending a.leg,
                         retried := c.retried.filter (· ≠ a.leg) } }
  s1.wr F.CAL_LSTAT_ACT a.leg b.shows

/-- The use an activity of a leg takes (R461): none on a leg that carries traffic without a spare, or that carries none and is the primary; MEASURE on a
second leg; CARRY for the primary that drives. -/
def State.useFor (s : State) (leg : Nat) : Nat :=
  let n := leg / 2
  if s.spareUse (n / 8) = 3 && s.sparePc (n / 8) = n then 0
  else if leg % 2 = 1 then 1
  else 2

/-- The activity to train a leg in service: a full sweep where it is BAD or its delays are not valid, a service sweep otherwise. -/
def State.retrainAct (s : State) (leg : Nat) : Act :=
  { kind := if s.flag F.CAL_LSTAT_BAD leg || !s.delaysValid leg then 3 else 1, leg := leg, use := s.useFor leg, started := false, nowin := true }

/-! ## Spare grants (R300, R301, R462) -/

/-- The rank of an activity among the requests for a spare: 0 CARRY for retraining, 1 CARRY for recalibration or a drift correction, 2 MEASURE. -/
def Act.rank (a : Act) : Nat := if a.use = 2 then (if a.kind = 2 || a.kind = 0 then 1 else 0) else 2

/-- An activity that waits can be granted the spare of its octet. -/
def State.grantable (s : State) (a : Act) : Bool :=
  let n := a.leg / 2
  let m := n / 8
  s.mayStart a && a.use != 0 && (if a.use = 2 then s.carryOk n else s.measureOk n)
    && decide (s.spareUse m < a.use || (s.served n 1 && s.spareUse m == 1 && a.use == 2))

/-- The activity that spare m serves next: the lowest rank, then the lowest pseudo-channel, then the order of request. -/
def State.nextGrant (s : State) (m : Nat) : Option Act :=
  let l := s.cal.acts.filter fun a => a.leg / 16 = m && s.grantable a
  let best := fun (k : Nat) => (List.range 8).findSome? fun i => l.find? fun a => a.rank = k && a.leg / 2 = 8 * m + i
  ([0, 1, 2].findSome? fun k => if k < 2 then best k else l.find? fun a => a.rank = 2)

/-- SPARE_HANDOVER (R300, R301): the spare's lower use ends and the granted one begins; the bank state, held by the pseudo-channel, is unchanged. -/
def execSpareHandover (m : Spare) (s : State) : Res :=
  match s.nextGrant m.val with
  | none => .next s
  | some a =>
    let n := a.leg / 2
    let s1 := if s.spareUse m.val ≠ 0 then s.endUse m.val else s
    .next ((s1.setSpare m.val a.use n).startAct a)

/-! ## Measurements (R454 to R456) -/

/-- s with the outcome of a reference's comparison: CAL_REF_FAULT at each change to 0, and at the first measurement that finds it out of its limits. -/
def State.refLevel (s : State) (f : Field) (k : Nat) (good : Bool) : State :=
  let was := s.flag f 0
  let seen := s.cal.refSeen.testBit k
  let s1 := (s.wrB f 0 good)
  let s2 := { s1 with cal := { s1.cal with refSeen := s1.cal.refSeen ||| 2 ^ k } }
  if !good && (was || !seen) then s2.emit Ev.CAL_REF_FAULT Un.inst k 0 else s2

/-- The code that stands for a trim not measured. -/
def noCode : Nat := 1024

/-- Two measurements agree (R456): every trim measured in both differs by 2 or less. -/
def agreeing (a b : List Nat) : Bool :=
  (a.zip b).all fun p => p.1 == noCode || p.2 == noCode || (decide (p.1 ≤ p.2 + 2) && decide (p.2 ≤ p.1 + 2))

/-- The new codes of an agreeing pair. -/
def meanCodes (a b : List Nat) : List Nat :=
  (a.zip b).map fun p => if p.1 = noCode ∨ p.2 = noCode then noCode else (p.1 + p.2 + 1) / 2

/-- s after a leg's measurements ended without codes to apply: the activity goes on with its sweep in bring-up, and otherwise ends. -/
def State.measuredNothing (s : State) (a : Act) : State :=
  if s.phase = 5 then s.follow a { a with kind := 3 } else (s.endAct a).kick

/-- CAL_MEASUREMENT_DONE (R454 to R456): one measurement of a leg's seven trims ends; refv and refz say whether REFV and REFZ lie in their limits. (DESIGN CHOICE: notes/assumptions/12.md.) (DEDUCED: notes/assumptions/45.md.) -/
def execCalMeasurementDone (leg : Leg) (refv refz : Bool) (codes : List Nat) (s : State) : Res :=
  let l := leg.val
  match s.actOf l with
  | some a =>
    if a.kind = 2 && (Store.find s.cal.pending l).isNone then
      let s1 := (s.refLevel F.GLB_PINSTAT_REFV_OK 0 refv).refLevel F.GLB_PINSTAT_REFZ_OK 1 refz
      let m := (List.range 7).map fun i => if (if i < 3 then refz else refv) then Nat.min 1023 (codes.getD i 512) else noCode
      let all := Store.get [] s1.cal.meas l ++ [m]
      let s2 := { s1 with cal := { s1.cal with meas := Store.put [] s1.cal.meas l all } }
      if m.all (· == noCode) then
        .next (((s2.wrB F.CAL_ZQ_VERIFIED l false).wrB F.CAL_VREF_VERIFIED l false).measuredNothing a).trainStep
      else if 2 ≤ all.length && agreeing (all.getD (all.length - 2) []) m then
        let s3 := { s2 with cal := { s2.cal with pending := Store.insert s2.cal.pending l (meanCodes (all.getD (all.length - 2) []) m) } }
        .next (s3.wr F.CAL_LSTAT_ACT l 3)
      else if 4 ≤ all.length then
        let s3 := (s2.bump F.CAL_CNT_DISAGREE 0 1).emit Ev.CAL_DISAGREE (Un.leg l) 0 0
        .next (s3.measuredNothing a).trainStep
      else .next s2
    else .next s
  | none => .next s

/-! ## Sweeps (R458 to R460) -/

/-- Points of a sweep: 0 drift 104, 1 service 292, 3 full 1,572, 4 short 6. -/
def sweepPoints (kind : Nat) : Nat := match kind with | 0 => 104 | 1 => 292 | 3 => 1572 | _ => 6

/-- The longest run of passing values, the lower one on a tie: its first and last positions. -/
def longestRun (l : List Bool) : Option (Nat × Nat) :=
  let r := l.foldl (fun (acc : Nat × Nat × Option (Nat × Nat)) b =>
    let (i, len, best) := acc
    if b then
      let n := len + 1
      let better := match best with
        | none => true
        | some (x, y) => decide (y + 1 - x < n)
      (i + 1, n, if better then some (i + 1 - n, i) else best)
    else (i + 1, 0, best)) (0, 0, none)
  r.2.2

/-- The field of a leg's delay: lanes 0 to 3 read, 4 to 7 write, 8 the command lane. -/
def dlyField (k : Nat) : Field :=
  match k with
  | 0 => F.CAL_RDLY_L0
  | 1 => F.CAL_RDLY_L1
  | 2 => F.CAL_RDLY_L2
  | 3 => F.CAL_RDLY_L3
  | 4 => F.CAL_WDLY_L0
  | 5 => F.CAL_WDLY_L1
  | 6 => F.CAL_WDLY_L2
  | 7 => F.CAL_WDLY_L3
  | _ => F.CAL_WDLY_CA

/-- The delay of lane k of a leg at the set point in use. -/
def State.dly (s : State) (leg k : Nat) : Nat := s.rd (dlyField k) (2 * leg + s.fsp)

/-- The centre of an eye. -/
def centre (e : Int × Int) : Int := (e.1 + e.2) / 2

/-- The stored edges of lane k of a leg: those of its last good sweep while its delay is still their centre, else EYEMIN / 2 steps on each side of the
delay. (DEDUCED: notes/assumptions/45.md.) -/
def State.edgeOf (s : State) (leg k : Nat) : Int × Int :=
  let c : Int := s.dly leg k
  let h : Int := (s.rd F.CAL_CFG_EYEMIN 0 / 2 : Nat)
  match (Store.get [] s.cal.edges (2 * leg + s.fsp))[k]? with
  | some e => if centre e = c then e else (c - h, c + h)
  | none => (c - h, c + h)

/-- s with a drift correction of lane k of a leg: its delay becomes v and its stored edges move with it (R461). (DEDUCED: notes/assumptions/45.md.) -/
def State.moveDly (s : State) (leg k v : Nat) : State :=
  let i := 2 * leg + s.fsp
  let d : Int := (v : Int) - s.dly leg k
  let l := Store.get [] s.cal.edges i
  let m := match l[k]? with
    | some e => l.set k (e.1 + d, e.2 + d)
    | none => l
  ({ s with cal := { s.cal with edges := Store.put [] s.cal.edges i m } } : State).wr (dlyField k) i v

/-- The leg whose lane k an activity sweeps: the read lanes of a drift check under MEASURE are sampled on the second leg (R458, R461). -/
def Act.swept (a : Act) (k : Nat) : Nat := if a.kind = 0 && a.use = 1 && k < 4 then 2 * (a.leg / 2) + 1 else a.leg

/-- The outcome of lane k in a slice of the recorded points, passing only where the value tested lies in 0 to 511. -/
def laneBits (pts : List Nat) (start n k : Nat) (v0 : Int) : List Bool :=
  (List.range n).map fun i =>
    let bit := if k = 8 then 4 else k % 4
    (pts.getD (start + i) 0).testBit bit && decide (0 ≤ v0 + i ∧ v0 + i ≤ 511)

/-- The eye that the first pass of a sweep finds for lane k: its first and last passing values, none where there is no eye or, in a drift sweep, where
an edge does not lie within 8 steps of the stored one. -/
def State.eye (s : State) (kind leg k : Nat) (pts : List Nat) : Option (Int × Int) :=
  match kind with
  | 3 =>
    let start := if k = 8 then 1024 else if k < 4 then 0 else 512
    (longestRun (laneBits pts start 512 k 0)).map fun r => ((r.1 : Int), (r.2 : Int))
  | 1 =>
    let v0 : Int := (s.dly leg k : Int) - 64
    (longestRun (laneBits pts (if k < 4 then 0 else 128) 128 k v0)).map fun r => (v0 + r.1, v0 + r.2)
  | _ =>
    let (lo, hi) := s.edgeOf leg k
    let start := if k < 4 then 0 else 34
    let a := laneBits pts start 17 k (lo - 8)
    let b := laneBits pts (start + 17) 17 k (hi - 8)
    match a.findIdx? (· == true), b.reverse.findIdx? (· == true) with
    | some (i + 1), some (j + 1) => some (lo - 8 + (i + 1 : Nat), hi + 8 - (j + 1 : Nat))
    | _, _ => none

/-- The confirming pass of a sweep agrees with an eye for lane k (R459): the edges it finds among the 9 points around each lie within 2 steps. The command lane
has no confirming pass. -/
def confirmed (kind k : Nat) (pts : List Nat) (e : Int × Int) : Bool :=
  if k = 8 then true
  else
    let base := match kind with | 3 => 1536 | 1 => 256 | _ => 68
    let start := base + (if k < 4 then 0 else 18)
    let a := laneBits pts start 9 k (e.1 - 4)
    let b := laneBits pts (start + 9) 9 k (e.2 - 4)
    match a.findIdx? (· == true), b.reverse.findIdx? (· == true) with
    | some i, some j => decide (2 ≤ i ∧ i ≤ 6 ∧ 2 ≤ j ∧ j ≤ 6)
    | _, _ => false

/-- The lanes that a sweep covers: 8, and the command lane in a full sweep. -/
def sweepLanes (kind : Nat) : List Nat := if kind = 3 then List.range 9 else List.range 8

/-- What one pass of a sweep gives: the eyes of the lanes, with those kept from the pass before, and the lanes not confirmed. -/
def State.sweepEyes (s : State) (a : Act) : List (Nat × Option (Int × Int)) × List Nat :=
  let pts := Store.get [] s.cal.points a.leg
  let kept := Store.get [] s.cal.kept a.leg
  let eyes := (sweepLanes a.kind).map fun k =>
    match kept.find? fun e => e.1 = k with
    | some e => (k, some e.2)
    | none => (k, s.eye a.kind (a.swept k) k pts)
  let bad := eyes.filterMap fun e =>
    match e.2 with
    | some x => if (kept.any fun y => y.1 = e.1) || confirmed a.kind e.1 pts x then none else some e.1
    | none => none
  (eyes, bad)

/-- s with new delays of a leg waiting for an application point. -/
def State.awaitApply (s : State) (leg : Nat) (v : List Nat) : State :=
  { s with cal := { s.cal with pendDly := Store.insert s.cal.pendDly leg v } }.wr F.CAL_LSTAT_ACT leg 3

/-- s with the nine delays of a leg at the set point in use set in one step, valid and verified. -/
def State.setDelays (s : State) (leg : Nat) (v : List Nat) : State :=
  let i := 2 * leg + s.fsp
  let s1 := foldS (List.range 9) s fun t k => t.wr (dlyField k) i (v.getD k 0)
  ((s1.wrB F.CAL_RDLY_VALID i true).wrB F.CAL_RDLY_VERIFIED i true).wrB F.CAL_WDLY_VALID i true |>.wrB F.CAL_WDLY_VERIFIED i true

/-- The pseudo-channel waits closed for the sweep of its driving leg (R467, R470). -/
def State.waitsClosed (s : State) (leg : Nat) : Bool :=
  (s.pcSt (leg / 2) == 3 || s.pcSt (leg / 2) == 0 || s.pcSt (leg / 2) == 4) && s.phase != 5 && s.drivingLeg (leg / 2) == leg

/-- s after a leg failed a full or service sweep (R460): BAD and TRAIN_FAIL; the driving leg of a pseudo-channel in service is handed over or the
pseudo-channel retired. -/
def State.sweepFails (s : State) (a : Act) (lane width : Nat) : State :=
  let drives := s.drivingLeg (a.leg / 2) == a.leg || (a.use == 2 && a.leg % 2 == 0)
  let s1 := ((s.wrB F.CAL_LSTAT_BAD a.leg true).emit Ev.TRAIN_FAIL (Un.leg a.leg) lane width).endAct a
  let s2 := if s1.phase = 5 || !drives then s1 else s1.legFails (a.leg / 2)
  s2.trainStep.switchDone.kick.tryReady

/-- TRAINING_POINT_DONE (R458): one point of the sweep in hand; bit k of lanes says that byte lane k passed, bit 4 the command lane. -/
def execTrainingPointDone (leg : Leg) (lanes : BitVec 5) (s : State) : Res :=
  let l := leg.val
  match s.actOf l with
  | some a =>
    let pts := Store.get [] s.cal.points l
    if a.kind ≠ 2 && decide (pts.length < sweepPoints a.kind) && (Store.find s.cal.pendDly l).isNone then
      .next { s with cal := { s.cal with points := Store.put [] s.cal.points l (pts ++ [lanes.toNat]) } }
    else .next s
  | none => .next s

/-- s after a drift sweep whose edges were all found and confirmed (R461): nothing to correct ends it; a correction outside 0 to 511 leads to retraining;
otherwise read shifts move the leg that carries no traffic at once, and the driving leg's new delays wait for CARRY or an in-place point. (DEDUCED: notes/assumptions/45.md.) -/
def State.driftDone (s : State) (a : Act) (eyes : List (Nat × Option (Int × Int))) : State :=
  let n := a.leg / 2
  let s0 := { s with cal := { s.cal with driftT := Store.insert s.cal.driftT n (s.padTemp n) } }
  let other := if a.leg % 2 = 0 then a.leg + 1 else a.leg - 1
  let shifts := (List.range 8).map fun k =>
    match (eyes.find? fun e => e.1 = k).bind (·.2) with
    | some e => centre e - (s.dly (a.swept k) k : Int)
    | none => 0
  let thr : Int := s.rd F.CAL_CFG_DRIFTTHR 0
  let moved := fun (k : Nat) => let d := shifts.getD k 0; decide (thr ≤ d ∨ thr ≤ -d)
  let new := (List.range 9).map fun k => (s.dly a.leg k : Int) + (if k < 8 && moved k then shifts.getD k 0 else 0)
  let newO := (List.range 9).map fun k => (s.dly other k : Int) + (if k < 4 && moved k then shifts.getD k 0 else 0)
  let inside := fun (l : List Int) => l.all fun v => decide (0 ≤ v ∧ v ≤ 511)
  if (List.range 8).all fun k => !moved k then (s0.endAct a).kick
  else if !inside new || (s0.delaysValid other && !inside newO) then ((s0.endAct a).addAct (s0.retrainAct a.leg)).kick
  else
    let s1 := if s0.delaysValid other then
        foldS ((List.range 4).filter fun k => moved k) s0 fun t k => t.moveDly other k (newO.getD k 0).toNat
      else s0
    let b : Act := { a with use := if a.use = 1 && s1.carryOk n then 2 else 0, started := true }
    let s2 := { s1 with cal := { s1.cal with acts := s1.cal.acts.map fun x => if x = a then b else x } }
    let s3 := s2.awaitApply a.leg (new.map Int.toNat)
    if b.use = 2 then { s3 with cal := { s3.cal with acts := s3.cal.acts.map fun x => if x = b then { b with started := false } else x } }
    else if a.use = 1 then s3.setSpare (n / 8) 0 0 else s3

/-- SWEEP_DONE (R459, R460): every point of a sweep in hand has been tested. (DEDUCED: notes/assumptions/45.md.) -/
def execSweepDone (leg : Leg) (s : State) : Res :=
  let l := leg.val
  match s.actOf l with
  | none => .next s
  | some a =>
    let pts := Store.get [] s.cal.points l
    if a.kind = 2 || pts.length < sweepPoints a.kind || (Store.find s.cal.pendDly l).isSome then .next s
    else if a.kind = 4 then
      if pts.all fun p => p % 16 == 15 then
        let i := 2 * l + s.fsp
        .next (((s.wrB F.CAL_RDLY_VERIFIED i true).wrB F.CAL_WDLY_VERIFIED i true).endAct a).trainStep
      else .next (s.follow a { a with kind := 1 })
    else
      let (eyes, bad) := s.sweepEyes a
      let lost := eyes.find? fun e => e.2.isNone
      let again := !bad.isEmpty && !s.cal.retried.contains l
      if a.kind = 0 then
        if lost.isNone && again then
          let keep := eyes.filterMap fun e => e.2.bind fun x => if bad.contains e.1 then none else some (e.1, x)
          .next { s with cal := { s.cal with points := Store.erase s.cal.points l, kept := Store.put [] s.cal.kept l keep,
                                             retried := s.cal.retried ++ [l] } }
        else if lost.isSome || !bad.isEmpty then .next ((s.endAct a).addAct (s.retrainAct l)).kick
        else .next (s.driftDone a eyes)
      else
        let eyeMin : Int := s.rd F.CAL_CFG_EYEMIN 0
        let width := fun (e : Nat × Option (Int × Int)) => match e.2 with
          | some x => x.2 - x.1 + 1
          | none => 0
        match eyes.find? fun e => decide (width e < eyeMin) with
        | some e =>
          if a.kind = 1 && s.waitsClosed l then .next (s.follow a { a with kind := 3 })
          else .next (s.sweepFails a (if e.1 = 8 then 4 else e.1 % 4) (width e).toNat)
        | none =>
          if again then
            let keep := eyes.filterMap fun e => e.2.bind fun x => if bad.contains e.1 then none else some (e.1, x)
            .next { s with cal := { s.cal with points := Store.erase s.cal.points l, kept := Store.put [] s.cal.kept l keep,
                                               retried := s.cal.retried ++ [l] } }
          else if !bad.isEmpty then
            if a.kind = 1 && s.waitsClosed l then .next (s.follow a { a with kind := 3 })
            else .next (s.sweepFails a (bad.headD 0 % 4) 0)
          else
            let v := (List.range 9).map fun k =>
              match (eyes.find? fun e => e.1 = k).bind (·.2) with
              | some e => (centre e).toNat
              | none => s.dly l k
            let narrow := (eyes.map width).foldl min 512
            let s1 := s.wr F.CAL_LSTAT_MINEYE l (Nat.min 255 narrow.toNat)
            let s2 := if a.kind = 3 then s1.wrB F.CAL_LSTAT_BAD l false else s1
            let ed := eyes.filterMap (·.2)
            let s3 := { s2 with cal := { s2.cal with edges := Store.put [] s2.cal.edges (2 * l + s2.fsp) ed } }
            .next (s3.awaitApply l v)

/-! ## Application (R457) -/

/-- A leg is at an application point: it carries no traffic, or carries it where no spare is available for CARRY and only delays wait. -/
def State.atPoint (s : State) (leg : Nat) : Bool :=
  !s.legBusy leg || ((Store.find s.cal.pending leg).isNone && !s.carryOk (leg / 2) && !s.served (leg / 2) 2)
    || ((Store.find s.cal.pending leg).isNone && s.served (leg / 2) 3)

/-- s with a leg's agreed trims applied in one step (R456, R465): unmeasured trims stay and become unverified; codes within 2 of stored ones that
only needed verifying stay. -/
def State.setTrims (s : State) (leg : Nat) (v : List Nat) : State :=
  let fs := [F.CAL_ZQ_DRVP, F.CAL_ZQ_DRVN, F.CAL_ZQ_ODT, F.CAL_VREF_V0, F.CAL_VREF_V1, F.CAL_VREF_V2, F.CAL_VREF_V3]
  let got := fun (k : Nat) => v.getD k noCode
  let near := !s.trimsOk leg && (List.range 7).all fun k =>
    let o := s.rd (fs.getD k F.CAL_ZQ_DRVP) leg
    got k == noCode || (decide (got k ≤ o + 2) && decide (o ≤ got k + 2))
  let s1 := if near then s
    else foldS (List.range 7) s fun t k => if got k = noCode then t else t.wr (fs.getD k F.CAL_ZQ_DRVP) leg (got k)
  (s1.wrB F.CAL_ZQ_VERIFIED leg (got 0 != noCode)).wrB F.CAL_VREF_VERIFIED leg (got 3 != noCode)

/-- s after a leg's trims were applied: its sweep follows in bring-up and on a second leg (R461, R465), and otherwise the activity ends. -/
def State.afterTrims (s : State) (a : Act) : State :=
  let i := 2 * a.leg + s.fsp
  if s.phase = 5 then
    if !s.delaysValid a.leg then s.follow a { a with kind := 3 }
    else if !(s.flag F.CAL_RDLY_VERIFIED i && s.flag F.CAL_WDLY_VERIFIED i) then s.follow a { a with kind := 4 }
    else (s.endAct a).trainStep
  else if a.leg % 2 = 1 && a.use = 1 then s.follow a { a with kind := if s.delaysValid a.leg then 1 else 3 }
  else (s.endAct a).kick

/-- s with pseudo-channel n open once the sweep it waited closed for has been applied (R467, R470). -/
def State.openAfter (s : State) (n : Nat) : State :=
  if s.phase ≠ 5 && s.phase ≠ 6 && (s.pcSt n == 3 || s.pcSt n == 0) && !s.fenced n then
    let s1 := s.wr F.PC_STAT_STATE n 1
    s1.switchDone.tryReady
  else s

/-- TRIM_APPLY (R457): at an application point a leg takes its new trims, or its new delays, in one step. -/
def execTrimApply (leg : Leg) (s : State) : Res :=
  let l := leg.val
  match s.actOf l with
  | none => .next s
  | some a =>
    if !s.atPoint l then .next s
    else
      match Store.find s.cal.pending l, Store.find s.cal.pendDly l with
      | some v, _ =>
        let s1 := (s.setTrims l v).wr F.CAL_LSTAT_LASTT l (s.padTemp (l / 2))
        let s2 := { s1 with cal := { s1.cal with pending := Store.erase s1.cal.pending l, meas := Store.erase s1.cal.meas l } }
        .next (s2.afterTrims a)
      | none, some v =>
        if a.kind = 0 then
          let s1 := foldS (List.range 8) s fun t k =>
            let old := t.dly l k
            let d : Int := (v.getD k 0 : Int) - old
            if d = 0 then t
            else
              let u := (t.moveDly l k (v.getD k 0)).bump F.CAL_CNT_DRIFTFIX 0 1
              u.emit Ev.CAL_DRIFT (Un.leg l) (k % 4 + (if k < 4 then 0 else 256)) (wrapInt 64 d)
          .next (s1.endAct a).kick
        else
          let s1 := (s.setDelays l v).endAct a
          .next (if s1.phase = 5 then s1.trainStep else if s.waitsClosed l then (s1.openAfter (l / 2)).kick else s1.kick)
      | none, none => .next s

/-! ## What starts an activity (R461 to R464) -/

/-- DRIFT_CHECK_DUE (R461): of an OPEN pseudo-channel with no check waiting or under way. -/
def execDriftCheckDue (pc : Pc) (s : State) : Res :=
  let n := pc.val
  .next (if s.pcSt n = 1 then s.askDrift n else s)

/-- DRIFT_CHECK_SKIP (R462): a check that has not started is skipped and counted. -/
def execDriftCheckSkip (pc : Pc) (s : State) : Res :=
  match s.cal.acts.find? fun a => a.kind = 0 && a.leg / 2 = pc.val && !a.started && (Store.find s.cal.pendDly a.leg).isNone with
  | some a => .next ({ s with cal := { s.cal with acts := s.cal.acts.filter (· ≠ a) } }.bump F.CAL_CNT_SKIP 0 1)
  | none => .next s

/-- s with an impedance recalibration of a leg asked for (R457, R461): a leg that carries traffic with no spare for it is skipped with CAL_NO_SPARE. -/
def State.askRecal (s : State) (leg : Nat) (nowin : Bool) : State :=
  let n := leg / 2
  if s.legBusy leg && (!s.carryOk n || s.useFor leg = 0) then s.emit Ev.CAL_NO_SPARE (Un.pc n) 0 0
  else (s.addAct { kind := 2, leg := leg, use := s.useFor leg, started := false, nowin := nowin }).kick

/-- ZQ_RECAL_DUE (R461, R463). -/
def execZqRecalDue (leg : Leg) (s : State) : Res := .next (s.askRecal leg.val false)

/-- CAL_WINDOW_WAIT_EXPIRE (R463): a recalibration that waited for a window no longer does. -/
def execCalWindowWaitExpire (leg : Leg) (s : State) : Res :=
  let f := fun (a : Act) => if a.leg = leg.val && a.kind = 2 then { a with nowin := true } else a
  .next ({ s with cal := { s.cal with acts := s.cal.acts.map f } } : State).kick

/-- CAL_STARVED (R464): no training point has issued for 1 ms. -/
def execCalStarved (pc : Pc) (s : State) : Res := .next (s.abandonPc pc.val 3)

/-! ## Register writes (R465, R468, R469, R471) -/

/-- s with a write of CAL_CFG, CAL_FSP or CAL_CTL refused. -/
def State.calRefuse (s : State) (code : Nat) : State := (s.wr F.CAL_STAT_ERR 0 code).emit Ev.CAL_CFG_REFUSED Un.inst code 0

/-- s after a write of CAL_CFG (R471). -/
def State.wCalCfg (s : State) (v : Nat) : State :=
  let p := s.proposed .CAL_CFG 0 v false
  let out := fun (f : Field) (lo hi : Nat) => decide (f.of p < lo ∨ hi < f.of p)
  match firstCode [(out F.CAL_CFG_DRVDIV 4 8 || out F.CAL_CFG_ODTDIV 2 8, 4), (out F.CAL_CFG_VRF 256 896, 5), (F.CAL_CFG_EYEMIN.of p == 0, 6),
      (F.CAL_CFG_DRIFTTHR.of p == 0, 7), (F.CAL_CFG_WINMAX.of p == 0, 8)] with
  | 0 => s.storeReg .CAL_CFG 0 v false
  | c => s.calRefuse c

/-- s after a write of CAL_CTL (R461, R471). -/
def State.wCalCtl (s : State) (v : Nat) : State :=
  let n := F.CAL_CTL_PC.of v
  let recal := F.CAL_CTL_RECAL.of v == 1
  let train := F.CAL_CTL_RETRAIN.of v == 1
  if (recal || train) && s.pcSt n != 1 then s.calRefuse 9
  else
    let s1 := s.storeReg .CAL_CTL 0 v false
    let s2 := if recal then (s1.askRecal (2 * n) true).askRecal (2 * n + 1) true else s1
    if train then ((s2.addAct (s2.retrainAct (2 * n))).addAct (s2.retrainAct (2 * n + 1))).kick else s2

/-- RECAL (R461). -/
def execRecal (v : Word) (s : State) : Res := .next (s.hostWrite .CAL_CTL 0 fun t => t.wCalCtl (setBits v.toNat 9 9 1))

/-- RETRAIN (R461). -/
def execRetrain (v : Word) (s : State) : Res := .next (s.hostWrite .CAL_CTL 0 fun t => t.wCalCtl (setBits v.toNat 8 8 1))

/-- A power state is being entered or left, or is past IDLE: a set-point request waits (18_bringup_reset_lowpower.md R485). -/
def State.pstateBusy (s : State) : Bool := s.boot.entry.isSome || decide (1 < s.rd F.GLB_PSTATE_CUR 0)

/-- s with the hold of a set-point change begun (R469 step 1). -/
def State.beginFsp (s : State) : State :=
  if s.pstateBusy then { s with cal := { s.cal with reqHeld := true } } else (s.wrB F.CAL_STAT_HOLD 0 true)

/-- s after a write of CAL_FSP (R468, R469, R471). -/
def State.wCalFsp (s : State) (v : Nat) : State :=
  let p := s.proposed .CAL_FSP 0 v false
  let r0 := F.CAL_FSP_RATE0.of p
  let r1 := F.CAL_FSP_RATE1.of p
  let inUse := if s.fsp = 0 then r0 != s.rd F.CAL_FSP_RATE0 0 else r1 != s.rd F.CAL_FSP_RATE1 0
  let req := F.CAL_FSP_REQ.of v == 1
  match firstCode [(decide (3 < r0 ∨ 3 < r1), 1), (inUse, 2), (req && (s.calHeld || s.cal.reqHeld), 3)] with
  | 0 =>
    let g := 1 - s.fsp
    let changed := if g = 0 then r0 != s.rd F.CAL_FSP_RATE0 0 else r1 != s.rd F.CAL_FSP_RATE1 0
    let s1 := s.storeReg .CAL_FSP 0 v false
    let s2 := if changed then
        foldS (List.range 128) s1 fun t l => (t.wrB F.CAL_RDLY_VALID (2 * l + g) false).wrB F.CAL_WDLY_VALID (2 * l + g) false
      else s1
    if req then s2.beginFsp else s2
  | c => s.calRefuse c

/-- FSP_RATE_WRITE (R468). -/
def execFspRateWrite (v : Word) (s : State) : Res := .next (s.hostWrite .CAL_FSP 0 fun t => t.wCalFsp (setBits v.toNat 63 63 0))

/-- FSP_REQ (R469). -/
def execFspReq (v : Word) (s : State) : Res := .next (s.hostWrite .CAL_FSP 0 fun t => t.wCalFsp (setBits v.toNat 63 63 1))

/-- FSP_HOLD_END (R469 steps 2 to 4): activities in progress are abandoned, every open pseudo-channel enters self-refresh, spares end MEASURE and CARRY, and
the new set point comes into use. -/
def execFspHoldEnd (s : State) : Res :=
  if s.flag F.CAL_STAT_HOLD 0 then
    let s1 := s.abandonAll (fun _ => true) 4
    let opens := (List.range 64).filter fun n => s1.pcSt n == 1 || s1.pcSt n == 2
    let s2 := (s1.wrB F.CAL_STAT_HOLD 0 false).wrB F.CAL_STAT_SWITCH 0 true
    let s3 := foldS (List.range 8) s2 fun t m => t.endUse m
    let s4 := foldS opens s3 fun t n => t.intoSelfRefresh n
    let s5 := s4.wr F.CAL_FSP_ACTIVE 0 (1 - s4.fsp)
    .next { s5 with cal := { s5.cal with wasOpen := opens, padLock := false } }
  else .next s

/-- FSP_PAD_LOCK (R469 steps 5 and 6, R470): the pad clocks have locked, so pseudo-channels may leave self-refresh; second legs without delays for the new
set point wait for training in MEASURE. -/
def execFspPadLock (s : State) : Res :=
  if s.flag F.CAL_STAT_SWITCH 0 && !s.cal.padLock then
    let s1 := { s with cal := { s.cal with padLock := true } }
    let s2 := foldS (List.range 64) s1 fun t n =>
      if !t.fenced n && !t.delaysValid (2 * n + 1) && t.useFor (2 * n + 1) = 1 then t.addAct (t.retrainAct (2 * n + 1)) else t
    .next s2.updDeliv.switchDone
  else .next s

end Sys2Proof.Machine
end

