-- ==== Sys2Proof/Machine/Spout.lean ====
section
/-! DEFINITION. Sys2Proof/Machine/Spout.lean: spouts (04_zynsa_model.md R98 to R128): registers, memory requests and their ordering, faults, the
decode order every instruction goes through (06_zynsa_encoding.md R161), and the doorbell and command rows. -/
namespace Sys2Proof.Machine

/-! ## Kinds, events, registers -/

/-- The instruction classes (R99), the scalar forms of VEC apart. -/
inductive Cls where
  | ctl | mov | cvt | vec | scalar | mat | hsh | txn | hnt | svc | prv
deriving DecidableEq, Repr

/-- A spout of a kind runs a class (R99). -/
def Cls.allowed (c : Cls) (kind : Nat) : Bool :=
  match c with
  | .ctl | .mov | .txn | .hnt => true
  | .cvt | .vec | .mat | .hsh => kind == 1
  | .scalar => kind != 0
  | .svc => kind != 2
  | .prv => kind == 2

/-! ## Addresses and requests -/

/-- The fault of a memory operand at package address a: misaligned, outside the scope, or a register address (R105 to R107); none where it
resolves to local or remote memory. -/
def State.addrFault (s : State) (sp a align : Nat) : Option Nat :=
  if a % align ≠ 0 then some 0x06
  else
    match s.decodeAddr a with
    | .localMem _ | .remote _ _ => none
    | .regWin _ => some 0x05
    | .regOther => some (if spKind sp = 2 then 0x07 else 0x05)
    | .scope => some 0x07

/-- The address is remote memory. -/
def State.isRemote (s : State) (a : Nat) : Bool :=
  match s.decodeAddr a with
  | .remote _ _ => true
  | _ => false

/-- The requester number of a spout (11_intake_and_basin.md R311). -/
def State.spReq (s : State) (sp : Nat) : Nat :=
  if sp < 32 then s.rd F.ITK_SRCREQ_SLC 0 else if sp < 160 then s.rd F.ITK_SRCREQ_JET 0 else s.rd F.ITK_SRCREQ_FONT 0

/-- A local access that R29 rows 2 and 3 refuse: beyond the capacity, or privileged for a task. -/
def State.refusedLocal (s : State) (priv a n : Nat) : Bool := decide (s.cap < a + n) || (priv == 0 && s.map.touchesPriv a n)

/-- The frame of a remote request of a spout (13_aqueduct_ring.md R376, R383): reads carry whole granules, narrow writes a mask, updates one ATOM; a
marker is a WR whose CODE is POISON (DESIGN CHOICE: notes/assumptions/21.md). No other kind goes to remote memory. -/
def remoteFrame (kind : ReqKind) (a size mask label priv : Nat) (data : Bytes) : Frame :=
  let lo := a / 64 * 64
  let n := (a + size + 63) / 64 * 64 - lo
  let f : Frame := { Frame.zero with label := BitVec.ofNat 12 label, priv := priv != 0, size := sizeCode n, addr := BitVec.ofNat 37 lo }
  match kind with
  | .mark => { f with typ := 2, code := 3, payload := bytesOf n 0#8 }
  | .wr =>
    if a % 64 = 0 ∧ size % 64 = 0 ∧ mask = 2 ^ size - 1 then { f with typ := 2, payload := data }
    else { f with typ := 3, payload := toLE 32 (mask * 2 ^ (a - lo)) ++ bytesOf (a - lo) 0#8 ++ data ++ bytesOf (n - (a - lo) - size) 0#8 }
  | .atom op ew =>
    { f with typ := 4, size := 3, op := BitVec.ofNat 4 op, addr := BitVec.ofNat 37 a, payload := sliceB data 0 8,
             ew := if ew = 1 then 0 else if ew = 2 then 1 else if ew = 4 then 2 else 3 }
  | _ => { f with typ := 1 }

/-- s with a memory request of a spout at package address a, a write under a byte mask: local ones go to the intake after rows 2 and 3 of R29, remote
ones to the weir. One that the spout's own checks refuse, or whose node has no route, is not sent (R105; 08_sluice_channels.md R219;
13_aqueduct_ring.md R383): code 9 stands ready for it. Every data request of an open transaction belongs to it (09_transactions.md R269). -/
def State.askMask (s : State) (sp : Nat) (need : Need) (a size mask : Nat) (kind : ReqKind) (data : Bytes) : State :=
  let x := s.sp sp
  let idx := x.nextIdx
  let write := kind != .rd
  let o : Out :=
    { idx := idx, need := need, addr := a, pc := x.pc, seq := x.seq, write := write, remote := false, accepted := false, resp := none }
  let put := fun (o : Out) => s.updSp sp fun x =>
    { x with outs := x.outs ++ [o], nextIdx := idx + 1, lastW := if write then x.seq else x.lastW }
  let no := put { o with resp := some (9, []) }
  match s.decodeAddr a with
  | .localMem l =>
    if s.refusedLocal x.cmd.priv l size then no
    else
      let tx := match need with
        | .entry | .line _ | .record | .pin _ => none
        | _ => x.tx
      (put o).offer (8 + sp)
        { origin := .spout sp idx, kind := kind, addr := l, size := size, mask := mask, data := data,
          label := x.cmd.label, reqNo := s.spReq sp, priv := x.cmd.priv != 0, tx := tx }
  | .remote node l =>
    if s.route node = 0 then no
    else
      (put { o with remote := true }).sendRemote (.spout sp idx) node (remoteFrame kind l size mask x.cmd.label x.cmd.priv data) size (kind == .rd)
  | _ => no

/-- s with a memory request of a spout that writes every byte of its transfer, or reads. -/
def State.ask (s : State) (sp : Nat) (need : Need) (a size : Nat) (kind : ReqKind) (data : Bytes) : State :=
  s.askMask sp need a size (if kind == .wr || kind == .mark then 2 ^ size - 1 else 0) kind data

/-- The request is not yet past what a fence waits for: a write accepted, a read returned (R117). -/
def Out.open (o : Out) : Bool := o.isData && (if o.write then !o.accepted else o.resp.isNone)

/-- A write not yet acknowledged by its destination (R119). -/
def Out.unacked (o : Out) : Bool := o.isData && o.write && (if o.remote then o.resp.isNone else !o.accepted)

/-- The registers that a request will write, by name: selectors, and 32 + d for descriptors. -/
def Out.names (o : Out) : List Nat :=
  match o.need with
  | .load rd => [rd]
  | .desc dd => [32 + dd]
  | .prior gr => [gr]
  | _ => []

/-- A fence holds back a new request of this kind (R117): a pair of its mask is ordered and an earlier request of the pair is still open. Mask
bits 3 to 0: read-read, read-write, write-read, write-write. -/
def Spout.fenced (x : Spout) (write : Bool) : Bool :=
  x.fences.any fun f => x.outs.any fun o =>
    o.open && decide (o.idx < f.2) && f.1.testBit (if o.write then (if write then 0 else 1) else (if write then 2 else 3))

/-- Every earlier data request is past a full fence. -/
def Spout.settled (x : Spout) : Bool := !x.outs.any Out.open

/-- Writes not yet acknowledged. -/
def Spout.unackedN (x : Spout) : Nat := (x.outs.filter Out.unacked).length

/-- s with spout n's transaction aborted by an instruction it does not permit (09_transactions.md R269). -/
def State.txBars (s : State) (n code : Nat) : State :=
  match (s.sp n).tx with
  | some t => s.txAbort t code 0 none
  | none => s

/-! ## Bus errors of the sluice (08_sluice_channels.md R244 to R247) -/

/-- The sluice channels with a command in FETCH, RUN, WAIT or PAUSED. -/
def State.slcActive (s : State) : List Nat := (List.range 32).filter fun n => [1, 2, 3, 4].contains (s.spSt n)

/-- s with a bus error that no channel is named for: a stop begins, or counts one more failing response while it drains. (DESIGN CHOICE: notes/assumptions/16.md.) -/
def State.busStop (s : State) (addr code : Nat) : State :=
  if s.sluice.draining then s.bump F.SLC_GSTOP_LATE 0 1
  else
    let s1 := (s.wr F.SLC_GERR_ADDR 0 addr).wr F.SLC_GERR_CODE 0 code
    { s1 with sluice := { s1.sluice with draining := true } }

/-- A failing response to a read of spout sp names no channel (R244): it is a channel's, and not of the one channel with a command. -/
def State.notAlone (s : State) (sp : Nat) : Bool := decide (sp < 32) && (s.sluice.draining || s.slcActive != [sp])

/-- s with a DECERR response to read o of a channel that does not run alone: a bus error, the read to be sent again at its CONT (R244 to R246).
(DESIGN CHOICE: notes/assumptions/16.md.) -/
def State.busRead (s : State) (n : Nat) (o : Out) : State :=
  (s.updSp n fun y => { y with outs := y.outs.map fun q => if q.idx = o.idx then { q with resp := none } else q }).busStop o.addr 1

/-- s with STOPPED cleared where no channel is stopped and none runs its stopped command (R247). -/
def State.clearStop (s : State) : State :=
  if s.rd F.SLC_GSTOP_STOPMASK 0 = 0 && !((List.range 32).any fun n => (s.chan n).continued) then s.wrB F.SLC_GERR_STOPPED 0 false else s

/-- s with a channel out of STOPMASK and no longer running a stopped command. -/
def State.leaveStop (s : State) (n : Nat) : State :=
  if n < 32 then
    ((((s.wr F.SLC_GSTOP_STOPMASK 0 (setBitTo (s.rd F.SLC_GSTOP_STOPMASK 0) n false)).wrB F.SLC_STAT_INSTOP n false).wrB F.SLC_STAT_SOLO n false).updChan n
      fun c => { c with continued := false }).clearStop
  else s

/-! ## The program -/

/-- x with a 256 B program line held; of 16 lines the oldest goes (R122). -/
def Spout.hold (x : Spout) (a : Nat) (d : Bytes) : Spout :=
  let l := (x.lines.filter fun e => e.1 ≠ a) ++ [(a, d)]
  { x with lines := if 16 < l.length then l.drop 1 else l }

/-- The line of address a is held. -/
def Spout.holds (x : Spout) (a : Nat) : Bool := x.lines.any fun e => e.1 = a / 256 * 256

/-- The word at address a of a held line. -/
def Spout.word (x : Spout) (a : Nat) : Option Nat :=
  (x.lines.find? fun e => e.1 = a / 256 * 256).map fun e => leNat (sliceB e.2 (a % 256) 8)

/-- s with the program line of address a on its way where it is not held; an address outside memory faults (R105, R106). A draining bus-error stop
holds the fetch (08_sluice_channels.md R245). -/
def State.wantLineAt (s : State) (sp a0 : Nat) : State :=
  let x := s.sp sp
  let a := a0 / 256 * 256
  if x.holds a || x.outs.any (fun o => o.need == .line a) || (decide (sp < 32) && s.sluice.draining) then s
  else
    match s.addrFault sp a 8 with
    | some c => s.fault sp c a0 0
    | none => s.ask sp (.line a) a 256 .rd []

/-- s with the line of the spout's PC on its way where it is not held. -/
def State.wantLine (s : State) (sp : Nat) : State := s.wantLineAt sp (s.sp sp).pc

/-! ## The decode order (06_zynsa_encoding.md R161) -/

/-- What an instruction names: register selectors (5 bits), further registers by name, operand specifiers, whether it sends reads, writes, and
whether it waits for every earlier request. -/
structure Use where
  sels  : List Nat
  names : List Nat
  specs : List Nat
  reads : Bool
  writes : Bool
  all   : Bool
deriving DecidableEq, Repr

/-- An instruction that names nothing. -/
def Use.none : Use := { sels := [], names := [], specs := [], reads := false, writes := false, all := false }

/-- Step 6 of R161 fails: a selector that names no register, or a tile that is absent or not valid. -/
def Use.illegal (u : Use) (sp : Nat) (x : Spout) : Bool :=
  (u.sels.any fun n => decide (28 ≤ n)) || u.specs.any fun n => decide (8 ≤ n) && (spKind sp != 1 || !x.tileV (n - 8))

/-- The instruction can start: no register it names waits for data, and no fence or release order holds back its requests (R117, R120, R177). -/
def Use.ready (u : Use) (x : Spout) : Bool :=
  !(x.outs.any fun o => o.names.any fun n => u.sels.contains n || u.names.contains n)
    && !(u.reads && x.fenced false) && !(u.writes && x.fenced true) && (!u.all || x.settled)

/-- The predicate that a selector names (R116). -/
def Spout.pred (x : Spout) (ps : BitVec 4) : Bool := if ps.getLsbD 3 then !x.pv (ps.toNat % 8) else x.pv (ps.toNat % 8)

/-- The spout can start an instruction: RUN, nothing in progress, its command not ending, its unit powered, no warm reset, trip or bus-error stop; and it
waits for nothing and is not to pause, or the instruction is the very one that waits for data, `again` (08_sluice_channels.md R238). (DESIGN CHOICE:
notes/assumptions/20.md.) -/
def State.issuable (s : State) (sp : Nat) (again : Bool) : Bool :=
  let x := s.sp sp
  s.spSt sp == 2 && x.prog.isNone && x.finish.isNone && s.domOn (domOfSpout sp) && s.power.shut == 0 && s.phase != 9 && !(decide (sp < 32) && s.sluice.draining)
    && ((x.waiting == .none && !(decide (sp < 32) && s.flag F.SLC_CTL_PAUSE sp)) || again)

/-- The spout holds every word of an instruction at its PC (R122): an extension word may lie in the next line. -/
def Spout.hasWords (x : Spout) (h : Hdr) : Bool := x.holds x.pc && (!h.x || x.holds ((x.pc + 8) % 2 ^ 48))

/-- s with an instruction of a spout held until what it waits for has come, unless its command ends. -/
def State.holdFor (s : State) (sp : Nat) (i : Instr) : State :=
  if (s.sp sp).finish.isSome then s else s.updSp sp fun y => { y with waiting := .deps i }

/-- s with an instruction decoded in the order of R161; `skip` where its predicate is 0, `body` where it starts, and the instruction held where it
must wait: for its words too, which it issues from held lines only (R122, R125). The word at the PC is not compared with the command:
notes/assumptions/20.md. -/
def State.issue (s00 : State) (h : Hdr) (i : Instr) (c : Cls) (u : Use) (skip body : State → State) : State :=
  let sp := h.sp.val
  let s0 := s00.endData sp
  if !s0.issuable sp ((s0.sp sp).waiting == .deps i) then s0
  else
    let s := s0.updSp sp fun y => { y with waiting := .none }
    let x := s.sp sp
    if !x.hasWords h then (if x.holds x.pc then s.wantLineAt sp ((x.pc + 8) % 2 ^ 48) else s.wantLine sp).holdFor sp i
    else if c = .prv && x.cmd.priv != 2 then s.fault sp 0x05 0 0
    else if !c.allowed (spKind sp) then s.fault sp 0x02 0 0
    else if h.ps = 8 then s.fault sp 0x03 0 0
    else if u.illegal sp x then s.fault sp 0x04 0 0
    else if !x.pred h.ps then skip s
    else if !u.ready x then s.holdFor sp i
    else body s

/-- An instruction that only advances when skipped. (DESIGN CHOICE: notes/assumptions/20.md.) -/
def State.issue1 (s : State) (h : Hdr) (i : Instr) (c : Cls) (u : Use) (body : State → State) : State := s.issue h i c u (fun t => t.done h) body

/-! ## Doorbell pages -/

/-- The spout's unit is in an engine reset (07_jet_engines.md R216, 08_sluice_channels.md R248). -/
def State.unitResetting (s : State) (sp : Nat) : Bool :=
  if sp < 32 then (s.chan sp).resetting else if sp < 160 then (s.jet (jetOf sp)).resetting else false

/-- The ring size in entries: 0 while none is configured. -/
def State.ringSize (s : State) (sp : Nat) : Nat :=
  let n := s.rd F.DBL_RING_LOG2N sp
  if n = 0 then 0 else 2 ^ n

/-- HEAD and TAIL. -/
def State.head (s : State) (sp : Nat) : Nat := s.rd F.DBL_PTR_HEAD sp
def State.tail (s : State) (sp : Nat) : Nat := s.rd F.DBL_PTR_TAIL sp

/-- A spout has a command to fetch (R101): EN, a ring, HEAD and TAIL apart, phase 8 (18_bringup_reset_lowpower.md R476; the font runs its services from
phase 3), no engine reset in progress, and no power state that is entered or left (R487). -/
def State.hasCommand (s : State) (sp : Nat) : Bool :=
  s.flag F.DBL_CTL_EN sp && s.rd F.DBL_RING_LOG2N sp != 0 && s.head sp != s.tail sp && (sp == 160 || s.phase == 8) && !s.unitResetting sp && !s.holding

/-- A spout may fetch it: no bus-error stop is in force (08_sluice_channels.md R246). -/
def State.mayFetch (s : State) (sp : Nat) : Bool := s.hasCommand sp && !(decide (sp < 32) && s.flag F.SLC_GERR_STOPPED 0)

/-- The spout has no command to fetch by its own page: EN is 0, no ring is configured, or HEAD equals TAIL (R101). -/
def State.nothingToRun (s : State) (sp : Nat) : Bool :=
  !s.flag F.DBL_CTL_EN sp || s.rd F.DBL_RING_LOG2N sp == 0 || s.head sp == s.tail sp

/-- s with an IDLE spout in FETCH where it may, and one in FETCH that has not begun to read its entry back in IDLE where nothing is left to run. -/
def State.kickSp (s : State) (sp : Nat) : State :=
  if s.spSt sp = 0 && s.mayFetch sp then s.setSpSt sp 1
  else if s.spSt sp = 1 && s.nothingToRun sp && (s.sp sp).finish.isNone && !((s.sp sp).outs.any fun o => o.need == .entry) then s.setSpSt sp 0
  else s

/-- s with TAIL written (R113): refused past the ring size, of no effect where equal. -/
def State.storeTail (s : State) (sp v : Nat) : State :=
  let t := v % 2 ^ 32
  if t = s.tail sp then s
  else if s.ringSize sp < (t + 2 ^ 32 - s.head sp) % 2 ^ 32 then
    s.spEvent sp (if sp < 160 then 0x06 else 0x0B) t (s.head sp)
  else (s.wr F.DBL_PTR_TAIL sp t).kickSp sp

/-- s with the TAIL write that a gated spout's page holds taken (02_ports.md R52). -/
def State.takeTail (s : State) (sp : Nat) : State :=
  match (s.sp sp).tailHeld with
  | none => s
  | some v => (s.updSp sp fun x => { x with tailHeld := none }).storeTail sp v

/-- TAIL_WRITE (R110, R113; 02_ports.md R52; 16_power_and_thermal.md R432). -/
def execTailWrite (page : Sp) (v : Word) (bytes : Nat) (host : Bool) (s0 : State) : Res :=
  let n := page.val
  let st := s0.domSt (domOfSpout n)
  if (!host && !s0.flag F.DBL_CTL_OWNER n) || (bytes != 4 && bytes != 8) || st == 4 || s0.unitResetting n then .next s0.decerr
  else
    let s := s0.leaveIdle 2
    if st != 2 then .next (s.updSp n fun x => { x with tailHeld := some (v.toNat % 2 ^ 32) }).ok
    else .next (s.storeTail n v.toNat).ok

/-- The spout counts as stopped for RWS fields of its page. -/
def State.pageStopped (s : State) (sp : Nat) : Bool := [0, 5, 6].contains (s.spSt sp) && s.head sp == s.tail sp

/-- s after a write of DBL_RING: refused where the size it would hold (00_scope.md R16) is 0 or out of range. -/
def State.wDblRing (s : State) (sp v : Nat) : State :=
  let n := F.DBL_RING_LOG2N.of (s.proposed .DBL_RING sp v (!s.pageStopped sp))
  match firstCode [(n == 0, 1), (decide (n < 4 ∨ 16 < n), 2)] with
  | 0 => s.storeReg .DBL_RING sp v (!s.pageStopped sp)
  | c => s.spEvent sp 0x83 c 0

/-- DBL_RING_WRITE (R101). -/
def execDblRingWrite (page : Sp) (v : Word) (s : State) : Res :=
  if s.unitResetting page.val then .next s.decerr
  else .next (s.hostWrite .DBL_RING page.val fun t => t.wDblRing page.val v.toNat)

/-- s with STOP written (R126): a running command ends at its next instruction boundary, or at once; of no effect in a bus-error stop. -/
def State.spStop (s : State) (sp : Nat) : State :=
  let x := s.sp sp
  let st := s.spSt sp
  if (sp < 32 ∧ (s.rd F.SLC_GSTOP_STOPMASK 0).testBit sp) ∨ x.finish.isSome then s
  else if st = 3 ∨ st = 4 then (s.stopCmd sp 0xF3 0x0F).setSpSt sp 2
  else if st = 2 then (if x.prog.isNone then s.stopCmd sp 0xF3 0x0F else (s.updSp sp fun y => { y with stopReq := some 0xF3 }).endData sp)
  else s

/-- s with RESUME written (R126). -/
def State.spResume (s : State) (sp : Nat) : State :=
  let st := s.spSt sp
  let x := s.sp sp
  if sp < 32 ∧ (s.rd F.SLC_GSTOP_STOPMASK 0).testBit sp then s
  else if st = 5 && x.finish.isSome then s
  else if st = 5 then
    ((((s.wr F.DBL_STAT_FAULT sp 0).wr F.DBL_STAT_PROGRESS sp 0).wr F.DBL_STAT_IMPRECISE sp 0).setSpSt sp 0).kickSp sp
  else if st = 6 then (s.setSpSt sp 0).kickSp sp
  else s

/-- s after a write of DBL_CTL: its fields, then STOP and RESUME, then fetching where EN allows it. -/
def State.wDblCtl (s : State) (sp v : Nat) : State :=
  let s1 := s.storeReg .DBL_CTL sp v (!s.pageStopped sp)
  let s2 := if F.DBL_CTL_STOP.of v = 1 then s1.spStop sp else s1
  let s3 := if F.DBL_CTL_RESUME.of v = 1 then s2.spResume sp else s2
  s3.kickSp sp

/-- SPOUT_ENABLE (R101): a write of DBL_CTL. -/
def execSpoutEnable (page : Sp) (v : Word) (s : State) : Res :=
  if s.unitResetting page.val then .next s.decerr
  else .next (s.hostWrite .DBL_CTL page.val fun t => t.wDblCtl page.val v.toNat)

/-- SPOUT_STOP (R126): DBL_CTL written as it is with STOP 1. (DEDUCED: notes/assumptions/48.md.) -/
def execSpoutStop (page : Sp) (s : State) : Res :=
  if s.unitResetting page.val then .next s.decerr
  else .next (s.hostWrite .DBL_CTL page.val fun t => t.wDblCtl page.val (t.reg .DBL_CTL page.val + 8))

/-- SPOUT_RESUME (R126): DBL_CTL written as it is with RESUME 1. -/
def execSpoutResume (page : Sp) (s : State) : Res :=
  if s.unitResetting page.val then .next s.decerr
  else .next (s.hostWrite .DBL_CTL page.val fun t => t.wDblCtl page.val (t.reg .DBL_CTL page.val + 4))

/-! ## Commands -/

/-- Package address of the entry at HEAD. -/
def State.entryAddr (s : State) (sp : Nat) : Nat := s.rd F.DBL_RING_BASE sp * 4096 + s.head sp % s.ringSize sp * 64

/-- COMMAND_FETCH (R114): the read of the entry at HEAD, under BLABEL at task privilege on a page of a task, else under label 0 at host privilege. -/
def execCommandFetch (page : Sp) (s0 : State) : Res :=
  let n := page.val
  let s := s0.kickSp n
  let x := s.sp n
  if s.spSt n ≠ 1 || x.finish.isSome || !s.domOn (domOfSpout n) || !(s.mayFetch n || (s.hasCommand n && (s.chan n).continued)) || (n < 32 && s.sluice.draining)
      || x.outs.any (fun o => o.need == .entry) then .next s
  else
    let owner := s.flag F.DBL_CTL_OWNER n
    let cmd : CmdInfo := { CmdInfo.none with label := if owner then s.rd F.DBL_CTL_BLABEL n else 0, priv := if owner then 0 else 1 }
    let a := s.entryAddr n
    let s1 := s.updSp n fun y => { y with cmd := cmd, pc := a, lines := [], loops := [], waiting := .none, prog := none, fences := [], tx := none }
    if s1.isLocal a then .next (s1.ask n .entry a 64 .rd [])
    else
      let o : Out :=
        { idx := x.nextIdx, need := .entry, addr := a, pc := a, seq := x.seq, write := false, remote := false, accepted := false, resp := some (9, []) }
      .next (s1.updSp n fun y => { y with outs := y.outs ++ [o], nextIdx := x.nextIdx + 1 })

/-- Two tiles as (base, size) in 4 KiB units meet. -/
def tilesMeet (a b : Nat × Nat) : Bool := decide (a.1 < b.1 + b.2 ∧ b.1 < a.1 + a.2)

/-- The valid tiles of a tile map as (base, size). -/
def tileList (m : Nat) : List (Nat × Nat) :=
  (List.range 8).filterMap fun t =>
    let e := bits m (16 * t + 15) (16 * t)
    if e.testBit 15 then some (bits e 13 6, bits e 5 0) else none

/-- Some tile of a list meets a later one. -/
def anyMeet : List (Nat × Nat) → Bool
  | [] => false
  | a :: l => l.any (tilesMeet a) || anyMeet l

/-- The tile fault of a jet spout's map (R104), or 0. (DEDUCED: notes/assumptions/48.md.) -/
def State.tileFault (s : State) (sp m : Nat) : Nat :=
  let ts := tileList m
  let others := (List.range 4).flatMap fun k =>
    let o := 32 + 4 * jetOf sp + k
    if o ≠ sp && [2, 3, 4].contains (s.spSt o) then tileList (s.sp o).tiles.toNat else []
  firstCode [(ts.any fun t => t.2 == 0, 0x92), (ts.any fun t => decide (32 < t.2 ∨ 256 < t.1 + t.2), 0x93),
    (anyMeet ts || ts.any fun t => others.any (tilesMeet t), 0x94)]

/-- s with the entry of a command accepted or refused (R104, R108, R111): its eight words. (DEDUCED: notes/assumptions/48.md.) -/
def State.takeEntry (s : State) (sp : Nat) (w : List Nat) : State :=
  let owner := s.flag F.DBL_CTL_OWNER sp
  let w0 := w.getD 0 0
  let typ := bits w0 63 56
  let asked := w0.testBit 43
  let seedv := w0.testBit 40
  let priv := if sp = 160 then 2 else if owner || !asked then 0 else 1
  let cra := w.getD 4 0 % 2 ^ 48
  let pc := w.getD 1 0 % 2 ^ 48
  let tiles := w.getD 5 0 + 2 ^ 64 * w.getD 6 0
  let cmd : CmdInfo :=
    { cmdId := w0 % 2 ^ 32, evt := w0.testBit 42, crec := w0.testBit 41, craddr := cra,
      label := if owner then s.rd F.DBL_CTL_BLABEL sp else bits w0 55 44, priv := priv, known := true }
  let s1 := s.updSp sp fun x => { x with cmd := cmd }
  match firstCode [(typ != 1 && typ != 2, 0x90), ((owner && asked) || (seedv && priv == 0), 0x91), (cmd.crec && cra % 16 != 0, 0x06),
      (true, if spKind sp = 1 then s.tileFault sp tiles else 0)] with
  | 0 =>
    if typ = 1 && pc % 8 != 0 then s1.fault sp 0x06 pc 0
    else
      let s2 := s1.updSp sp fun x =>
        { x with pc := pc, g := Store.put 0 (Store.put 0 [] 0 (BitVec.ofNat 64 (w.getD 2 0))) 1 (BitVec.ofNat 64 (w.getD 3 0)), a := [], k := [],
                 d := [], p := 1, tiles := if spKind sp = 1 then BitVec.ofNat 128 tiles else 0,
                 gen := if seedv then (if w.getD 7 0 = 0 then Spout.init.gen else BitVec.ofNat 64 (w.getD 7 0)) else x.gen }
      if typ = 2 then (s2.ending sp 0).setSpSt sp 2 else (s2.setSpSt sp 2).wantLine sp
  | c => s1.fault sp c (if c = 0x06 then cra else 0) 0

/-- COMMAND_ENTRY_RETURN (R104). (DEDUCED: notes/assumptions/48.md.) -/
def execCommandEntryReturn (page : Sp) (s : State) : Res :=
  let n := page.val
  match (s.sp n).outs.find? fun o => o.need == .entry with
  | some o =>
    match o.resp with
    | none => .next s
    | some (code, d) =>
      let s1 := s.updSp n fun x => { x with outs := x.outs.filter fun y => y.idx ≠ o.idx }
      if s.spSt n ≠ 1 then .next s1
      else if (code = 1 ∨ code = 2) ∧ s.notAlone n then .next (s.busRead n o)
      else if code ≠ 0 then .next (s1.fault n 0x95 o.addr 0)
      else .next (s1.takeEntry n ((List.range 8).map fun k => leNat (sliceB d (8 * k) 8)))
  | none => .next s

/-- The 16 bytes of the completion record of a command that ends with a code (R115). -/
def State.recordBytes (s : State) (sp code : Nat) : Bytes := toLE 8 ((s.sp sp).cmd.cmdId * 2 ^ 32 + code * 2 ^ 24) ++ toLE 8 s.wall

/-- The command writes a completion record, to an address that resolves to memory (R114 step 2). (DEDUCED: notes/assumptions/48.md.) -/
def State.wantsRecord (s : State) (sp : Nat) : Bool :=
  let c := (s.sp sp).cmd
  c.known && c.crec && (s.addrFault sp c.craddr 16).isNone

/-- A write of the command has not been accepted yet (R114 step 1). -/
def Spout.writesOpen (x : Spout) : Bool := x.outs.any fun o => o.isData && o.write && !o.accepted && o.resp.isNone

/-- A write of the command was refused, and the fault it carries has not been raised yet (R123). -/
def Spout.writeFailed (x : Spout) : Bool :=
  x.outs.any fun o => o.isData && o.write && o.need != .record && (match o.resp with | some (c, _) => c != 0 && c != 4 | none => false)

/-- The record's write of the command's end, once asked for. -/
def Spout.recordOut (x : Spout) : Option Out := x.outs.find? fun o => o.need == .record

/-- s with a continued channel's stopped command ended: every channel fetches again once none is left (08_sluice_channels.md R246, R247). -/
def State.endSolo (s : State) (n : Nat) : State :=
  if n < 32 && (s.chan n).continued then
    let s1 := s.leaveStop n
    if s1.flag F.SLC_GERR_STOPPED 0 then s1 else foldS (List.range 32) s1 fun t k => t.kickSp k
  else s

/-- s with a command finished after its record (R114 steps 3 to 5): HEAD, its event, and the next state of the spout. -/
def State.completeCmd (s : State) (n code : Nat) : State :=
  let c := (s.sp n).cmd
  let s2 := s.wr F.DBL_PTR_HEAD n ((s.head n + 1) % 2 ^ 32)
  let s3 := if code ≠ 0 then (s2.wr F.DBL_STAT_FAULT n code).spEvent n 0x81 (c.cmdId * 2 ^ 16 + code) (s2.rd F.DBL_FPC_PC n)
    else if c.evt then s2.spEvent n 0x80 c.cmdId (s2.head n) else s2
  let s4 := ((s3.leaveTx n).updSp n fun y =>
    { y with finish := none, cmd := CmdInfo.none, lines := [], outs := y.outs.filter fun o => o.need != .record }).endSolo n
  if code = 0 then (s4.setSpSt n 0).kickSp n
  else if code = 0xF0 then (s4.wr F.DBL_PTR_HEAD n (s4.tail n)).setSpSt n 6
  else s4.setSpSt n 5

/-- COMMAND_COMPLETE (R114): once every write of the command has been accepted, its record is written; once that has been accepted, or refused, the
command is finished. A channel that a bus-error stop holds finishes after its CONT (08_sluice_channels.md R245). (DEDUCED:
notes/assumptions/48.md.) -/
def execCommandComplete (page : Sp) (s : State) : Res :=
  let n := page.val
  let x := s.sp n
  match x.finish with
  | none => .next s
  | some code =>
    if x.writesOpen || (code == 0 && x.writeFailed) || (s.evFull && (code != 0 || x.cmd.evt)) || (decide (n < 32) && (s.rd F.SLC_GSTOP_STOPMASK 0).testBit n) then .next s
    else if s.wantsRecord n && x.recordOut.isNone then
      let s1 := s.ask n .record x.cmd.craddr 16 .wr (s.recordBytes n code)
      match (s1.sp n).recordOut with
      | some o => .next (if o.accepted || o.resp.isSome then s1.completeCmd n code else s1)
      | none => .next s1
    else .next (s.completeCmd n code)

/-- s with every spout of a compute task halted (R128). (DEDUCED: notes/assumptions/48.md.) -/
def State.haltCompute (s : State) : State :=
  foldS (List.range 161) s fun t n =>
    if !t.flag F.DBL_CTL_OWNER n || t.spSt n == 6 then t
    else if [1, 2, 3, 4].contains (t.spSt n) then
      let u := t.stopCmd n 0xF0 0x10
      u.updSp n fun x => { x with outs := x.outs.filter fun o => o.need != .entry }
    else
      let u := (t.leaveStop n).releaseUnits n
      ((u.updSp n fun x => { x with waiting := .none, prog := none, stopReq := none, fences := [], loops := [], outs := x.outs.filter fun o => o.write }).wr
        F.DBL_PTR_HEAD n (t.tail n)).setSpSt n 6

end Sys2Proof.Machine
end

