-- ==== Sys2Proof/Machine/Bulk.lean ====
section
/-! DEFINITION. Sys2Proof/Machine/Bulk.lean: the memory accesses of a data instruction as requests of its spout: reads of source granules, writes of
destination granules, poison markers, indivisible accesses, each after the spout's own checks (04_zynsa_model.md R105, R106, R124;
08_sluice_channels.md R218 to R220), and the context that carries an instruction through them. -/
namespace Sys2Proof.Machine

/-- Why the spout itself turns an access of package granule pg away, or none: an address outside memory (R105, R106), rows 2 and 3 of R29, a node
without a route, and 0x10D for remote memory inside a transaction (09_transactions.md R269). -/
def State.granFault (s : State) (sp pg : Nat) : Option Nat :=
  match s.decodeAddr (64 * pg) with
  | .localMem l => if s.refusedLocal (s.sp sp).cmd.priv l 64 then some 0x08 else none
  | .remote node _ => if (s.sp sp).tx.isSome then some 0x10D else if s.route node = 0 then some 0x08 else none
  | _ => s.addrFault sp (64 * pg) 1

/-- The fault that a response code carries (R123): POISON, a dead read, DECERR. -/
def faultOf (code : Nat) : Nat := if code = 3 then 0x09 else if code = 8 then 0x0A else 0x08

/-! ## The context of an instruction -/

/-- An instruction in execution: the state, its spout, its staged copy, the source granules in hand (package granule, code, data) and those it has
used, the answers of its indivisible accesses and how many of them it has used; the granules it lacks, and the access it comes to next; the
granule it is writing with the bits written and their values and the elements complete before it; the random draws (05_number_formats.md R145),
the numeric flags it sets (R150), the fault that stopped it, its elements, the granules it marked, and whether a comparison has found a difference. -/
structure Bk where
  s       : State
  sp      : Nat
  staged  : List (Nat × Option Bytes)
  fetched : List (Nat × Nat × Bytes)
  used    : List Nat
  upds    : List (Nat × Nat × Bytes)
  nupd    : Nat
  missing : List Nat
  want    : Option (ReqKind × Nat × Nat)
  wbuf    : Option (Nat × Nat × Nat)
  wstart  : Nat
  draw    : Draw
  flags   : Nat
  stop    : Option (Nat × Nat)
  elems   : Nat
  marked  : List Nat
  found   : Bool
deriving DecidableEq, Repr

/-- Nothing has stopped the instruction and it lacks nothing. -/
def Bk.good (b : Bk) : Bool := b.stop.isNone && b.missing.isEmpty && b.want.isNone

/-- b stopped by a fault at an address. -/
def Bk.halt (b : Bk) (c a : Nat) : Bk := { b with stop := some (c, a) }

/-- The instruction is part of a transaction: poison faults in it (04_zynsa_model.md R124). -/
def Bk.inTx (b : Bk) : Bool := (b.s.sp b.sp).tx.isSome

/-- Package granule pg: its 64 bytes, none where poisoned (a fault where `pf`); zeros stand for a granule not in hand, which is noted. -/
def Bk.gran (b : Bk) (pg : Nat) (pf : Bool) : Bk × Option Bytes :=
  if b.stop.isSome then (b, some (bytesOf 64 0#8))
  else
    match b.s.granFault b.sp pg with
    | some c => (b.halt c (64 * pg), none)
    | none =>
      let b1 := { b with used := pg :: b.used }
      match b.fetched.find? fun e => e.1 = pg with
      | some (_, code, d) =>
        if code = 0 then (b1, some d)
        else if code = 3 && !(pf || b.inTx) then (b1, none)
        else (b1.halt (faultOf code) (64 * pg), none)
      | none => ({ b1 with missing := if b.missing.contains pg then b.missing else b.missing ++ [pg] }, some (bytesOf 64 0#8))

/-- Package granule pg as a source, from the staged copy where there is one. -/
def Bk.src (b : Bk) (pg : Nat) (pf : Bool) : Bk × Option Bytes :=
  match b.staged.find? fun e => e.1 = pg with
  | some (_, some d) => (b, some d)
  | some (_, none) => (if b.stop.isNone && (pf || b.inTx) then b.halt 0x09 (64 * pg) else b, none)
  | none => b.gran pg pf

/-- The granules of n bytes from address a. -/
def gransOf (a n : Nat) : List Nat := if n = 0 then [] else (List.range ((a + n - 1) / 64 + 1 - a / 64)).map (a / 64 + ·)

/-- n bytes from package address a: none where a granule of them is poisoned. -/
def Bk.run (b : Bk) (a n : Nat) (pf : Bool) : Bk × Option Bytes :=
  let r := (gransOf a n).foldl (fun (acc : Bk × Option Bytes) pg =>
    match acc.1.gran pg pf with
    | (b1, some d) => (b1, acc.2.map (· ++ d))
    | (b1, none) => (b1, none)) (b, some [])
  (r.1, r.2.map fun d => sliceB d (a % 64) n)

/-! ## Writes -/

/-- b with a write of granule pg asked for: `mark` elements are complete before it. A copy of the granule in hand takes the bytes, and one on its way is
to be read again. -/
def Bk.askPut (b : Bk) (pg mark mask : Nat) (kind : ReqKind) (d : Bytes) : Bk :=
  let upd := fun (e : Nat × Nat × Bytes) =>
    if e.1 ≠ pg then e else if kind = .mark then (pg, 3, []) else if e.2.1 = 0 then (pg, 0, mergeB e.2.2 d mask) else e
  let s1 := b.s.updSp b.sp fun x => { x with outs := x.outs.filter fun o => o.need != .bulk pg }
  { b with s := s1.askMask b.sp (.put mark) (64 * pg) 64 mask kind d, fetched := b.fetched.map upd }

/-- b with its write buffer written: whole bytes under their mask. -/
def Bk.flush (b : Bk) : Bk :=
  match b.wbuf with
  | none => b
  | some (pg, mask, v) =>
    let touched := maskOf ((List.range 64).filter fun k => bits mask (8 * k + 7) (8 * k) != 0)
    ({ b with wbuf := none } : Bk).askPut pg b.wstart touched .wr (toLE 64 v)

/-- b with an empty write buffer of granule pg, after the spout's checks. -/
def Bk.fresh (b : Bk) (pg : Nat) : Bk :=
  match b.s.granFault b.sp pg with
  | some c => b.halt c (64 * pg)
  | none => { b with wbuf := some (pg, 0, 0), wstart := b.elems }

/-- b with granule pg in its write buffer. -/
def Bk.begin (b : Bk) (pg : Nat) : Bk :=
  match b.wbuf with
  | some (q, _, _) => if q = pg then b else b.flush.fresh pg
  | none => b.fresh pg

/-- b with w bits of value v, whole bytes, at bit `off` of the granule in its write buffer. -/
def Bk.setBuf (b : Bk) (off w v : Nat) : Bk :=
  match b.wbuf with
  | none => b
  | some (pg, mask, u) =>
    let m := (2 ^ w - 1) * 2 ^ off
    { b with wbuf := some (pg, mask ||| m, (u &&& (2 ^ 512 - 1 - m)) ||| (v % 2 ^ w) * 2 ^ off) }

/-- b with w bits of value v written at bit `off` of package granule pg; a byte written in part keeps the bits it has. -/
def Bk.putBits (b : Bk) (pg off w v : Nat) : Bk :=
  if !b.good || b.marked.contains pg then b
  else
    let b0 := b.begin pg
    if !b0.good then b0
    else if off % 8 = 0 ∧ w % 8 = 0 then b0.setBuf off w v
    else
      let lo := off / 8 * 8
      let n := (off + w + 7) / 8 * 8 - lo
      match b0.wbuf with
      | none => b0
      | some (_, mask, u) =>
        let put := fun (c : Bk) (cur : Nat) => c.setBuf lo n (setBits (bits cur (lo + n - 1) lo) (off - lo + w - 1) (off - lo) v)
        if bits mask (lo + n - 1) lo = 2 ^ n - 1 then put b0 u
        else
          match b0.gran pg true with
          | (b1, some old) => if b1.good then put b1 ((leNat old &&& (2 ^ 512 - 1 - mask)) ||| u) else b1
          | (b1, none) => b1

/-- b with package granule pg marked poisoned (04_zynsa_model.md R124), what waits to be written in it dropped. -/
def Bk.poison (b : Bk) (pg : Nat) : Bk :=
  if !b.good || b.marked.contains pg then b
  else
    let (b1, from_) := match b.wbuf with
      | some (q, _, _) => if q = pg then ({ b with wbuf := none }, b.wstart) else (b.flush, b.elems)
      | none => (b, b.elems)
    match b1.s.granFault b.sp pg with
    | some c => b1.halt c (64 * pg)
    | none => { b1.askPut pg from_ (2 ^ 64 - 1) .mark [] with marked := b.marked ++ [pg] }

/-- b at its end: what waits to be written is written, also before a fault of a later element. -/
def Bk.close (b : Bk) : Bk := { ({ b with stop := none } : Bk).flush with stop := b.stop }

/-! ## Indivisible accesses -/

/-- b with an update of the element of w bytes at package address a by operation op, one write of the elements in order (08_sluice_channels.md R229):
an ATOM where it is remote. -/
def Bk.atom (b : Bk) (a w op new : Nat) : Bk :=
  if !b.good then b
  else
    match b.s.granFault b.sp (a / 64) with
    | some c => b.halt c a
    | none => { b with s := b.s.askMask b.sp (.put b.elems) a w 0 (.atom op w) (toLE 8 new) }

/-- The answer of the next indivisible access of the instruction, of `size` bytes at package address a (07_jet_engines.md R206, R210); none while it has
not come. -/
def Bk.access (b : Bk) (kind : ReqKind) (a size : Nat) : Bk × Option Bytes :=
  if !b.good then (b, none)
  else
    match b.upds.find? fun e => e.1 = b.nupd with
    | some (_, code, d) => if code = 0 then ({ b with nupd := b.nupd + 1 }, some d) else (b.halt (faultOf code) a, none)
    | none =>
      match b.s.granFault b.sp (a / 64) with
      | some c => (b.halt c a, none)
      | none => ({ b with want := some (kind, a, size) }, none)

end Sys2Proof.Machine
end

