-- ==== Sys2Proof/Machine/Control.lean ====
section
/-! DEFINITION. Sys2Proof/Machine/Control.lean: the control class and its register setup (06_zynsa_encoding.md R168 to R178), `SEED`, and what an
unassigned opcode raises (R161, R167). -/
namespace Sys2Proof.Machine

/-! ## Sequence -/

/-- NOP (R169). -/
def execNop (h : Hdr) (s : State) : Res := .next (s.issue1 h (.nop h) .ctl Use.none fun t => t.done h)

/-- HALT (R169): the command finishes under R114. -/
def execHalt (h : Hdr) (s : State) : Res := .next (s.issue1 h (.halt h) .ctl Use.none fun t => t.ending h.sp.val 0)

/-- FENCE (R117, R170): the pairs of the mask are held from here on; a mask of 0 holds nothing. -/
def execFence (h : Hdr) (mask : BitVec 4) (s : State) : Res :=
  .next (s.issue1 h (.fence h mask) .ctl Use.none fun t =>
    (if mask = 0 then t else t.updSp h.sp.val fun x => { x with fences := x.fences ++ [(mask.toNat, x.nextIdx)] }).done h)

/-- SYNC (R119, R170): a full fence, and outside a transaction a wait for every acknowledgement (09_transactions.md R269). -/
def execSync (h : Hdr) (s : State) : Res :=
  .next (s.issue1 h (.sync h) .ctl Use.none fun t =>
    let n := h.sp.val
    let x := t.sp n
    if x.tx.isSome then (t.updSp n fun y => { y with fences := y.fences ++ [(15, y.nextIdx)] }).done h
    else if x.settled && x.unackedN == 0 then t.done h
    else (t.updSp n fun y => { y with waiting := .sync, waitPc := x.nextPc h }).setSpSt n 3)

/-- s with a spout in SYNC on its way where every request has returned and every write is acknowledged. -/
def State.trySync (s : State) (n : Nat) : State :=
  let x := s.sp n
  if x.waiting = .sync && x.settled && x.unackedN == 0 then
    ((s.updSp n fun y => { y with waiting := .none }).wakeSp n).goto n x.waitPc
  else s

/-- SYNC_TIMEOUT (R119). (DESIGN CHOICE: notes/assumptions/10.md.) -/
def execSyncTimeout (page : Sp) (s : State) : Res :=
  let x := s.sp page.val
  if x.waiting = .sync && s.spSt page.val == 3 then .next (s.fault page.val 0x0D 0 x.unackedN) else .next s

/-! ## Loops and branches -/

/-- The word is an ENDLOOP with PS 0. (DESIGN CHOICE: notes/assumptions/20.md.) -/
def isEndloop (w : Nat) : Bool := bits w 63 48 == 0x0401

/-- LOOP (R171, R173). It does not wait for an outstanding LDR into the counter it sets, which it does not name (R177). (DEDUCED:
notes/assumptions/48.md.) The word at ENDLOOP's place is read from the line held. (DESIGN CHOICE: notes/assumptions/20.md.) -/
def execLoop (h : Hdr) (imm : BitVec 24) (len : BitVec 16) (gs : BitVec 4) (cs : Bool) (s : State) : Res :=
  let n := h.sp.val
  let skip := fun (t : State) => t.goto n ((t.sp n).pc + 8 * (len.toNat + 1))
  let u : Use := { Use.none with names := if cs then [gs.toNat] else [] }
  .next (s.issue h (.loop h imm len gs cs) .ctl u skip fun t =>
    let x := t.sp n
    let at_ := (x.pc + 8 * len.toNat) % 2 ^ 48
    let v := x.gv gs.toNat
    if 4 ≤ x.depth then t.fault n 0x0C 0 0
    else if cs && v / 2 ^ 32 != 0 then t.fault n 0x81 0 0
    else
      match x.word at_ with
      | none => (t.wantLineAt n at_).holdFor n (.loop h imm len gs cs)
      | some w =>
        if !isEndloop w then t.fault n 0x80 0 0
        else
          let cnt := if cs then v % 2 ^ 32 else imm.toNat
          if cnt = 0 then t.goto n (at_ + 8)
          else
            let e : LoopEnt := { start := x.nextPc h, endAt := at_, n := cnt }
            (t.updSp n fun y => { y with loops := y.loops ++ [e], k := Store.put 0 y.k x.depth 0 }).goto n (x.nextPc h))

/-- ENDLOOP (R172). Like LOOP it does not wait for an outstanding LDR into its counter (R177). (DEDUCED: notes/assumptions/48.md.) -/
def execEndloop (h : Hdr) (s : State) : Res :=
  .next (s.issue1 h (.endloop h) .ctl Use.none fun t =>
    let n := h.sp.val
    let x := t.sp n
    match x.loops.getLast? with
    | none => t.fault n 0x80 0 0
    | some e =>
      if e.endAt ≠ x.pc then t.fault n 0x80 0 0
      else
        let d := x.depth - 1
        let v := (x.kv d + 1) % 2 ^ 32
        let t1 := t.updSp n fun y => { y with k := Store.put 0 y.k d (BitVec.ofNat 32 v) }
        if v < e.n then t1.goto n e.start
        else (t1.updSp n fun y => { y with loops := y.loops.dropLast }).goto n (x.pc + 8))

/-- The loops left on the stack after a taken branch to an address: the innermost ones whose range does not hold it go (R173). -/
def popLoops (target : Nat) : List LoopEnt → List LoopEnt
  | [] => []
  | e :: l =>
    let rest := popLoops target l
    if rest.isEmpty && !(decide (e.start ≤ target ∧ target ≤ e.endAt)) then [] else e :: rest

/-- s with a branch of spout n taken. -/
def State.branch (s : State) (n target : Nat) : State :=
  let a := target % 2 ^ 48
  (s.updSp n fun x => { x with loops := popLoops a x.loops }).goto n a

/-- BR (R174). -/
def execBr (h : Hdr) (off : BitVec 32) (s : State) : Res :=
  .next (s.issue1 h (.br h off) .ctl Use.none fun t =>
    t.branch h.sp.val (addrAdd (t.sp h.sp.val).pc (8 * sx 32 off.toNat)))

/-- BR.A (R174). -/
def execBrA (h : Hdr) (aa : BitVec 3) (s : State) : Res :=
  .next (s.issue1 h (.brA h aa) .ctl { Use.none with names := [16 + aa.toNat] } fun t =>
    let n := h.sp.val
    let a := (t.sp n).av aa.toNat
    if a % 8 ≠ 0 then t.fault n 0x06 a 0
    else if !t.isLocal a then t.fault n 0x85 a 0
    else t.branch n a)

/-- The condition of BR.C on two 64-bit values (R168). -/
def brCond (c a b : Nat) : Bool :=
  match c with
  | 0 => a == b
  | 1 => a != b
  | 2 => decide (sx 64 a < sx 64 b)
  | 3 => decide (sx 64 b ≤ sx 64 a)
  | 4 => decide (a < b)
  | 5 => decide (b ≤ a)
  | 6 => a &&& b != 0
  | _ => a &&& b == 0

/-- BR.C (R174). -/
def execBrC (h : Hdr) (f : BrcF) (s : State) : Res :=
  let u : Use := { Use.none with names := f.ga.toNat :: if f.immb then [] else [f.gb.toNat] }
  .next (s.issue1 h (.brC h f) .ctl u fun t =>
    let n := h.sp.val
    let x := t.sp n
    let b := if !f.immb then x.gv f.gb.toNat else if h.x then h.ext.toNat else wrapInt 64 (sx 12 f.imm.toNat)
    let r := brCond f.cond.toNat (x.gv f.ga.toNat) b
    let t1 := if f.pw then t.updSp n fun y => y.setP f.pd.toNat r else t
    if r && f.off != 0 then t1.branch n (addrAdd x.pc (8 * sx 16 f.off.toNat)) else t1.done h)

/-! ## WAIT and SIGNAL -/

/-- The condition of WAIT on two 64-bit values (R168). -/
def waitCond (c a b : Nat) : Bool :=
  match c with
  | 0 => a == b
  | 1 => a != b
  | 2 => decide (b ≤ a)
  | 3 => decide (a < b)
  | 4 => decide (sx 64 b ≤ sx 64 a)
  | 5 => decide (sx 64 a < sx 64 b)
  | 6 => a &&& b == b
  | _ => a &&& b != 0

/-- The condition of WAIT on the tide (R175): modulo 2^32 for the orders. -/
def tideCond (c tide b : Nat) : Bool :=
  let d := (tide + 2 ^ 32 - b % 2 ^ 32) % 2 ^ 32
  match c with
  | 2 | 4 => decide (d < 2 ^ 31)
  | 3 | 5 => decide (2 ^ 31 ≤ d)
  | k => waitCond k tide b

/-- What an evaluation of a WAIT of spout n finds at once: none for SRC 0, whose word is to be read (R175). -/
def State.lookWait (s : State) (n src cond b : Nat) : Option Bool :=
  match src with
  | 0 => none
  | 1 => some (s.chan n).seenReq
  | _ => some (tideCond cond (s.rd F.TIM_TIDE_TIDE 0) b)

/-- x with the read of its WAIT given up. -/
def Spout.dropPoll (x : Spout) : Spout := { x with outs := x.outs.filter fun o => o.need != .poll, waiting := .none }

/-- s with a WAIT that is satisfied: 1 to its predicate, and on (R175). -/
def State.waitMet (s : State) (n : Nat) (pd : Nat) (pw : Bool) (next : Nat) : State :=
  ((s.updSp n fun x => (if pw then x.setP pd true else x).dropPoll).setSpSt n 2).goto n next

/-- s with a WAIT whose timeout has passed: 0 to its predicate and on, or WAIT_TIMEOUT (R175). -/
def State.waitLate (s : State) (n : Nat) (pd : Nat) (pw : Bool) (next : Nat) : State :=
  if pw then ((s.updSp n fun x => (x.setP pd false).dropPoll).setSpSt n 2).goto n next
  else s.fault n 0x84 0 0

/-- s with the word of a WAIT of spout n read once more, unless a read of it is on its way or a bus-error stop holds the engine's reads. -/
def State.pollWait (s : State) (n addr : Nat) : State :=
  if ((s.sp n).outs.any fun o => o.need == .poll) || (decide (n < 32) && s.sluice.draining) then s else s.ask n .poll addr 8 .rd []

/-- s with the outcome of an evaluation of the WAIT that spout n is in: it goes on, or its one evaluation under a timeout of 0 is over (R175). -/
def State.waitSaw (s : State) (n : Nat) (yes : Bool) : State :=
  let x := s.sp n
  match (if s.spSt n = 3 then x.waiting else .none) with
  | .cond _ _ _ _ pd pw t =>
    if yes then s.waitMet n pd pw x.waitPc else if t = some 0 then s.waitLate n pd pw x.waitPc else s
  | _ => s

/-- s with the word of a WAIT returned to spout n. -/
def State.polled (s : State) (n : Nat) (d : Bytes) : State :=
  match (s.sp n).waiting with
  | .cond 0 _ cond b _ _ _ => s.waitSaw n (waitCond cond (leNat d) b)
  | _ => s

/-- WAIT (R175): its read is a request of the spout. -/
def execWait (h : Hdr) (f : WaitF) (s : State) : Res :=
  let n := h.sp.val
  let src := f.src.toNat
  let u : Use :=
    { Use.none with names := (if src = 0 then [16 + f.aa.toNat] else []) ++ (if src = 1 then [] else [f.gv.toNat]), reads := src == 0 }
  .next (s.issue1 h (.wait h f) .ctl u fun t =>
    let x := t.sp n
    let addr := addrAdd (x.av f.aa.toNat) (8 * sx 16 f.disp.toNat)
    let b := x.gv f.gv.toNat
    if 3 ≤ src ∨ (src = 1 ∧ spKind n ≠ 0) then t.fault n 0x82 0 0
    else if x.tx.isSome && src != 2 then t.txBars n 0x0C
    else if src = 0 ∧ addr % 8 ≠ 0 then t.fault n 0x06 addr 0
    else if src = 0 ∧ !t.isLocal addr then t.fault n 0x83 addr 0
    else
      let w := Waiting.cond src addr f.cond.toNat b f.pd.toNat f.pw (if h.x then some h.ext.toNat else none)
      let t1 := (t.updSp n fun y => { y with waiting := w, waitPc := x.nextPc h }).setSpSt n 3
      match t1.lookWait n src f.cond.toNat b with
      | some r => t1.waitSaw n r
      | none => t1.pollWait n addr)

/-- WAIT_EVALUATE (R175): the condition of a waiting WAIT once more. -/
def execWaitEvaluate (page : Sp) (s : State) : Res :=
  let n := page.val
  match (if s.spSt n = 3 then (s.sp n).waiting else .none) with
  | .cond src addr cond b _ _ _ =>
    match s.lookWait n src cond b with
    | some r => .next (s.waitSaw n r)
    | none => .next (s.pollWait n addr)
  | _ => .next s

/-- WAIT_TIMEOUT (R175): only a WAIT with an extension word has a timeout; a timeout of 0 is one evaluation, and ends with it. (DESIGN CHOICE: notes/assumptions/10.md.) -/
def execWaitTimeout (page : Sp) (s : State) : Res :=
  let n := page.val
  let x := s.sp n
  match (if s.spSt n = 3 then x.waiting else .none) with
  | .cond _ _ _ _ pd pw (some t) => .next (if t = 0 then s else s.waitLate n pd pw x.waitPc)
  | _ => .next s

/-- SIGNAL (R120, R176; 09_transactions.md R269): an indivisible update of a word after every earlier request, with its event and its prior value.
DISP is a two's-complement number, as R168 says of WAIT's. (DEDUCED: notes/assumptions/48.md.) -/
def execSignal (h : Hdr) (f : SignalF) (s : State) : Res :=
  let n := h.sp.val
  let u : Use :=
    { Use.none with names := [16 + f.aa.toNat, f.gv.toNat] ++ (if f.ret then [f.gr.toNat] else []), writes := true, reads := true, all := true }
  .next (s.issue1 h (.signal h f) .ctl u fun t =>
    let x := t.sp n
    let addr := addrAdd (x.av f.aa.toNat) (8 * sx 16 f.disp.toNat)
    let v := x.gv f.gv.toNat
    match t.addrFault n addr 8 with
    | some c => t.fault n c addr 0
    | none =>
      if x.tx.isSome && t.isRemote addr then t.txBars n 0x0D
      else if f.evt && x.tx.isNone && t.evFull then t.updSp n fun y => { y with waiting := .deps (.signal h f) }
      else
        let t1 := t.ask n (if f.ret then .prior f.gr.toNat else .store) addr 8 (.atom f.op.toNat 8) (toLE 8 v)
        let t2 := if !f.evt then t1
          else if x.tx.isSome then t1.updSp n fun y => { y with signals := y.signals ++ [(addr, v)] }
          else t1.spEvent n 0x82 addr v
        t2.done h)

/-! ## Register setup (R177) -/

/-- LDI. -/
def execLdi (h : Hdr) (rd : BitVec 5) (imm : BitVec 32) (s : State) : Res :=
  .next (s.issue1 h (.ldi h rd imm) .ctl { Use.none with sels := [rd.toNat] } fun t =>
    (t.updSp h.sp.val fun x => x.setSel rd.toNat (if h.x then h.ext.toNat else wrapInt 64 (sx 32 imm.toNat))).done h)

/-- MOVR. -/
def execMovr (h : Hdr) (rd rs : BitVec 5) (imm : BitVec 16) (s : State) : Res :=
  .next (s.issue1 h (.movr h rd rs imm) .ctl { Use.none with sels := [rd.toNat, rs.toNat] } fun t =>
    (t.updSp h.sp.val fun x => x.setSel rd.toNat (wrapInt 64 ((x.sel rs.toNat : Int) + sx 16 imm.toNat))).done h)

/-- s with a load or store of a spout on its way, after its address checks (R105 to R107, R164; 09_transactions.md R269). -/
def State.scalarMem (s : State) (h : Hdr) (need : Need) (addr size : Nat) (kind : ReqKind) (data : Bytes) : State :=
  let n := h.sp.val
  match s.addrFault n addr size with
  | some c => s.fault n c addr 0
  | none =>
    if (s.sp n).tx.isSome && s.isRemote addr then s.txBars n 0x0D
    else (s.ask n need addr size kind data).done h

/-- LDD. DISP is a two's-complement number, as R168 says of WAIT's. (DEDUCED: notes/assumptions/48.md.) -/
def execLdd (h : Hdr) (dd : BitVec 2) (aa : BitVec 3) (disp : BitVec 16) (s : State) : Res :=
  .next (s.issue1 h (.ldd h dd aa disp) .ctl { Use.none with names := [16 + aa.toNat, 32 + dd.toNat], reads := true } fun t =>
    t.scalarMem h (.desc dd.toNat) (addrAdd ((t.sp h.sp.val).av aa.toNat) (16 * sx 16 disp.toNat)) 16 .rd [])

/-- LDR. DISP is a two's-complement number, as R168 says of WAIT's. (DEDUCED: notes/assumptions/48.md.) -/
def execLdr (h : Hdr) (rd : BitVec 5) (aa : BitVec 3) (disp : BitVec 16) (s : State) : Res :=
  .next (s.issue1 h (.ldr h rd aa disp) .ctl { Use.none with sels := [rd.toNat], names := [16 + aa.toNat], reads := true } fun t =>
    t.scalarMem h (.load rd.toNat) (addrAdd ((t.sp h.sp.val).av aa.toNat) (8 * sx 16 disp.toNat)) 8 .rd [])

/-- STR. DISP is a two's-complement number, as R168 says of WAIT's. (DEDUCED: notes/assumptions/48.md.) -/
def execStr (h : Hdr) (rs : BitVec 5) (aa : BitVec 3) (disp : BitVec 16) (s : State) : Res :=
  .next (s.issue1 h (.str h rs aa disp) .ctl { Use.none with sels := [rs.toNat], names := [16 + aa.toNat], writes := true } fun t =>
    let x := t.sp h.sp.val
    t.scalarMem h .store (addrAdd (x.av aa.toNat) (8 * sx 16 disp.toNat)) 8 .wr (toLE 8 (x.sel rs.toNat)))

/-- PLOG. -/
def execPlog (h : Hdr) (pd pa pb : BitVec 3) (tt : BitVec 4) (s : State) : Res :=
  .next (s.issue1 h (.plog h pd pa pb tt) .ctl Use.none fun t =>
    (t.updSp h.sp.val fun x => x.setP pd.toNat (tt.toNat.testBit (2 * b2n (x.pv pa.toNat) + b2n (x.pv pb.toNat)))).done h)

/-! ## SEED and unassigned opcodes -/

/-- SEED (R146, R184; 09_transactions.md R269). -/
def execSeed (h : Hdr) (page : BitVec 8) (gs : BitVec 4) (s : State) : Res :=
  let n := h.sp.val
  .next (s.issue1 h (.seed h page gs) .prv { Use.none with names := [gs.toNat] } fun t =>
    let x := t.sp n
    if x.tx.isSome then t.txBars n 0x0C
    else if 161 ≤ page.toNat then t.done h
    else
      let v := x.gv gs.toNat
      (t.updSp page.toNat fun y => { y with gen := if v = 0 then Spout.init.gen else BitVec.ofNat 64 v }).done h)

/-- The class of an assigned major opcode (R167), and how many of its lowest minor opcodes are assigned (R168, R181 to R183). -/
def majorOf (maj min : Nat) : Option (Cls × Bool) :=
  match maj with
  | 0x00 => some (.ctl, decide (min < 4))
  | 0x01 => some (.ctl, decide (min < 2))
  | 0x02 => some (.ctl, decide (min < 3))
  | 0x03 => some (.ctl, decide (min < 2))
  | 0x04 => some (.ctl, decide (min < 6))
  | 0x08 => some (.mov, decide (min < 6))
  | 0x10 => some (.cvt, decide (min < 2))
  | 0x14 => some (.vec, decide (min < 14))
  | 0x15 => some (.vec, decide (min < 8))
  | 0x16 => some (.scalar, decide (min < 0x0E ∨ (0x10 ≤ min ∧ min < 0x17)))
  | 0x20 => some (.mat, decide (min < 3))
  | 0x28 => some (.hsh, decide (min < 9))
  | 0x30 => some (.txn, decide (min < 4))
  | 0x34 => some (.hnt, decide (min < 4))
  | 0x38 => some (.svc, decide (min < 2))
  | 0x3C => some (.prv, decide (min < 3))
  | _ => none

/-- ILLEGAL_OPCODE: a word whose major or minor opcode is not assigned, decoded in the order of R161; an assigned pair is no such word. (DESIGN CHOICE: notes/assumptions/20.md.) -/
def execIllegalOpcode (h : Hdr) (maj min : BitVec 6) (s00 : State) : Res :=
  let n := h.sp.val
  let s0 := s00.endData n
  match majorOf maj.toNat min.toNat with
  | some (_, true) => .next s00
  | k =>
    if !s0.issuable n ((s0.sp n).waiting == .word h maj min) then .next s0
    else
      let s := s0.updSp n fun y => { y with waiting := .none }
      if !(s.sp n).holds (s.sp n).pc then
        let t := s.wantLine n
        .next (if (t.sp n).finish.isSome then t else t.updSp n fun y => { y with waiting := .word h maj min })
      else
        match k with
        | some (c, _) =>
          if c = .prv && (s.sp n).cmd.priv != 2 then .next (s.fault n 0x05 0 0)
          else if !c.allowed (spKind n) then .next (s.fault n 0x02 0 0)
          else .next (s.fault n 0x01 0 0)
        | none => .next (s.fault n 0x01 0 0)

end Sys2Proof.Machine
end

