-- ==== Sys2Proof/Machine/Operand.lean ====
section
/-! DEFINITION. Sys2Proof/Machine/Operand.lean: the operands of form D (06_zynsa_encoding.md R162 to R166, R180), their elements in memory and in tiles
(05_number_formats.md R130; 07_jet_engines.md R187), the resources of a jet (R185, R186), and the running of a data instruction. -/
namespace Sys2Proof.Machine

/-! ## Operands -/

/-- An operand: in a tile or in memory, its base (a package address, or an offset in the tile stores), its tile's length, its descriptor's kind, format,
block-scale mode, shape, element bits, whether rows are packed, the strides in bytes and its scale base. -/
structure Opnd where
  tile   : Bool
  base   : Nat
  len    : Nat
  stride : Bool
  fmt    : Nat
  bsm    : Nat
  n0     : Nat
  n1     : Nat
  w      : Nat
  packed : Bool
  s0     : Int
  s1     : Int
  sbase  : Nat
deriving DecidableEq, Repr

/-- Element bits of an EW code (R165). -/
def ewBits (ew : Nat) : Nat := [8, 16, 32, 64, 128, 256, 512, 4].getD ew 8

/-- The operand that a specifier and a descriptor of spout x make (R162, R165). -/
def Spout.opnd (x : Spout) (sp : Nat) (spec : BitVec 4) (dd : BitVec 2) : Opnd :=
  let d := x.dv dd.toNat
  let t := spec.toNat % 8
  let tile := spec.getLsbD 3
  let base := if tile then jetOf sp * 2 ^ 20 + x.tileBase t else x.av t
  let len := x.tileSize t
  if d.testBit 127 then
    let ew := bits d 126 124
    { tile := tile, base := base, len := len, stride := true, fmt := 0, bsm := 0, n0 := bits d 123 100, n1 := bits d 99 76, w := ewBits ew,
      packed := ew == 7, s0 := sx 24 (bits d 75 52), s1 := sx 40 (bits d 51 12), sbase := 0 }
  else
    let f := bits d 126 123
    { tile := tile, base := base, len := len, stride := false, fmt := f, bsm := bits d 122 121, n0 := bits d 120 101, n1 := bits d 100 81,
      w := fmtBits f, packed := true, s0 := 0, s1 := sx 32 (bits d 80 49), sbase := d % 2 ^ 48 }

/-- o read with elements of w bits, whatever its descriptor says of them (08_sluice_channels.md R227; 07_jet_engines.md R201). -/
def Opnd.withWidth (o : Opnd) (w : Nat) : Opnd := { o with w := w, packed := !o.stride }

/-- Elements of an operand. -/
def Opnd.count (o : Opnd) : Nat := o.n0 * o.n1

/-- The bit offset from the base of element (i, j) (R165). -/
def Opnd.bit (o : Opnd) (i j : Nat) : Int := 8 * ((j : Int) * o.s1) + (if o.packed then ((i * o.w : Nat) : Int) else 8 * ((i : Int) * o.s0))

/-- The bit offset of element n in linear order. -/
def Opnd.lin (o : Opnd) (n : Nat) : Int := o.bit (n % o.n0) (n / o.n0)

/-- Bytes of a row of packed elements, or of one element otherwise. -/
def Opnd.rowBytes (o : Opnd) : Nat := ((if o.packed then o.n0 * o.w else o.w) + 7) / 8

/-- The bounding byte range from the base [lo, hi) of an operand with elements, negative strides included. (DEDUCED: notes/assumptions/23.md.) -/
def Opnd.bounds (o : Opnd) : Int × Int :=
  let span := fun (n : Nat) (st : Int) => (((n : Int) - 1) * st)
  let a := if o.packed then 0 else span o.n0 o.s0
  let b := span o.n1 o.s1
  (Min.min a 0 + Min.min b 0, Max.max a 0 + Max.max b 0 + o.rowBytes)

/-- The bounding range as absolute bytes: none for an operand without elements. -/
def Opnd.range (o : Opnd) : Option (Int × Int) :=
  if o.count = 0 then none else some ((o.base : Int) + o.bounds.1, (o.base : Int) + o.bounds.2)

/-- o with its base as the address of local memory that it names, where it names this package's own node (04_zynsa_model.md R105). -/
def Opnd.norm (s : State) (o : Opnd) : Opnd :=
  if o.tile then o
  else
    match s.decodeAddr o.base with
    | .localMem l => { o with base := s.me * 2 ^ 37 + l }
    | _ => o

/-- The bounding ranges of two operands meet, both in memory or both in tiles (R190, 08_sluice_channels.md R233). (DEDUCED: notes/assumptions/23.md.) -/
def Opnd.meets (a b : Opnd) : Bool :=
  a.tile == b.tile && (match a.range, b.range with
    | some r, some q => decide (r.1 < q.2 ∧ q.1 < r.2)
    | _, _ => false)

/-- TILE_BOUNDS (07_jet_engines.md R187). -/
def Opnd.outOfTile (o : Opnd) : Bool := o.tile && o.count != 0 && decide (o.bounds.1 < 0 ∨ (o.len : Int) < o.bounds.2)

/-- The operand breaks the packing of four-bit and six-bit elements (05_number_formats.md R130; 08_sluice_channels.md R223). -/
def Opnd.misPacked (o : Opnd) : Bool := (o.w == 4 && o.n0 % 2 != 0) || (o.w == 6 && o.n0 % 4 != 0)

/-- Some element of a memory operand is misaligned: its base, or a stride between elements (R164); a partial record of 4,608 bits is aligned to 64 B. -/
def Opnd.misaligned (o : Opnd) : Bool :=
  let b := if o.w = 4608 then 64 else o.w / 8
  decide (8 ≤ o.w) && (o.base % b != 0 || (!o.packed && decide (1 < o.n0) && o.s0 % b != 0) || (decide (1 < o.n1) && o.s1 % b != 0))

/-- The address fault of an operand's base (R105 to R107, R164), with or without elements (R563). -/
def State.opndFault (s : State) (sp : Nat) (o : Opnd) : Option (Nat × Nat) :=
  if o.tile then none
  else if o.misaligned then some (0x06, o.base)
  else (s.addrFault sp o.base 1).map fun c => (c, o.base)

/-- The first address fault of a list of operands. (DEDUCED: notes/assumptions/22.md.) -/
def State.opndsFault (s : State) (sp : Nat) (l : List Opnd) : Option (Nat × Nat) := l.findSome? fun o => s.opndFault sp o

/-- The operand is contiguous (08_sluice_channels.md R222). -/
def Opnd.contiguous (o : Opnd) : Bool :=
  let row : Int := ((o.n0 * o.w + 7) / 8 : Nat)
  (o.packed || o.s0 * 8 == o.w) && (decide (o.n1 ≤ 1) || o.s1 == row)

/-! ## Elements -/

/-- The parts of w bits from bit address A in granules: granule, bit offset, width, and place in the value. -/
def pieces (A w : Nat) : List (Nat × Nat × Nat × Nat) :=
  let n := min w (512 - A % 512)
  (A / 512, A % 512, n, 0) :: (if n < w then [(A / 512 + 1, 0, w - n, n)] else [])

/-- The key in a context's cache of a staged granule of the tile stores. -/
def tileKey (g : Nat) : Nat := 2 ^ 60 + g

/-- n bytes of the tile stores. (DESIGN CHOICE: notes/assumptions/4.md.) -/
def State.tileBytes (s : State) (a n : Nat) : Bytes := (List.range n).map fun k => Store.get 0 s.tiles (a + k)

/-- s with bytes of the tile stores written. -/
def State.putTile (s : State) (a : Nat) (d : Bytes) : State :=
  { s with tiles := (List.range d.length).foldl (fun m k => Store.put 0 m (a + k) (d.getD k 0#8)) s.tiles }

/-- w bits at bit address A of the tile stores, from the staged copy where there is one. -/
def Bk.tileBits (b : Bk) (A w : Nat) : Nat :=
  (pieces A w).foldl (fun v (p : Nat × Nat × Nat × Nat) =>
    match b.staged.find? fun e => e.1 = tileKey p.1 with
    | some (_, some d) => v + bits (leNat d) (p.2.1 + p.2.2.1 - 1) p.2.1 * 2 ^ p.2.2.2
    | _ =>
      let lo := p.1 * 64 + p.2.1 / 8
      let n := (p.2.1 % 8 + p.2.2.1 + 7) / 8
      v + bits (leNat (b.s.tileBytes lo n)) (p.2.1 % 8 + p.2.2.1 - 1) (p.2.1 % 8) * 2 ^ p.2.2.2) 0

/-- w bits at bit address A of package memory: none where poisoned, a fault then where `pf`. -/
def Bk.memBits (b : Bk) (A w : Nat) (pf : Bool) : Bk × Option Nat :=
  (pieces (A % 2 ^ 51) w).foldl (fun (r : Bk × Option Nat) (p : Nat × Nat × Nat × Nat) =>
    match r.1.src p.1 pf with
    | (b1, some d) => (b1, r.2.map (· + bits (leNat d) (p.2.1 + p.2.2.1 - 1) p.2.1 * 2 ^ p.2.2.2))
    | (b1, none) => (b1, none)) (b, some 0)

/-- The bit address of bit offset x of an operand. -/
def Opnd.at (o : Opnd) (x : Int) : Nat := if o.tile then (8 * (o.base : Int) + x).toNat else wrapInt 51 (8 * (o.base : Int) + x)

/-- w bits at bit offset x of an operand. -/
def Bk.read (b : Bk) (o : Opnd) (x : Int) (w : Nat) (pf : Bool) : Bk × Option Nat :=
  if o.tile then (b, some (b.tileBits (o.at x) w)) else b.memBits (o.at x) w pf

/-- b with w bits of v at bit offset x of an operand. -/
def Bk.write (b : Bk) (o : Opnd) (x : Int) (w v : Nat) : Bk :=
  if !b.good then b
  else if o.tile then
    let A := o.at x
    let lo := A / 8
    let n := (A % 8 + w + 7) / 8
    let old := leNat (b.s.tileBytes lo n)
    { b with s := b.s.putTile lo (toLE n (setBits old (A % 8 + w - 1) (A % 8) v)) }
  else (pieces (o.at x) w).foldl (fun c (p : Nat × Nat × Nat × Nat) => c.putBits p.1 p.2.1 p.2.2.1 (v / 2 ^ p.2.2.2)) b

/-- b with the destination bits at offset x poisoned (04_zynsa_model.md R124): the granules marked, or MEM_POISON of source address a for a tile. -/
def Bk.spoil (b : Bk) (o : Opnd) (x : Int) (w a : Nat) : Bk :=
  if !b.good then b
  else if o.tile then b.halt 0x09 a
  else (pieces (o.at x) w).foldl (fun c (p : Nat × Nat × Nat × Nat) => c.poison p.1) b

/-- n bytes at byte offset x of an operand, read past the cache of sources (an operand that the instruction itself updates). -/
def Bk.bytesAt (b : Bk) (o : Opnd) (x : Int) (n : Nat) : Bk × Bytes :=
  if o.tile then (b, b.s.tileBytes (o.at (8 * x) / 8) n)
  else
    match b.run (o.at (8 * x) / 8) n true with
    | (b1, some d) => (b1, d)
    | (b1, none) => (b1, bytesOf n 0#8)

/-- b with bytes written at byte offset x of an operand. -/
def Bk.putBytes (b : Bk) (o : Opnd) (x : Int) (d : Bytes) : Bk := b.write o (8 * x) (8 * d.length) (leNat d)

/-- The granules of the bounding range of an operand, which a staged copy holds (08_sluice_channels.md R233). -/
def Opnd.spanned (o : Opnd) : List Nat :=
  match o.range with
  | none => []
  | some (lo, hi) => if o.tile then gransOf lo.toNat (hi - lo).toNat else gransOf (wrapInt 48 lo) (hi - lo).toNat

/-! ## The resources of a jet (R185, R186) -/

/-- The unit numbers: MAC array, vector unit, hash unit, exact accumulator, move unit. -/
def uMAC : Nat := 0
def uVEC : Nat := 1
def uHSH : Nat := 2
def uEXA : Nat := 3
def uMOV : Nat := 4

/-- Every unit of a list is free for a spout, or its own. -/
def JetState.freeFor (j : JetState) (sp : Nat) (units : List Nat) : Bool :=
  units.all fun u => [none, some sp].contains (Store.get none j.holder u)

/-- s with an instruction of a jet's spout waiting for units, in issue order. -/
def State.queueFor (s : State) (sp : Nat) (units : List Nat) (i : Instr) : State :=
  (s.updJet (jetOf sp) fun j => { j with waiting := units.foldl (fun w u => Store.put [] w u (Store.get [] w u ++ [(sp, i)])) j.waiting }).updSp sp
    fun x => { x with waiting := .grant i }

/-- s with an instruction holding its units, or none where it must wait: a unit is held, or an earlier instruction waits for it. -/
def State.acquire (s : State) (sp : Nat) (units : List Nat) : Option State :=
  if spKind sp ≠ 1 then some s
  else
    let j := s.jet (jetOf sp)
    let mine := units.all fun u => Store.get none j.holder u == some sp
    if mine then some s
    else if j.freeFor sp units && units.all fun u => (Store.get [] j.waiting u).isEmpty then
      some (s.updJet (jetOf sp) fun j => { j with holder := units.foldl (fun h u => Store.put none h u (some sp)) j.holder })
    else none

/-! ## Running an instruction -/

/-- A data instruction of spout sp as it starts: no element done. -/
def State.begin (s : State) (h : Hdr) (i : Instr) : InProg :=
  let x := s.sp h.sp.val
  { insn := i, pc := x.pc, next := x.nextPc h, elems := 0, ub := 0, total := 0, limit := 0, half := false, full := false, wbuf := none, wstart := 0,
    marked := [], staged := [], stagedAll := false, fetched := [], upds := [], found := false, closed := none, results := [], gen := x.gen.toNat,
    flags := 0 }

/-- The context of a spout's data instruction in progress. -/
def State.bk (s : State) (sp : Nat) (p : InProg) : Bk :=
  { s := s, sp := sp, staged := p.staged, fetched := p.fetched, used := [], upds := p.upds, nupd := 0, missing := [], want := none, wbuf := p.wbuf,
    wstart := p.wstart, draw := { g := p.gen, i := 0 }, flags := 0, stop := none, elems := p.elems, marked := p.marked, found := p.found }

/-- A package granule that an instruction waits for, as an outstanding read. -/
def State.askGran (s : State) (sp pg : Nat) : State := s.ask sp (.bulk pg) (64 * pg) 64 .rd []

/-- s with spout sp's data instruction `p` stopped by a fault once its writes have landed (04_zynsa_model.md R123), or its transaction aborted by remote
memory (09_transactions.md R269). -/
def State.stopData (s : State) (sp : Nat) (p : InProg) (stop : Option (Nat × Nat)) : State :=
  match stop with
  | some (0x10D, _) => (((s.updSp sp fun y => { y with prog := none }).releaseUnits sp).txBars sp 0x0D)
  | _ => (s.updSp sp fun y => { y with prog := some { p with closed := some stop } }).landedAt sp

/-- What an arithmetic instruction does with its registers read: its work, the register results it leaves (by name), and the multiply-accumulates
that the MAC array performs (07_jet_engines.md JET_MACCNT). -/
structure Work where
  units : List Nat
  run   : Bk → Bk
  fin   : Bk → List (Nat × Nat)
  macs  : Nat

/-- s with n multiply-accumulates of a jet counted. -/
def State.countMacs (s : State) (e n : Nat) : State :=
  if n = 0 then s
  else
    let m := (s.jet e).macRem + n
    (s.updJet e fun j => { j with macRem := m % 1024 }).bump F.JET_MACCNT_MACK e (m / 1024)

/-- s with an arithmetic instruction in progress gone on with (R195, R197): once every read it issued has returned, it computes with what it has; what it
lacks it asks for, at most 1,024 granules or one indivisible access at a time, and its writes issue when it lacks nothing. (DESIGN CHOICE:
notes/assumptions/50.md.) -/
def State.contWork (s : State) (sp : Nat) (w : Work) : State :=
  let x := s.sp sp
  match x.prog with
  | none => s
  | some p =>
    if p.closed.isSome then s.endData sp
    else if x.outs.any Out.isBulk then s
    else
      let b := (w.run (s.bk sp p)).close
      if !b.missing.isEmpty then foldS (b.missing.take 1024) s fun t pg => t.askGran sp pg
      else
        match b.want with
        | some (kind, a, size) => s.ask sp (.upd b.nupd) a size kind []
        | none =>
          let q := { p with elems := b.elems, wbuf := none, fetched := [], upds := [], results := w.fin b, gen := b.draw.g, flags := b.flags }
          (b.s.countMacs (jetOf sp) (if b.stop.isNone then w.macs else 0)).stopData sp q b.stop

/-- s with an arithmetic instruction started (R186): it takes its units, or waits for them. -/
def State.startWork (s : State) (h : Hdr) (i : Instr) (w : Work) : State :=
  let sp := h.sp.val
  match s.acquire sp w.units with
  | none => s.queueFor sp w.units i
  | some s1 => (s1.updSp sp fun y => { y with prog := some (s1.begin h i) }).contWork sp w

/-- s with a data instruction decoded and begun by `start`, or gone on with by `more` where it is the one in progress. -/
def State.dataExec (s : State) (h : Hdr) (i : Instr) (c : Cls) (u : Use) (start more : State → State) : State :=
  match (s.sp h.sp.val).prog with
  | some p => if p.insn = i && s.spSt h.sp.val == 2 then more s else s.issue1 h i c u start
  | none => s.issue1 h i c u start

end Sys2Proof.Machine
end

