-- ==== Sys2Proof/Machine/HintCmd.lean ====
section
/-! DEFINITION. Sys2Proof/Machine/HintCmd.lean: the hint instructions (11_intake_and_basin.md R325 to R334). They act inside a transaction as outside
it, but for `DEAD` (09_transactions.md R269). -/
namespace Sys2Proof.Machine

/-- The chunks that a range of n > 0 bytes from local address l touches: the first and how many. -/
def chunkSpan (l n : Nat) : Nat × Nat := (l / 256, (l + n - 1) / 256 + 1 - l / 256)

/-- The first fault of R334 for a range [l, l + n): `dead` for DEAD; 0 for none. (DESIGN CHOICE: notes/assumptions/15.md.) -/
def State.hintFault (s : State) (sp l n : Nat) (dead : Bool) : Nat :=
  firstCode [(decide (2 ^ 37 < l + n) || (n != 0 && decide (s.cap < l + n)), 0x70),
    (n != 0 && dead && s.map.touchesPriv l n, 0x72),
    (n != 0 && !dead && (s.sp sp).cmd.priv == 0 && s.map.touchesPriv l n, 0x73)]

/-- s with a hint of a spout carried out on its range after the checks of R334: `body` takes the local address and the length. -/
def State.hint (s : State) (sp aa gl : Nat) (dead : Bool) (body : State → Nat → Nat → State) : State :=
  let x := s.sp sp
  let a := x.av aa
  let n := x.gv gl
  match s.addrFault sp a 1 with
  | some c => s.fault sp c a 0
  | none =>
    match s.decodeAddr a with
    | .localMem l =>
      match s.hintFault sp l n dead with
      | 0 => body s l n
      | c => s.fault sp c a 0
    | _ => s.fault sp 0x71 a 0

/-! ## DEAD -/

/-- s with blocks [lo, hi) cleared at a dead point (R330, R332): valid bits, lines, owed fills, and an entry of the dead-range table. (DESIGN CHOICE: notes/assumptions/15.md.) -/
def State.deadPoint (s : State) (lo hi : Nat) : State :=
  let b := s.basin
  let inside := fun (c : Nat) => decide (lo ≤ c / 16 ∧ c / 16 < hi)
  let tab := b.dead ++ [(lo, hi - lo)]
  let full := decide (4096 ≤ tab.length)
  let s1 : State :=
    { s with basin := { b with valid := Ranges.del b.valid lo hi, lines := b.lines.filter (fun l => !inside l.chunk),
                               buffer := b.buffer.filter (fun l => !inside l.chunk),
                               fills := b.fills.filter (fun f => !decide (lo ≤ f.block ∧ f.block < hi)),
                               dead := if 4096 < tab.length then tab.drop 1 else tab, deadWas := full } }
  if full && !b.deadWas then s1.emit Ev.DEADTAB_FULL Un.inst 0 0 else s1

/-- DEAD (R330). (DESIGN CHOICE: notes/assumptions/15.md.) -/
def execDead (h : Hdr) (aa : BitVec 3) (gl : BitVec 4) (s : State) : Res :=
  let n := h.sp.val
  .next (s.issue1 h (.dead h aa gl) .hnt { Use.none with names := [16 + aa.toNat, gl.toNat], all := true } fun t =>
    if (t.sp n).tx.isSome then t.txBars n 0x0C
    else t.hint n aa.toNat gl.toNat true fun u l len =>
      let lo := (l + 4095) / 4096
      let hi := (l + len) / 4096
      if hi ≤ lo then u.done h
      else
        match u.conflict true none ((List.range (64 * (hi - lo))).map (64 * lo + ·)) with
        | (.hold, _) => u.holdFor n (.dead h aa gl)
        | (_, u1) => (u1.deadPoint lo hi).done h)

/-! ## PIN and UNPIN -/

/-- Lines of chunks [c0, c0 + k) that are pinned. -/
def Basin.pinnedOf (b : Basin) (c0 k : Nat) : Nat := pinnedIn (b.lines.filter fun l => decide (c0 ≤ l.chunk ∧ l.chunk < c0 + k))

/-- Some set would hold more than 12 pinned ways with chunks [c0, c0 + k) pinned (R326). -/
def Basin.setsFull (b : Basin) (c0 k : Nat) : Bool :=
  let cs := (List.range k).map (c0 + ·)
  let old : List Nat := (b.lines.filter fun l => l.pinned.isSome && !decide (c0 ≤ l.chunk ∧ l.chunk < c0 + k)).map (·.chunk)
  cs.any fun (c : Nat) => decide (12 < ((cs ++ old).filter fun (d : Nat) => setOf d == setOf c).length)

/-- The status of a PIN of [l, l + n) (R326), in check order. -/
def State.pinStatus (s : State) (label l n : Nat) : Nat :=
  let (c0, k) := chunkSpan l n
  if n = 0 then 4
  else if s.flag F.BAS_STAT_REFUSING 0 then 1
  else if s.bGated && ((List.range k).any fun i => decide (1024 ≤ setOf (c0 + i))) then 5
  else if !s.flag F.ITK_CLS_PIN (classOf label) then 6
  else if s.rd F.BAS_CFG_PINCAP 0 * s.presentLines / 100 < s.pinned + (k - s.basin.pinnedOf c0 k) then 2
  else if s.basin.setsFull c0 k then 3
  else 0

/-- b with the line of chunk c allocated and pinned for a class; one already pinned stays with its class (R325). -/
def Basin.pin (b : Basin) (c cls : Nat) : Basin :=
  let b1 := b.allocate c
  { b1 with lines := b1.lines.map fun l => if l.chunk = c && l.pinned.isNone then { l with pinned := some cls } else l }

/-- The status word of PIN and UNPIN. -/
def pinWord (status count : Nat) : Nat := status * 2 ^ 56 + count

/-- The request is a read of a PIN that has not returned. -/
def Out.pinning (o : Out) : Bool := (match o.need with | .pin _ => true | _ => false) && o.resp.isNone

/-- PIN (R325, R326): the lines are pinned at once, the chunks with a granule that is not resident are read by the spout's own path, and it waits for
them; any other status is written at once. (DESIGN CHOICE: notes/assumptions/15.md.) -/
def execPin (h : Hdr) (aa : BitVec 3) (gl : BitVec 4) (s : State) : Res :=
  let n := h.sp.val
  .next (s.issue1 h (.pin h aa gl) .hnt { Use.none with names := [16 + aa.toNat, gl.toNat], reads := true } fun t =>
    t.hint n aa.toNat gl.toNat false fun u l len =>
      let label := (u.sp n).cmd.label
      match u.pinStatus label l len with
      | 0 =>
        let (c0, k) := chunkSpan l len
        let count := k - u.basin.pinnedOf c0 k
        let u1 : State := { u with basin := (List.range k).foldl (fun b i => b.pin (c0 + i) (classOf label)) u.basin }
        let missing := (List.range k).filter fun i => (u1.basin.line (c0 + i)).any fun l => l.valid != 15
        let u2 := foldS missing u1 fun v i => v.ask n (.pin (c0 + i)) (v.me * 2 ^ 37 + 256 * (c0 + i)) 256 .rd []
        (u2.updSp n fun y => { y with waiting := .pinFill gl.toNat count c0 k, waitPc := y.nextPc h }).setSpSt n 3
      | st => (u.updSp n fun y => y.setG gl.toNat (pinWord st 0)).done h)

/-- PIN_FILL_DONE (R325): every read of the range has returned, and the status word is written. (DESIGN CHOICE: notes/assumptions/15.md.) -/
def execPinFillDone (page : Sp) (s : State) : Res :=
  let n := page.val
  match (if s.spSt n = 3 then (s.sp n).waiting else .none) with
  | .pinFill gl count _ _ =>
    if (s.sp n).outs.any Out.pinning then .next s
    else .next (((s.updSp n fun y => { y.setG gl (pinWord 0 count) with waiting := .none }).setSpSt n 2).goto n (s.sp n).waitPc)
  | _ => .next s

/-- UNPIN (R328). (DESIGN CHOICE: notes/assumptions/15.md.) -/
def execUnpin (h : Hdr) (aa : BitVec 3) (gl : BitVec 4) (s : State) : Res :=
  let n := h.sp.val
  .next (s.issue1 h (.unpin h aa gl) .hnt { Use.none with names := [16 + aa.toNat, gl.toNat] } fun t =>
    t.hint n aa.toNat gl.toNat false fun u l len =>
      let (c0, k) := if len = 0 then (0, 0) else chunkSpan l len
      let count := u.basin.pinnedOf c0 k
      let free := fun (x : Line) => if c0 ≤ x.chunk ∧ x.chunk < c0 + k then { x with pinned := none } else x
      let u1 : State := { u with basin := { u.basin with lines := u.basin.lines.map free } }
      (u1.updSp n fun y => y.setG gl.toNat (pinWord 0 count)).done h)

/-! ## PREFETCH -/

/-- PREFETCH (R329): one read of each chunk of the range, offered under the spout's label. (DESIGN CHOICE: notes/assumptions/15.md.) -/
def execPrefetch (h : Hdr) (aa : BitVec 3) (gl : BitVec 4) (dst : Bool) (s : State) : Res :=
  let n := h.sp.val
  .next (s.issue1 h (.prefetch h aa gl dst) .hnt { Use.none with names := [16 + aa.toNat, gl.toNat], reads := true } fun t =>
    t.hint n aa.toNat gl.toNat false fun u l len =>
      let (c0, k) := if len = 0 then (0, 0) else chunkSpan l len
      let x := u.sp n
      (foldS (List.range k) u fun v i =>
        v.offer (8 + n)
          { origin := .prefetch n dst, kind := .rd, addr := 256 * (c0 + i), size := 256, mask := 0, data := [], label := x.cmd.label,
            reqNo := v.spReq n, priv := x.cmd.priv != 0, tx := none }).done h)

end Sys2Proof.Machine
end

