-- ==== Sys2Proof/Machine/Move.lean ====
section
/-! DEFINITION. Sys2Proof/Machine/Move.lean: the MOV class (08_sluice_channels.md R220 to R237, R241 to R243, R249, R563): `MOVE`, `GATHER`, `SCATTER`,
`FILL`, `CMP`, `PACK`, their staging, bursts and events. -/
namespace Sys2Proof.Machine

/-- A MOV-class instruction with its registers read: the fault found before issue with its address, the elements in element order, the bits of one as
progress counts them, the operands to stage, every memory operand, whether each element's update waits for the one before (08_sluice_channels.md R235),
and what one element does. -/
structure Mov where
  fault : Option (Nat × Nat)
  count : Nat
  ub    : Nat
  stage : List Opnd
  mems  : List Opnd
  serial : Bool
  step  : Bk → Nat → Bk

/-- The fault of the formats of a list of operands, in its order (R221): reserved, or e8m0. (DEDUCED: notes/assumptions/22.md.) -/
def fmtFault (l : List Opnd) : Nat :=
  match l.find? fun o => !o.stride && decide (14 ≤ o.fmt) with
  | some o => if o.fmt = 15 then 0x40 else 0x41
  | none => 0

/-- The checks of R563 steps 2, 3 and 6 to 8 around the instruction's own of steps 4 and 5: the formats of `fmts`, all the operands in order D, A, B,
and the destination with the sources it may overlap. (DEDUCED: notes/assumptions/22.md.) -/
def State.movChecks (s : State) (sp : Nat) (first : Bool) (fmts all : List Opnd) (shape scat : Bool) (staged : List Opnd) : Option (Nat × Nat) :=
  match firstCode [(first, 0x22), (fmtFault fmts != 0, fmtFault fmts), (fmts.any Opnd.misPacked, 0x42), (shape, 0x21), (scat, 0x24), (all.any Opnd.outOfTile, 0x4F)] with
  | 0 =>
    match s.opndsFault sp all with
    | some f => some f
    | none =>
      let n := staged.foldl (fun a o => match o.range with | some r => a + (r.2 - r.1).toNat | none => a) 0
      if 2 ^ 20 < n then some (0x20, 0) else none
  | c => some (c, 0)

/-- An operand with elements in memory. -/
def Opnd.isMem (o : Opnd) : Bool := !o.tile && o.count != 0

/-- Bits [k, k + n) of the stream of an operand's elements in linear order (R224): none where any are poisoned. -/
def Bk.stream (b : Bk) (o : Opnd) (k n : Nat) : Bk × Option Nat × Nat :=
  let e := k / o.w
  let m := (k + n + o.w - 1) / o.w - e
  (List.range m).foldl (fun (r : Bk × Option Nat × Nat) q =>
    let lo := max k ((e + q) * o.w)
    let hi := min (k + n) ((e + q + 1) * o.w)
    let x := o.lin (e + q) + ((lo - (e + q) * o.w : Nat) : Int)
    match r.1.read o x (hi - lo) false with
    | (b1, some v) => (b1, r.2.1.map (· + v * 2 ^ (lo - k)), r.2.2)
    | (b1, none) => (b1, none, if r.2.1.isSome then o.at x / 8 else r.2.2)) (b, some 0, 0)

/-- b with one destination element written, or poisoned from a source address; one more element complete. -/
def Bk.place (b : Bk) (d : Opnd) (x : Int) (v : Option Nat) (src : Nat) : Bk :=
  let b1 := match v with
    | some u => b.write d x d.w u
    | none => b.spoil d x d.w src
  if b1.good then { b1 with elems := b1.elems + 1 } else b1

/-- `MOVE` (R224, R232, R233). -/
def State.movMove (s : State) (sp : Nat) (f : FormD) : Mov :=
  let x := s.sp sp
  let d := x.opnd sp f.od f.dd
  let a := x.opnd sp f.oa f.da
  let safe := d.contiguous && a.contiguous
  let meet := (d.norm s).meets (a.norm s)
  let down := safe && meet && decide ((a.norm s).base < (d.norm s).base)
  let stage := if !safe && meet then [a] else []
  { fault := s.movChecks sp false [d, a] [d, a] (d.count * d.w != a.count * a.w) false stage, count := d.count, ub := d.w, stage := stage,
    mems := [d, a], serial := false,
    step := fun b n =>
      let m := if down then d.count - 1 - n else n
      match b.stream a (m * d.w) d.w with
      | (b1, v, src) => b1.place d (d.lin m) v src }

/-- `PACK` (R225). -/
def State.movPack (s : State) (sp : Nat) (f : FormD) : Mov :=
  let x := s.sp sp
  let d := x.opnd sp f.od f.dd
  let a := x.opnd sp f.oa f.da
  let stage := if (d.norm s).meets (a.norm s) then [a] else []
  { fault := s.movChecks sp false [d, a] [d, a] (d.count != a.count) false stage, count := d.count, ub := d.w, stage := stage, mems := [d, a],
    serial := false,
    step := fun b n =>
      match b.read a (a.lin n) (min a.w d.w) false with
      | (b1, v) => b1.place d (d.lin n) v (a.at (a.lin n) / 8) }

/-- `FILL` (R230). -/
def State.movFill (s : State) (sp : Nat) (f : FormD) : Mov :=
  let x := s.sp sp
  let d := x.opnd sp f.od f.dd
  let g := x.gv f.gx.toNat
  let v := if d.w ≤ 64 then g % 2 ^ d.w else (List.range (d.w / 64)).foldl (fun u k => u + g * 2 ^ (64 * k)) 0
  { fault := s.movChecks sp false [d] [d] false false [], count := d.count, ub := d.w, stage := [], mems := [d], serial := false,
    step := fun b n => b.place d (d.lin n) (some v) 0 }

/-- `CMP` (R231): it stops counting at the first difference. -/
def State.movCmp (s : State) (sp : Nat) (f : FormD) : Mov :=
  let x := s.sp sp
  let a := x.opnd sp f.oa f.da
  let c := x.opnd sp f.ob f.db
  { fault := s.movChecks sp false [a, c] [a, c] (a.w != c.w || a.count != c.count) false [], count := a.count, ub := a.w, stage := [], mems := [a, c],
    serial := false,
    step := fun b n =>
      if b.found || b.stop.isSome then b
      else
        match b.read a (a.lin n) a.w true with
        | (b1, u) =>
          match b1.read c (c.lin n) c.w true with
          | (b2, v) => if !b2.good then b2 else if u = v then { b2 with elems := b2.elems + 1 } else { b2 with found := true } }

/-- The fields of an index-table format (R226): bytes of an index, UNIT, ROW, SENT. -/
def idxBytes (f : Nat) : Nat := [2, 4, 8].getD (bits f 5 4) 2
def idxBad (f : Nat) : Bool := bits f 5 4 == 3 || bits f 1 0 == 3

/-- The bit offsets that index x names in an operand, or the fault it raises (R227). -/
def locate (o : Opnd) (f : Nat) (x : Int) : Except Nat (List Int) :=
  let row := f.testBit 2
  if f.testBit 3 then
    let (lo, hi) := o.bounds
    let offs := (List.range (if row then o.n0 else 1)).map fun i => 8 * x + o.bit i 0
    if o.count = 0 ∨ offs.any (fun q => decide (q / 8 < lo ∨ hi < (q + o.w + 7) / 8)) then .error 0x23
    else if 8 ≤ o.w ∧ ((o.base : Int) + x) % (o.w / 8 : Nat) ≠ 0 then .error 0x06
    else .ok offs
  else if o.count = 0 ∨ x < 0 ∨ ((if row then o.n1 else o.count : Nat) : Int) ≤ x then .error 0x23
  else if row then .ok ((List.range o.n0).map fun i => o.bit i x.toNat)
  else .ok [o.lin x.toNat]

/-- What an index of a table comes to: skipped as a sentinel, the places it names, or stopped. -/
inductive Named where
  | skip
  | at (l : List Int)
  | stuck
deriving DecidableEq, Repr

/-- Index k of a table and what it names in operand o. -/
def Bk.index (b : Bk) (t o : Opnd) (f k : Nat) : Bk × Named :=
  match b.read t (t.lin k) t.w true with
  | (b1, some v) =>
    if !b1.good then (b1, .stuck)
    else if bits f 1 0 ≠ 0 ∧ v = 2 ^ t.w - 1 then (b1, .skip)
    else
      let x : Int := if t.w = 16 then v else sx t.w v
      match locate o f x with
      | .ok l => (b1, .at l)
      | .error c => (b1.halt c (if c = 0x06 then wrapInt 48 ((o.base : Int) + x) else 0), .stuck)
  | (b1, none) => (b1, .stuck)

/-- `GATHER` (R226 to R228). -/
def State.movGather (s : State) (sp : Nat) (f : FormD) : Mov :=
  let x := s.sp sp
  let q := f.imm.toNat / 4
  let d := x.opnd sp f.od f.dd
  let a := x.opnd sp f.oa f.da
  let t := (x.opnd sp f.ob f.db).withWidth (8 * idxBytes q)
  let per := if q.testBit 2 then a.n0 else 1
  let stage := [a, t].filter fun o => (d.norm s).meets (o.norm s)
  { fault := s.movChecks sp (f.imm.toNat % 4 != 0 || idxBad q) [d, a] [d, a, t] (d.w != a.w || d.count != t.count * per) false stage,
    count := d.count, ub := d.w, stage := stage, mems := [d, a, t], serial := false,
    step := fun b n =>
      if b.stop.isSome then b
      else
        match b.index t a q (n / per) with
        | (b1, .skip) => if bits q 1 0 = 1 then b1.place d (d.lin n) (some 0) 0 else { b1 with elems := b1.elems + 1 }
        | (b1, .at l) =>
          let p := l.getD (n % per) 0
          match b1.read a p a.w false with
          | (b2, v) => b2.place d (d.lin n) v (a.at p / 8)
        | (b1, .stuck) => b1 }

/-- The update of an accumulate mode (R229) on elements of w bits. -/
def accumulate (mode w old v : Nat) : Nat :=
  match mode with
  | 1 => (old + v) % 2 ^ w
  | 2 => if sx w v < sx w old then v else old
  | _ => if sx w old < sx w v then v else old

/-- b with one accumulate update of an element of w bytes at bit offset p of an operand. -/
def Bk.accum (b : Bk) (d : Opnd) (p : Int) (mode v : Nat) : Bk :=
  if !b.good then b
  else if d.tile then
    let A := d.at p
    let c := b.write d p d.w (accumulate mode d.w (b.tileBits A d.w) v)
    { c with elems := c.elems + 1 }
  else
    let c := b.atom (d.at p / 8) (d.w / 8) (mode + 3) v
    if c.good then { c with elems := c.elems + 1 } else c

/-- An operand that the accumulate modes accept (R229). -/
def Opnd.accumulates (o : Opnd) : Bool := if o.stride then [8, 16, 32, 64].contains o.w else [10, 11, 12].contains o.fmt

/-- b after a look at every index of a table for rows without elements (R236): the first that is no sentinel is out of range. -/
def Bk.emptyRows (b : Bk) (t d : Opnd) (f : Nat) : Bk :=
  let r := (List.range t.count).foldl (fun (c : Bk) k =>
    if c.stop.isSome then c
    else
      match c.index t d f k with
      | (c1, .at _) => c1.halt 0x23 0
      | (c1, _) => c1) b
  if r.good then { r with found := true } else r

/-- `SCATTER` (R226, R227, R229). -/
def State.movScatter (s : State) (sp : Nat) (f : FormD) : Mov :=
  let x := s.sp sp
  let q := f.imm.toNat / 4
  let mode := f.imm.toNat % 4
  let d := x.opnd sp f.od f.dd
  let a := x.opnd sp f.oa f.da
  let t := (x.opnd sp f.ob f.db).withWidth (8 * idxBytes q)
  let per := if q.testBit 2 then d.n0 else 1
  let stage := [a, t].filter fun o => (d.norm s).meets (o.norm s)
  { fault := s.movChecks sp (idxBad q) [d, a] [d, a, t] (d.w != a.w || a.count != t.count * per)
      (mode != 0 && !(a.accumulates && d.accumulates)) stage,
    count := if per = 0 ∧ !q.testBit 3 ∧ t.count ≠ 0 then 1 else a.count, ub := if per = 0 then 0 else a.w, stage := stage, mems := [d, a, t],
    serial := mode != 0,
    step := fun b n =>
      if b.stop.isSome then b
      else if per = 0 then b.emptyRows t d q
      else
        match b.index t d q (n / per) with
        | (b1, .skip) => { b1 with elems := b1.elems + 1 }
        | (b1, .at l) =>
          let p := l.getD (n % per) 0
          match b1.read a (a.lin n) a.w (mode != 0) with
          | (b2, v) => if mode = 0 then b2.place d p v (a.at (a.lin n) / 8) else b2.accum d p mode (v.getD 0)
        | (b1, .stuck) => b1 }

/-- A MOV-class instruction by its constructor: its header and its plan. -/
def State.movOf (s : State) (i : Instr) : Option (Hdr × Mov) :=
  match i with
  | .move h f => some (h, s.movMove h.sp.val f)
  | .gather h f => some (h, s.movGather h.sp.val f)
  | .scatter h f => some (h, s.movScatter h.sp.val f)
  | .fill h f => some (h, s.movFill h.sp.val f)
  | .cmp h f => some (h, s.movCmp h.sp.val f)
  | .pack h f => some (h, s.movPack h.sp.val f)
  | _ => none

/-! ## Running -/

/-- The free staging slot of the lowest number (R234). -/
def State.freeStaging (s : State) : Option Nat := (List.range 4).find? fun k => Store.get none s.sluice.staging k == none
/-- The spout holds a staging slot. -/
def State.holdsStaging (s : State) (sp : Nat) : Bool := (List.range 4).any fun k => Store.get none s.sluice.staging k == some sp

/-- s with staging slot k held by a spout. -/
def State.takeStaging (s : State) (sp k : Nat) : State :=
  let s1 : State := { s with sluice := { s.sluice with staging := Store.put none s.sluice.staging k (some sp) } }
  if sp < 32 then ((s1.wr F.SLC_STAT_STAGEWAIT sp 0).wr F.SLC_STAT_STAGED sp 1).wr F.SLC_STAT_SLOT sp k else s1

/-- s with a spout waiting for a staging slot. -/
def State.queueStaging (s : State) (sp : Nat) (i : Instr) : State :=
  let s1 : State := { s with sluice := { s.sluice with waiters := s.sluice.waiters ++ [sp] } }
  (if sp < 32 then s1.wr F.SLC_STAT_STAGEWAIT sp 1 else s1).updSp sp fun x => { x with waiting := .grant i }

/-! ## Buffer space (R218) -/

/-- Bytes of the sluice's buffer that a channel holds: of reads on their way, of data in hand, and of writes not yet accepted. -/
def State.bufHeld (s : State) (c : Nat) : Nat :=
  let x := s.sp c
  let held := (x.outs.filter fun o => match o.need with | .bulk _ => true | .put _ => !o.accepted | _ => false).length
  64 * (held + match x.prog with | some p => p.fetched.length | none => 0)

/-- Bytes of the shared part of the buffer that a channel holds beyond its own 32 KiB. -/
def State.bufShared (s : State) (c : Nat) : Nat := s.bufHeld c - 2 ^ 15

/-- Granules that a spout may still ask for: a channel as many as it finds buffer space for. -/
def State.bufRoom (s : State) (sp : Nat) : Nat :=
  if 32 ≤ sp then 1024
  else
    let others := ((List.range 32).filter (· ≠ sp)).foldl (fun a c => a + s.bufShared c) 0
    (2 ^ 15 + min (2 ^ 18) (2 ^ 20 - others) - s.bufHeld sp) / 64

/-- s with reads of the granules of a list asked for that are not on their way, as many as there is room for. -/
def State.askGrans (s : State) (sp : Nat) (l : List Nat) : State :=
  let new := l.filter fun pg => !((s.sp sp).outs.any fun o => o.need == .bulk pg)
  foldS (new.take (s.bufRoom sp)) s fun t pg => t.askGran sp pg

/-! ## Elements in order (R220) -/

/-- The channel issues no read: it is to pause (R238), or a bus-error stop drains (R245). -/
def State.noReads (s : State) (sp : Nat) : Bool := decide (sp < 32) && (s.flag F.SLC_CTL_PAUSE sp || s.sluice.draining)

/-- A local update of the instruction has not been answered yet, so that the next waits (R235). -/
def Bk.updating (b : Bk) : Bool := (b.s.sp b.sp).outs.any fun o => !o.remote && (match o.need with | .put _ => true | _ => false)

/-- b after element n of an instruction, or as it was with the granules that the element lacks. -/
def Bk.element (b : Bk) (m : Mov) (n : Nat) : Bk :=
  if !b.good || b.found || m.serial && b.updating then b
  else
    let c := m.step b n
    if c.missing.isEmpty then c else { b with missing := c.missing }

/-- The granules that elements [n, n + k) use, each taken by itself. -/
def Bk.ahead (b : Bk) (m : Mov) (n k : Nat) : List Nat :=
  (List.range k).flatMap fun i => (m.step { b with missing := [], used := [], stop := none } (n + i)).used.reverse

/-- A MOV-class instruction's elements from the first that is not done up to p.limit, as far as their data is in hand. -/
def State.movElems (s : State) (sp : Nat) (m : Mov) (p : InProg) : Bk :=
  (List.range (p.limit - p.elems)).foldl (fun b k => b.element m (p.elems + k)) (s.bk sp p)

/-- The instruction in progress with what its elements came to, and the granules in hand that it still needs. -/
def InProg.keep (p : InProg) (b : Bk) (l : List Nat) : InProg :=
  { p with elems := b.elems, wbuf := b.wbuf, wstart := b.wstart, marked := b.marked, found := b.found, fetched := b.fetched.filter fun e => l.contains e.1 }

/-- The instruction in progress past its last element: CMP leaves whether the operands are equal and the first difference (R231). -/
def InProg.last (p : InProg) (m : Mov) (b : Bk) : InProg :=
  { p.keep b [] with
    results := match p.insn with
      | .cmp _ f => [(40 + f.px.toNat, b2n (b.elems == m.count)), (f.gx.toNat, b.elems)]
      | _ => [] }

/-- s with n more granules of channel sp's instruction counted in POISONED (R235). -/
def State.notePoison (s : State) (sp n : Nat) : State := if sp < 32 then s.bump F.SLC_STAT_POISONED sp n else s

/-- s with elements of a MOV-class instruction run up to p.limit: those whose data is in hand are written in order; for the next ones, at most 64 at a
time, reads are asked for. At the limit what waits is written; past the last element, or at a fault, the instruction ends as its writes land.
(DESIGN CHOICE: notes/assumptions/50.md.) -/
def State.movRun (s : State) (sp : Nat) (m : Mov) (p : InProg) : State :=
  let b := s.movElems sp m p
  let k := b.marked.length - p.marked.length
  let c := b.close
  if b.stop.isSome || b.found || decide (m.count ≤ b.elems) then (c.s.notePoison sp k).stopData sp (p.last m c) b.stop
  else if p.limit ≤ b.elems || s.noReads sp then
    ((c.s.notePoison sp k).updSp sp fun y => { y with prog := some (p.keep c (c.fetched.map (·.1))) }).landedAt sp
  else
    let need := b.ahead m b.elems (min 64 (p.limit - b.elems))
    (((b.s.notePoison sp k).updSp sp fun y => { y with prog := some (p.keep b need) }).landedAt sp).askGrans sp
      (need.eraseDups.filter fun g => !(b.fetched.any fun e => e.1 = g))

/-- Elements of a burst (R241): whole elements of at most BURST × 64 B, at least one. -/
def State.burst (s : State) (sp : Nat) (m : Mov) : Nat := max 1 (s.rd F.SLC_CFG_BURST sp * 512 / m.ub)

/-- The spout's MOV-class instructions run in bursts. -/
def State.paced (s : State) (sp : Nat) : Bool := decide (sp < 32) && s.flag F.SLC_CFG_PACED sp

/-- s with a MOV-class instruction gone on with: to the end of the burst in hand, or, where it `sample`s REQ, of the next (R241, R242). -/
def State.movGo (s : State) (sp : Nat) (m : Mov) (p : InProg) (sample : Bool) : State :=
  if !s.paced sp || decide (m.count ≤ p.elems) then s.movRun sp m { p with limit := m.count }
  else if p.elems < p.limit then s.movRun sp m p
  else if !sample then s
  else if (s.chan sp).seenReq then s.movRun sp m { p with limit := min m.count (p.elems + s.burst sp m) }
  else (s.wr F.SLC_STAT_PCAUSE sp (s.rd F.SLC_STAT_PCAUSE sp ||| 2)).setSpSt sp 4

/-- The granules of memory that a MOV-class instruction stages, and those of the tile stores. -/
def Mov.memStage (m : Mov) : List Nat := ((m.stage.filter fun o => !o.tile).flatMap Opnd.spanned).eraseDups
def Mov.tileStage (m : Mov) : List Nat := ((m.stage.filter fun o => o.tile).flatMap Opnd.spanned).eraseDups

/-- s with the staging of a MOV-class instruction gone on with (R233): what has come goes to its slot, what is missing is asked for; a read that fails
stops the instruction before its first element, and a poisoned granule stays so. -/
def State.stageMov (s : State) (sp : Nat) (m : Mov) (p : InProg) : Option InProg × State :=
  let tiles := if p.staged.isEmpty then m.tileStage.map fun g => (tileKey g, some (s.tileBytes (64 * g) 64)) else []
  let here := p.fetched.filter fun e => m.memStage.contains e.1
  let staged := p.staged ++ tiles ++ here.filterMap fun e => if e.2.1 = 0 then some (e.1, some e.2.2) else if e.2.1 = 3 then some (e.1, none) else none
  let q := { p with staged := staged, fetched := [] }
  let rest := m.memStage.filter fun g => !(staged.any fun e => e.1 = g)
  let bad := match here.find? fun e => !([0, 3].contains e.2.1) with
    | some e => some (faultOf e.2.1, 64 * e.1)
    | none => rest.findSome? fun g => (s.granFault sp g).map fun c => (c, 64 * g)
  match bad with
  | some f => (none, s.stopData sp q (some f))
  | none =>
    let t := s.updSp sp fun y => { y with prog := some q }
    if rest.isEmpty then (some { q with stagedAll := true }, t)
    else (none, if s.noReads sp then t else t.askGrans sp rest)

/-- s with a MOV-class instruction in progress going on at its first incomplete element (R239, R241, R242). -/
def State.contMov (s : State) (sp : Nat) (sample : Bool) : State :=
  match (s.sp sp).prog with
  | none => s
  | some p =>
    if p.closed.isSome then s.endData sp
    else
      match s.movOf p.insn with
      | none => s
      | some (_, m) =>
        if m.stage.isEmpty || p.stagedAll then s.movGo sp m p sample
        else
          match s.stageMov sp m p with
          | (some q, t) => t.movGo sp m q true
          | (none, t) => t

/-- A MOV-class instruction of spout sp as it starts: no element done, its events sampled (R243). -/
def State.movBegin (s : State) (h : Hdr) (i : Instr) (m : Mov) : InProg :=
  let sp := h.sp.val
  { s.begin h i with ub := m.ub, total := m.count * m.ub / 8, half := decide (sp < 32) && s.flag F.SLC_CFG_HALFIE sp,
                     full := decide (sp < 32) && s.flag F.SLC_CFG_FULLIE sp }

/-- s with a channel's progress registers at the start of an instruction. -/
def State.movClear (s : State) (sp : Nat) : State :=
  if sp < 32 then ((s.wr F.SLC_IPC_PC sp (s.sp sp).pc).wr F.SLC_ELEMS_ELEMS sp 0).wr F.SLC_BYTES_BYTES sp 0 else s

/-- s with a MOV-class instruction in progress. -/
def State.inProgress (s : State) (sp : Nat) (p : InProg) : State := s.updSp sp fun y => { y with prog := some p }

/-- s with a MOV-class instruction issued (R563, R233, R234, R243): its checks, its move unit and staging slot, and its first elements. -/
def State.movIssue (s : State) (i : Instr) : State :=
  match s.movOf i with
  | none => s
  | some (h, m) =>
    let sp := h.sp.val
    let x := s.sp sp
    match m.fault with
    | some (c, a) => s.fault sp c a 0
    | none =>
      if x.tx.isSome && m.mems.any (fun o => o.isMem && s.isRemote o.base) then s.txBars sp 0x0D
      else
        match s.acquire sp [uMOV] with
        | none => s.queueFor sp [uMOV] i
        | some s1 =>
          let p := s.movBegin h i m
          let start := fun (t : State) => (t.inProgress sp p).contMov sp true
          let s2 := s1.movClear sp
          if m.stage.isEmpty || s2.holdsStaging sp then start s2
          else
            match s2.freeStaging with
            | some k => if s2.sluice.waiters.isEmpty then start (s2.takeStaging sp k) else s2.queueStaging sp i
            | none => s2.queueStaging sp i

/-- What a MOV-class instruction names and does to memory. -/
def movUse (specs : List (BitVec 4)) (descs : List (BitVec 2)) (gs : List (BitVec 4)) (ps : List (BitVec 3)) (writes : Bool) : Use :=
  { sels := [], names := (specs.map fun o => if o.getLsbD 3 then 64 else 16 + o.toNat) ++ (descs.map fun d => 32 + d.toNat) ++
      (gs.map fun g => g.toNat) ++ (ps.map fun p => 40 + p.toNat), specs := specs.map fun o => o.toNat, reads := true, writes := writes, all := true }

/-- s with a MOV-class instruction decoded and run, or gone on with. -/
def State.movExec (s : State) (h : Hdr) (i : Instr) (u : Use) : State :=
  s.dataExec h i .mov u (fun t => t.movIssue i) fun t => t.contMov h.sp.val false

/-- MOVE (R224). -/
def execMove (h : Hdr) (f : FormD) (s : State) : Res :=
  .next (s.movExec h (.move h f) (movUse [f.od, f.oa] [f.dd, f.da] [] [] true))
/-- GATHER (R228). -/
def execGather (h : Hdr) (f : FormD) (s : State) : Res :=
  .next (s.movExec h (.gather h f) (movUse [f.od, f.oa, f.ob] [f.dd, f.da, f.db] [] [] true))
/-- SCATTER (R229). -/
def execScatter (h : Hdr) (f : FormD) (s : State) : Res :=
  .next (s.movExec h (.scatter h f) (movUse [f.od, f.oa, f.ob] [f.dd, f.da, f.db] [] [] true))
/-- FILL (R230). -/
def execFill (h : Hdr) (f : FormD) (s : State) : Res :=
  .next (s.movExec h (.fill h f) { movUse [f.od] [f.dd] [f.gx] [] true with reads := false })
/-- CMP (R231). -/
def execCmp (h : Hdr) (f : FormD) (s : State) : Res :=
  .next (s.movExec h (.cmp h f) (movUse [f.oa, f.ob] [f.da, f.db] [f.gx] [f.px] false))
/-- PACK (R225). -/
def execPack (h : Hdr) (f : FormD) (s : State) : Res :=
  .next (s.movExec h (.pack h f) (movUse [f.od, f.oa] [f.dd, f.da] [] [] true))

end Sys2Proof.Machine
end

