-- ==== Sys2Proof/Machine/Sluice.lean ====
section
/-! DEFINITION. Sys2Proof/Machine/Sluice.lean: the channel registers, the bus-error stop and the engine resets of the sluice and the jets
(08_sluice_channels.md R238 to R251, 07_jet_engines.md R216). -/
namespace Sys2Proof.Machine

/-! ## Engine resets -/

/-- s with an engine reset of a list of spouts begun: those with a command stop at once, or at their boundary where a MOV-class instruction is in
progress. -/
def State.resetSpouts (s : State) (ns : List Nat) : State :=
  foldS ns s fun t n =>
    if [1, 2, 3, 4].contains (t.spSt n) then
      if t.spSt n = 2 && (t.sp n).prog.isSome && (t.sp n).finish.isNone then t.updSp n fun x => { x with stopReq := some 0xF1 }
      else t.engineStop n
    else t

/-- The registers of a doorbell page. -/
def pageRegs : List Reg := [.DBL_RING, .DBL_CTL, .DBL_PTR, .DBL_STAT, .DBL_FPC, .DBL_FADDR]

/-- s with spout n, its page and its generator at reset; one that has not stopped yet stops now. Request numbers go on. -/
def State.clearSpout (s : State) (n : Nat) : State :=
  let s1 := if [1, 2, 3, 4].contains (s.spSt n) then s.engineStop n else s
  ((s1.releaseUnits n).setSp n { Spout.init with nextIdx := (s1.sp n).nextIdx }).resetRegs pageRegs n

/-- The four spouts of jet e. -/
def jetSpouts (e : Nat) : List Nat := (List.range 4).map (32 + 4 * e + ·)

/-- s after a write of JET_CTL (R216). -/
def State.wJetCtl (s : State) (e v : Nat) : State :=
  if F.JET_CTL_ERESET.of v = 1 && !(s.jet e).resetting then (s.resetSpouts (jetSpouts e)).updJet e fun j => { j with resetting := true } else s

/-- JET_ENGINE_RESET (R216): JET_CTL written with ERESET 1. -/
def execJetEngineReset (e : Jet) (s : State) : Res := .next (s.hostWrite .JET_CTL e.val fun t => t.wJetCtl e.val 1)

/-- s with the engine reset of jet e complete (R216): tile stores are unchanged. -/
def State.jetCleared (s : State) (e : Nat) : State :=
  ((foldS (jetSpouts e) s fun t n => t.clearSpout n).resetRegs [.JET_NFLAG, .JET_STAT, .JET_MACCNT] e).updJet e fun _ => JetState.init

/-- JET_RESET_DONE. -/
def execJetResetDone (e : Jet) (s : State) : Res := .next (if (s.jet e.val).resetting then s.jetCleared e.val else s)

/-! ## The control registers of a channel -/

/-- Bytes of an outstanding read by what it is for. -/
def Need.size : Need → Nat
  | .entry | .bulk _ => 64
  | .line _ | .pin _ => 256
  | .desc _ => 16
  | _ => 8

/-- x without request o. -/
def Spout.drop (x : Spout) (o : Out) : Spout := { x with outs := x.outs.filter fun y => y.idx ≠ o.idx }

/-- x with the data of request o where it goes: a register, a descriptor, the source data or the answers of the instruction in progress. A remote
response carries whole granules (13_aqueduct_ring.md R383). (DEDUCED: notes/assumptions/47.md.) -/
def Spout.deliver (x : Spout) (o : Out) (code : Nat) (d : Bytes) : Spout :=
  let at_ := if o.remote && !o.write then o.addr % 64 else 0
  match o.need with
  | .load rd => x.setSel rd (leNat (sliceB d at_ 8))
  | .desc dd => x.setD dd (leNat (sliceB d at_ 16))
  | .prior gr => x.setG gr (leNat (sliceB d at_ 8))
  | .bulk pg => { x with prog := x.prog.map fun p => { p with fetched := p.fetched ++ [(pg, code, d)] } }
  | .upd k => { x with prog := x.prog.map fun p => { p with upds := p.upds ++ [(k, code, d)] } }
  | _ => x

/-- s with an instruction that waited for a staging slot started once it holds one, where its channel may (08_sluice_channels.md R234, R238). (DEDUCED:
notes/assumptions/47.md.) -/
def State.startStaged (s : State) (n : Nat) : State :=
  match (s.sp n).waiting with
  | .grant i =>
    let s1 := s.updSp n fun x => { x with waiting := .none }
    if s.holdsStaging n && s1.issuable n false then s1.movIssue i else s
  | _ => s

/-- s with what spout n has in hand gone on with as its state RUN allows: a waiting start, or its instruction in progress at its first incomplete
element (R239). -/
def State.takeUp (s : State) (n : Nat) : State :=
  match (s.sp n).waiting with
  | .grant _ => s.startStaged n
  | _ => s.contMov n false

/-- s with every read of a spout that has not returned data sent again under its own number. (DESIGN CHOICE: notes/assumptions/16.md.) -/
def State.reAsk (s : State) (n : Nat) : State :=
  let x := s.sp n
  let lost := fun (o : Out) => !o.write && (match o.resp with | some (0, _) => false | _ => true)
  let s1 := s.updSp n fun y => { y with outs := y.outs.filter fun o => !lost o }
  let s2 := foldS (x.outs.filter lost) s1 fun t o =>
    (t.updSp n fun y => { y with pc := o.pc, seq := o.seq, nextIdx := o.idx }).ask n o.need o.addr o.need.size .rd []
  s2.updSp n fun y => { y with pc := x.pc, seq := x.seq, nextIdx := x.nextIdx }

/-- s after CONT of channel c (R246): refused unless it is stopped and no other channel runs its stopped command. (DESIGN CHOICE: notes/assumptions/16.md.) -/
def State.slcCont (s : State) (c : Nat) : State :=
  if !(s.rd F.SLC_GSTOP_STOPMASK 0).testBit c || ((List.range 32).any fun n => (s.chan n).continued) then s.spEvent c 0x05 0 0
  else
    let st := (s.chan c).stopState
    let s1 := ((((s.wr F.SLC_GSTOP_STOPMASK 0 (setBitTo (s.rd F.SLC_GSTOP_STOPMASK 0) c false)).wrB F.SLC_STAT_INSTOP c false).wrB F.SLC_STAT_SOLO c true).updChan c
      fun k => { k with continued := true })
    let s2 := (((s1.wr F.DBL_STAT_FAULT c 0).wr F.DBL_STAT_PROGRESS c 0).wr F.DBL_STAT_IMPRECISE c 0).setSpSt c st
    let x := s2.sp c
    if x.txAbort.isSome && x.finish.isNone && (st == 2 || st == 3) then (s2.setSp c x.takePending).setSpSt c 2
    else
      let s3 := s2.reAsk c
      if st = 2 then s3.takeUp c else s3

/-- s after ABANDON of channel c (R247): the stopped command finishes with BUS_STOP. (DESIGN CHOICE: notes/assumptions/16.md.) -/
def State.slcAbandon (s : State) (c : Nat) : State :=
  if (s.rd F.SLC_GSTOP_STOPMASK 0).testBit c then
    let s1 := (s.leaveStop c).ending c 0xF2
    if s1.flag F.SLC_GERR_STOPPED 0 then s1 else foldS (List.range 32) s1 fun t k => t.kickSp k
  else s

/-- s after ERESET of channel c (R248). (DESIGN CHOICE: notes/assumptions/16.md.) -/
def State.slcReset (s : State) (c : Nat) : State :=
  if (s.chan c).resetting then s
  else
    let s1 := ((s.resetSpouts [c]).leaveStop c).updChan c fun k => { k with resetting := true }
    if s1.flag F.SLC_GERR_STOPPED 0 then s1 else foldS (List.range 32) s1 fun t k => t.kickSp k

/-- s after a write of SLC_CTL: PAUSE, then CONT, ABANDON and ERESET. (DESIGN CHOICE: notes/assumptions/16.md.) -/
def State.wSlcCtl (s : State) (c v : Nat) : State :=
  let s1 := s.storeReg .SLC_CTL c v false
  let s2 := if s1.spSt c = 4 && s1.flag F.SLC_CTL_PAUSE c then s1.wr F.SLC_STAT_PCAUSE c (s1.rd F.SLC_STAT_PCAUSE c ||| 1) else s1
  let s3 := if F.SLC_CTL_CONT.of v = 1 then s2.slcCont c else s2
  let s4 := if F.SLC_CTL_ABANDON.of v = 1 then s3.slcAbandon c else s3
  if F.SLC_CTL_ERESET.of v = 1 then s4.slcReset c else s4

/-- SLC_PAUSE (R238): a write of SLC_CTL. -/
def execSlcPause (c : Chan) (v : Word) (s : State) : Res := .next (s.hostWrite .SLC_CTL c.val fun t => t.wSlcCtl c.val v.toNat)
/-- SLC_CONT (R246): SLC_CTL written as it is with CONT 1. -/
def execSlcCont (c : Chan) (s : State) : Res :=
  .next (s.hostWrite .SLC_CTL c.val fun t => t.wSlcCtl c.val (t.reg .SLC_CTL c.val + 4))
/-- SLC_ABANDON (R247): SLC_CTL written as it is with ABANDON 1. -/
def execSlcAbandon (c : Chan) (s : State) : Res :=
  .next (s.hostWrite .SLC_CTL c.val fun t => t.wSlcCtl c.val (t.reg .SLC_CTL c.val + 8))
/-- SLC_ENGINE_RESET (R248): SLC_CTL written as it is with ERESET 1. -/
def execSlcEngineReset (c : Chan) (s : State) : Res :=
  .next (s.hostWrite .SLC_CTL c.val fun t => t.wSlcCtl c.val (t.reg .SLC_CTL c.val + 16))

/-- s with the engine reset of channel n complete (R248): SLC_CFG and SLC_PREQ keep their values. -/
def State.slcCleared (s : State) (n : Nat) : State :=
  let s1 := ((s.clearSpout n).leaveStop n).resetRegs [.SLC_CTL, .SLC_STAT, .SLC_ELEMS, .SLC_BYTES, .SLC_IPC] n
  s1.updChan n fun k => { ChanState.init with seenReq := k.seenReq }

/-- SLC_RESET_DONE. -/
def execSlcResetDone (c : Chan) (s : State) : Res := .next (if (s.chan c.val).resetting then s.slcCleared c.val else s)

/-! ## Settings and pacing -/

/-- The channel counts as stopped for RWS fields (R251). -/
def State.slcStopped (s : State) (c : Nat) : Bool := [0, 4, 5, 6].contains (s.spSt c)

/-- s after a write of SLC_CFG (R251): refused for the burst length it would hold (00_scope.md R16). -/
def State.wSlcCfg (s : State) (c v : Nat) : State :=
  let b := F.SLC_CFG_BURST.of (s.proposed .SLC_CFG c v (!s.slcStopped c))
  match firstCode [(b == 0, 1), (decide (8 < b), 2)] with
  | 0 => s.storeReg .SLC_CFG c v (!s.slcStopped c)
  | k => s.spEvent c 0x04 k 0

/-- SLC_CFG_WRITE (R251). -/
def execSlcCfgWrite (c : Chan) (v : Word) (s : State) : Res := .next (s.hostWrite .SLC_CFG c.val fun t => t.wSlcCfg c.val v.toNat)

/-- s after a write of SLC_PREQ, which the channel observes 2 rill cycles later (R240): the model takes the cycles at once. (DESIGN CHOICE: notes/assumptions/16.md.) -/
def State.wSlcPreq (s : State) (c v : Nat) : State :=
  let s1 := (s.storeReg .SLC_PREQ c v false).updChan c fun k => { k with seenReq := F.SLC_PREQ_REQ.of v == 1 }
  if s1.spSt c = 4 && s1.paced c && !(s1.chan c).seenReq then s1.wr F.SLC_STAT_PCAUSE c (s1.rd F.SLC_STAT_PCAUSE c ||| 2) else s1

/-- SLC_PREQ_WRITE (R240). -/
def execSlcPreqWrite (c : Chan) (req : Bool) (s : State) : Res :=
  .next (s.hostWrite .SLC_PREQ c.val fun t => t.wSlcPreq c.val (b2n req))

/-! ## Bus errors (R244, R245) -/

/-- s with a fault c of spout n carried by the response to request o, at address a (04_zynsa_model.md R123): reported against the instruction that
issued the request, and imprecise where a later one has issued a write. -/
def State.respFault (s : State) (n : Nat) (o : Out) (c a : Nat) : State :=
  let x := s.sp n
  let progress := match x.prog with
    | some p => if p.pc ≠ o.pc then 0 else match o.need with
      | .put m => min m x.progress
      | _ => x.progress
    | none => 0
  ((s.recordFault n c o.pc a progress (decide (o.seq < x.lastW))).txStop n 0x0B c).ending n c

/-- s after a bus error at an address: of the one channel with a command, by what it reads there, or a stop. -/
def State.busError (s : State) (a code : Nat) : State :=
  match (if s.sluice.draining then [] else s.slcActive) with
  | [n] =>
    match (s.sp n).outs.find? fun o => !o.write && decide (o.addr ≤ a ∧ a < o.addr + o.need.size) with
    | some o =>
      match o.need with
      | .entry => s.fault n 0x95 a 0
      | .line _ => s.fault n 0x0B a 0
      | .bulk _ => (s.updSp n fun y => (y.drop o).deliver o 1 []).contMov n false
      | _ => s.respFault n o 0x08 a
    | none => s.fault n 0x08 a (s.sp n).progress
  | _ => s.busStop a code

/-- BUS_ERROR: a failing response for a read of the engine, DECERR or a failed check. -/
def execBusError (addr : PkgAddr) (check : Bool) (s : State) : Res := .next (s.busError addr.toNat (if check then 2 else 1))

/-- SLUICE_READ_TIMEOUT. -/
def execSluiceReadTimeout (addr : PkgAddr) (s : State) : Res := .next (s.busError addr.toNat 3)

/-- s with channel n stopped by a bus error: exact as for PAUSED, its open transaction aborted, its handler kept for its CONT. One whose command is
already ending ends it after its CONT. (DESIGN CHOICE: notes/assumptions/16.md.) -/
def State.stopChan (s : State) (n : Nat) : State :=
  let x := s.sp n
  let st := s.spSt n
  let s1 := if x.finish.isSome then s.wr F.DBL_STAT_FAULT n 0xF2 else s.recordFault n 0xF2 x.pc 0 x.progress false
  let s2 := match x.tx with
    | some t => if (s1.slot t).st = TxSt.active then (s1.setSpSt n 4).txAbort t 0x0F 0 none else s1
    | none => s1
  let s3 := s2.updSp n fun y => { y with prog := y.prog.map fun p => { p with fetched := [] } }
  ((s3.updChan n fun k => { k with stopState := st, continued := false }).wrB F.SLC_STAT_INSTOP n true).setSpSt n 5

/-- A write of channel n has not been accepted yet. -/
def State.writing (s : State) (n : Nat) : Bool := (s.sp n).outs.any fun o => o.isData && o.write && !o.accepted && o.resp.isNone

/-- BUS_STOP_DRAIN_DONE (R245): what each channel can still write is written; once every write of theirs has been accepted, each is stopped.
(DESIGN CHOICE: notes/assumptions/16.md.) -/
def execBusStopDrainDone (s0 : State) : Res :=
  if !s0.sluice.draining then .next s0
  else
    let s := foldS s0.slcActive s0 fun t n => if t.spSt n = 2 then t.contMov n false else t
    let act := s.slcActive
    if act.any s.writing then .next s
    else
      let s1 : State := { s with sluice := { s.sluice with draining := false } }
      let s2 := foldS act s1 fun t n => t.stopChan n
      let s3 := ((s2.wr F.SLC_GSTOP_STOPMASK 0 (maskOf act)).wrB F.SLC_GERR_STOPPED 0 true).bump F.SLC_GSTOP_STOPS 0 1
      let s4 := foldS act s3 fun t n => t.spEvent n 0x81 ((t.sp n).cmd.cmdId * 2 ^ 16 + 0xF2) (t.rd F.DBL_FPC_PC n)
      .next ((s4.emit 0x0903 Un.inst (s4.rd F.SLC_GERR_ADDR 0) (s4.rd F.SLC_GERR_CODE 0)).clearStop)

end Sys2Proof.Machine
end

