-- ==== Sys2Proof/Machine/Arith.lean ====
section
/-! DEFINITION. Sys2Proof/Machine/Arith.lean: what the arithmetic classes share (07_jet_engines.md R188 to R191, R212): the checks before issue, elements
with their block scales, results written under RM and SAT with their flags, and partial records. -/
namespace Sys2Proof.Machine

/-! ## Checks before issue -/

/-- An operand of partial records, laid contiguously in each row (R201). -/
def Opnd.records (o : Opnd) : Opnd := { o.withWidth 4608 with fmt := 0, bsm := 0 }

/-- The single record at an address of local memory. -/
def recordAt (a : Nat) : Opnd :=
  { tile := false, base := a % 2 ^ 48, len := 0, stride := false, fmt := 0, bsm := 0, n0 := 1, n1 := 1, w := 4608, packed := true, s0 := 0, s1 := 0,
    sbase := 0 }

/-- What a package address that must be local memory raises (R188): OPERAND_SCOPE for remote memory, the fault of the decode otherwise. -/
def State.localOnly (s : State) (sp a : Nat) : Option (Nat × Nat) :=
  match s.decodeAddr a with
  | .localMem _ => none
  | .remote _ _ => some (0x51, a)
  | _ => (s.addrFault sp a 1).map fun c => (c, a)

/-- The first and the last address of each row of an operand. -/
def Opnd.rowEnds (o : Opnd) : List Nat :=
  if o.count = 0 then [o.base]
  else
    (List.range o.n1).flatMap fun j =>
      let a := o.at (o.bit 0 j) / 8
      [a, (a + o.rowBytes - 1) % 2 ^ 48]

/-- The address fault of an operand of the arithmetic classes (R188): alignment, local memory only in every row, and its scale array likewise
(05_number_formats.md R137). -/
def State.arOpnd (s : State) (sp : Nat) (o : Opnd) : Option (Nat × Nat) :=
  let main := if o.tile then none else if o.misaligned then some (0x06, o.base) else o.rowEnds.findSome? fun a => s.localOnly sp a
  match main with
  | some f => some f
  | none =>
    if o.bsm = 0 then none
    else if o.bsm = 3 ∧ o.sbase % 4 ≠ 0 then some (0x06, o.sbase)
    else
      let n := (if o.bsm = 3 then o.n1 else o.n1 * (o.n0 / 32)) * scaleBytes o.bsm
      [o.sbase, (o.sbase + (n - 1)) % 2 ^ 48].findSome? fun a => s.localOnly sp a

/-- What an arithmetic instruction brings to its checks: its operands in order D, A, B; those whose format counts, and further ones that may be e8m0; faults of
RM and AC, its own faults in order, and the pairs that must not overlap. The order of the groups is the model's: notes/assumptions/22.md. -/
structure Checks where
  opnds : List Opnd
  fmts  : List Opnd
  fmts8 : List Opnd
  modes : List (Bool × Nat)
  own   : List (Bool × Nat)
  apart : List (Opnd × Opnd)

/-- The first fault before issue of an arithmetic instruction, with its address. (DEDUCED: notes/assumptions/22.md.) -/
def State.arChecks (s : State) (sp : Nat) (c : Checks) : Option (Nat × Nat) :=
  let role := (c.fmts.findSome? fun o => if o.fmt = 15 then some 0x40 else if o.fmt = 14 then some 0x41 else none).or
    (c.fmts8.findSome? fun o => if o.fmt = 15 then some 0x40 else none)
  let r := role.getD 0
  match firstCode ([(c.opnds.any fun o => o.stride, 0x48), (r != 0, r), ((c.fmts ++ c.fmts8).any fun o => !scaleOk o.bsm o.fmt, 0x43),
      (c.opnds.any Opnd.misPacked, 0x42), ((c.fmts ++ c.fmts8).any fun o => (o.bsm == 1 || o.bsm == 2) && o.n0 % 32 != 0, 0x44)] ++ c.modes ++ c.own ++
      [(c.opnds.any Opnd.outOfTile, 0x4F)]) with
  | 0 =>
    match c.opnds.findSome? fun o => s.arOpnd sp o with
    | some f => some f
    | none => if c.apart.any fun p => p.1.meets p.2 then some (0x50, 0) else none
  | k => some (k, 0)

/-- RMODE_RESERVED of a form. (DEDUCED: notes/assumptions/22.md.) -/
def rmBad (rm : BitVec 3) : Bool × Nat := (decide (5 ≤ rm.toNat), 0x45)

/-- Destination and source lie element on element, so that they may be the same (R190). -/
def Opnd.inPlace (d a : Opnd) : Bool := d.tile == a.tile && d.base == a.base && d.n0 == a.n0 && d.n1 == a.n1 && d.s1 == a.s1 && d.w == a.w

/-- The shapes agree. -/
def Opnd.sameShape (a b : Opnd) : Bool := a.n0 == b.n0 && a.n1 == b.n1

/-- An instruction of the arithmetic classes with its registers read: its checks, and what it does. -/
structure Plan extends Work where
  ck : Checks

/-- s with an arithmetic instruction's checks made, then begun. A remote operand inside a transaction aborts it (09_transactions.md R269). (DEDUCED: notes/assumptions/22.md.) -/
def State.arStart (s : State) (h : Hdr) (i : Instr) (p : Plan) : State :=
  match s.arChecks h.sp.val p.ck with
  | some (k, a) => if k = 0x51 ∧ (s.sp h.sp.val).tx.isSome then s.txBars h.sp.val 0x0D else s.fault h.sp.val k a 0
  | none => s.startWork h i p.toWork

/-- s with a planned instruction decoded and run, or gone on with. -/
def State.planExec (s : State) (h : Hdr) (i : Instr) (c : Cls) (u : Use) (plan : Spout → Nat → Plan) : State :=
  let sp := h.sp.val
  s.dataExec h i c u (fun t => t.arStart h i (plan (t.sp sp) sp)) fun t => t.contWork sp (plan (t.sp sp) sp).toWork

/-! ## Elements in and out -/

/-- The number of the scale block of element (i, j) (R189). -/
def Opnd.blockOf (o : Opnd) (i j : Nat) : Nat := if o.bsm = 3 then j else j * (o.n0 / 32) + i / 32

/-- The scale array of an operand as an operand of bytes. -/
def Opnd.scales (o : Opnd) : Opnd := { o with tile := false, base := o.sbase, bsm := 0 }

/-- The raw code of element (i, j). -/
def Bk.code (b : Bk) (o : Opnd) (i j : Nat) : Bk × Nat :=
  if b.stop.isSome then (b, 0)
  else
    match b.read o (o.bit i j) o.w true with
    | (b1, v) => (b1, v.getD 0)

/-- The decoded value of element (i, j) (05_number_formats.md R135). -/
def Bk.elem (b : Bk) (o : Opnd) (i j : Nat) : Bk × Val :=
  match b.code o i j with
  | (b1, c) =>
    if o.bsm = 0 then (b1, codeValue o.fmt c false)
    else
      let nb := scaleBytes o.bsm
      match b1.read o.scales (8 * (o.blockOf i j * nb : Nat)) (8 * nb) true with
      | (b2, sc) => (b2, scaled o.bsm (scaleOf o.bsm (toLE nb (sc.getD 0)) i) (codeValue o.fmt c (o.bsm == 1)))

/-- The decoded values of elements n0 on of a list of positions. -/
def Bk.elems' (b : Bk) (o : Opnd) (ps : List (Nat × Nat)) : Bk × List Val :=
  let r := ps.foldl (fun (acc : Bk × List Val) p => match acc.1.elem o p.1 p.2 with | (b1, v) => (b1, v :: acc.2)) (b, [])
  (r.1, r.2.reverse)

/-- Row j of an operand. -/
def Bk.row (b : Bk) (o : Opnd) (j : Nat) : Bk × List Val := b.elems' o ((List.range o.n0).map fun i => (i, j))

/-- The smallest normal magnitude of a destination format, or none for integers. -/
def minNormal (code : Nat) : Val :=
  match floatFmt code with
  | some f => .fin false 1 (1 - (f.bias : Int))
  | none => .fin false 0 0

/-- The flags of a written result: those of its conversion, INEXACT and UNDERFLOW taken against the exact value where that is known (R150). -/
def resultFlags (code : Nat) (c : Conv) (v exact : Val) : Nat :=
  if v = exact then c.flags
  else
    match exact with
    | .fin _ m _ =>
      let w := codeValue code c.bits false
      let base := c.flags &&& (127 - fINEXACT - fUNDERFLOW)
      if Val.eqv w exact then base else if m ≠ 0 && Val.lt exact.abs (minNormal code) then base ||| fINEXACT ||| fUNDERFLOW else base ||| fINEXACT
    | _ => c.flags

/-- The flags of an element encoded under a scale s, INEXACT and UNDERFLOW taken against the exact value where that differs from the one encoded
(R150). -/
def scaledFlags (bsm code : Nat) (c : Conv) (s v exact : Val) : Nat :=
  if v = exact then c.flags
  else
    match exact with
    | .fin _ m _ =>
      let base := c.flags &&& (127 - fINEXACT - fUNDERFLOW)
      if Val.eqv (scaled bsm s (codeValue code c.bits (bsm == 1))) exact then base
      else if m ≠ 0 && Val.lt exact.abs (Val.mul s (minNormal code)) then base ||| fINEXACT ||| fUNDERFLOW
      else base ||| fINEXACT
    | _ => c.flags

/-- b with results (value and exact value) written to the elements from linear position n of one row of a destination, converted or quantised (05_number_formats.md R140 to
R148); whether some written element is not zero (R199). An element under a NaN block scale counts as one that is not zero, since its value is the
NaN. (DEDUCED: notes/assumptions/22.md.) -/
def Bk.emit (b : Bk) (d : Opnd) (n rm : Nat) (sat : Bool) (vals : List (Val × Val)) : Bk × Bool :=
  if !b.good then (b, false)
  else
    let n0 := n % d.n0
    let j := n / d.n0
    let each := fun (f : Nat → Val × Val → Nat → Conv × Bool) =>
      ((List.range vals.length).foldl (fun (acc : Bk × Bool) k =>
        let v := vals.getD k (.zero, .zero)
        let (r, dr) := acc.1.draw.next rm
        let (c, nz) := f k v r
        (({ acc.1 with draw := dr, flags := acc.1.flags ||| c.flags } : Bk).write d (d.bit (n0 + k) j) d.w c.bits, acc.2 || nz)) (b, false))
    let res :=
      if d.bsm = 0 then
        each fun _ v r =>
          let c := convert d.fmt rm sat r v.1 1
          (⟨c.bits, resultFlags d.fmt c v.1 v.2⟩, !(codeValue d.fmt c.bits false).isZero)
      else
        let nb := scaleBytes d.bsm
        let at_ : Int := 8 * (d.blockOf n0 j * nb : Nat)
        match chooseScale d.bsm d.fmt (vals.map (·.1)) with
        | none =>
          let r := each fun _ _ _ => (⟨0, fSCALENAN⟩, true)
          (r.1.write d.scales at_ (8 * nb) (leNat (nanScale d.bsm)), r.2)
        | some sc =>
          let zero := (amaxOf (vals.map (·.1))).isZero
          let r := each fun k v r =>
            let s := scaleOf d.bsm sc (n0 + k)
            let c := encodeBlock d.bsm d.fmt rm r zero s v.1
            (⟨c.bits, scaledFlags d.bsm d.fmt c s v.1 v.2⟩, !(codeValue d.fmt c.bits false).isZero)
          (r.1.write d.scales at_ (8 * nb) (leNat sc), r.2)
    if res.1.good then ({ res.1 with elems := res.1.elems + vals.length }, res.2) else res

/-- Elements that are written together: one, a block, or a row. -/
def Opnd.unit (d : Opnd) : Nat := if d.bsm = 0 then 1 else if d.bsm = 3 then d.n0 else 32

/-- b with every element of a destination computed by `g` (value, exact value and flags at a linear position) and written in linear order; whether some
written element is not zero. -/
def Bk.emitAll (b : Bk) (d : Opnd) (rm : Nat) (sat : Bool) (g : Bk → Nat → Bk × Val × Val × Nat) : Bk × Bool :=
  let u := d.unit
  (List.range (d.count / u)).foldl (fun (acc : Bk × Bool) k =>
    let r := (List.range u).foldl (fun (q : Bk × List (Val × Val)) t =>
      match g q.1 (u * k + t) with
      | (b1, v, e, fl) => (({ b1 with flags := b1.flags ||| fl } : Bk), (v, e) :: q.2)) (acc.1, [])
    match r.1.emit d (u * k) rm sat r.2.reverse with
    | (b2, nz) => (b2, acc.2 || nz)) (b, false)

/-! ## Partial records -/

/-- The partial record at element n of an operand of records, checked (05_number_formats.md R157). -/
def Bk.record (b : Bk) (o : Opnd) (n : Nat) : Bk × Exa :=
  if b.stop.isSome then (b, Exa.clear)
  else
    match b.bytesAt o (o.lin n / 8) 576 with
    | (b1, d) =>
      if !b1.good then (b1, Exa.clear)
      else
        match Exa.ofBytes d with
        | some x => (b1, x)
        | none => (b1.halt 0x47 (o.at (o.lin n) / 8), Exa.clear)

/-- b with a partial record written at element n. -/
def Bk.putRecord (b : Bk) (o : Opnd) (n : Nat) (x : Exa) : Bk :=
  let b1 := b.putBytes o (o.lin n / 8) x.bytes
  if b1.good then { b1 with elems := b1.elems + 1 } else b1

/-- An accumulation from a record, with ACCOVF where one of its own sums leaves the range, whatever OVF the record brought (05_number_formats.md R155). -/
def Exa.tracked (x : Exa) (f : Exa → Exa) : Exa × Nat :=
  let r := f { x with flags := setBitTo x.flags 3 false }
  ({ r with flags := r.flags ||| (x.flags &&& 8) }, if r.flags.testBit 3 then fACCOVF else 0)

/-- Two records merged, with the flag. -/
def mergeFlag (a b : Exa) : Exa × Nat :=
  let r := a.tracked fun y => Exa.merge y { b with flags := setBitTo b.flags 3 false }
  ({ r.1 with flags := r.1.flags ||| (b.flags &&& 8) }, r.2)

/-! ## Accumulation (R194, R196, R200) -/

/-- The accumulator of inputs of two formats (one format twice for a plain reduction): 0 fp32 in groups of 32, 1 fp32, 2 fp64, 3 int32
(05_number_formats.md R151; DEDUCED: notes/assumptions/24.md). -/
def accKind (a b : Opnd) : Nat :=
  if isIntFmt a.fmt && isIntFmt b.fmt && a.bsm == 0 && b.bsm == 0 then 3
  else if a.fmt = 0 ∨ b.fmt = 0 then 2
  else if a.fmt = 1 ∨ b.fmt = 1 then 1
  else 0

/-- The exact sum of a group of 32 as one addend: −0 where every product is −0. -/
def groupSum (l : List Val) : Val :=
  match l with
  | [] => .zero
  | v :: t => t.foldl (Val.add false) v

/-- The addends of an exact accumulation: group sums of a narrow pair, else the products (R194, R213). (DEDUCED: notes/assumptions/24.md.) -/
def addends (kind : Nat) (pair : Bool) (l : List Val) : List Val := if kind = 0 && pair then (groupsOf 32 l).map groupSum else l

/-- The default accumulation of a list of products: the accumulator's value, the exact sum, and the flags (R196). -/
def accumulated (kind : Nat) (inputs ps : List Val) : Val × Val × Nat :=
  let r := match kind with
    | 0 => accGroups ps
    | 1 => accSteps fp32 ps
    | 2 => accSteps fp64 ps
    | _ => accInt ps
  let e := exactSum ps
  (r.1, (if ps.isEmpty then r.1 else e), r.2 ||| nanMade inputs r.1)

/-- The exact accumulation of a list of addends from a record, with ACCOVF. -/
def accumulatedX (x : Exa) (l : List Val) : Exa × Nat :=
  x.tracked fun y => accExact y l

/-- A record's readout as a result (05_number_formats.md R156). -/
def Exa.result (x : Exa) : Val × Val × Nat :=
  let (v, inv) := x.readout
  (v, v, if inv then fINVALID else 0)

end Sys2Proof.Machine
end

