-- ==== Sys2Proof/Machine/Scalar.lean ====
section
/-! DEFINITION. Sys2Proof/Machine/Scalar.lean: the scalar instructions, form S (06_zynsa_encoding.md R182). -/
namespace Sys2Proof.Machine

/-- The second operand: g[GB], the sign-extended IMM, or the extension word. -/
def Spout.bval (x : Spout) (h : Hdr) (f : FormS) : Nat :=
  if !f.immb then x.gv f.gb.toNat else if h.x then h.ext.toNat else wrapInt 64 (sx 16 f.imm.toNat)

/-- s with a scalar instruction run: `op` gives the result and its flags from a, b and the random value. -/
def State.scalar (s : State) (h : Hdr) (f : FormS) (i : Instr) (unary draws : Bool) (op : Nat → Nat → Nat → Nat × Nat) : State :=
  let u : Use := { Use.none with names := [f.gd.toNat, f.ga.toNat] ++ if unary || f.immb then [] else [f.gb.toNat] }
  s.issue1 h i .scalar u fun t =>
    let sp := h.sp.val
    let x := t.sp sp
    if 5 ≤ f.rm.toNat then t.fault sp 0x45 0 0
    else
      let d0 : Draw := { g := x.gen.toNat, i := 0 }
      let (r, d) := d0.next (if draws then f.rm.toNat else 0)
      let (v, fl) := op (x.gv f.ga.toNat) (x.bval h f) r
      let t1 := t.updSp sp fun y =>
        let z := { y.setG f.gd.toNat v with gen := BitVec.ofNat 64 d.g }
        if f.pw then z.setP f.pd.toNat (v % 2 ^ 64 != 0) else z
      (t1.setFlags sp fl).done h

/-- An integer operation as a scalar one. -/
def intOp (g : Nat → Nat → Nat) : Nat → Nat → Nat → Nat × Nat := fun a b _ => (g a b % 2 ^ 64, 0)

/-- ADD. -/
def execAdd (h : Hdr) (f : FormS) (s : State) : Res := .next (s.scalar h f (.add h f) false false (intOp (· + ·)))
/-- SUB. -/
def execSub (h : Hdr) (f : FormS) (s : State) : Res := .next (s.scalar h f (.sub h f) false false (intOp fun a b => a + 2 ^ 64 - b))
/-- MUL. -/
def execMul (h : Hdr) (f : FormS) (s : State) : Res := .next (s.scalar h f (.mul h f) false false (intOp (· * ·)))
/-- MULHU. -/
def execMulhu (h : Hdr) (f : FormS) (s : State) : Res := .next (s.scalar h f (.mulhu h f) false false (intOp fun a b => a * b / 2 ^ 64))
/-- AND. -/
def execAnd (h : Hdr) (f : FormS) (s : State) : Res := .next (s.scalar h f (.and h f) false false (intOp (· &&& ·)))
/-- OR. -/
def execOr (h : Hdr) (f : FormS) (s : State) : Res := .next (s.scalar h f (.or h f) false false (intOp (· ||| ·)))
/-- XOR. -/
def execXor (h : Hdr) (f : FormS) (s : State) : Res := .next (s.scalar h f (.xor h f) false false (intOp (· ^^^ ·)))
/-- SHL. -/
def execShl (h : Hdr) (f : FormS) (s : State) : Res := .next (s.scalar h f (.shl h f) false false (intOp fun a b => a * 2 ^ (b % 64)))
/-- SHR. -/
def execShr (h : Hdr) (f : FormS) (s : State) : Res := .next (s.scalar h f (.shr h f) false false (intOp fun a b => a / 2 ^ (b % 64)))
/-- SRA. -/
def execSra (h : Hdr) (f : FormS) (s : State) : Res :=
  .next (s.scalar h f (.sra h f) false false (intOp fun a b => wrapInt 64 (sx 64 a / (2 ^ (b % 64) : Nat))))
/-- MIN. -/
def execMin (h : Hdr) (f : FormS) (s : State) : Res :=
  .next (s.scalar h f (.min h f) false false (intOp fun a b => if sx 64 b < sx 64 a then b else a))
/-- MAX. -/
def execMax (h : Hdr) (f : FormS) (s : State) : Res :=
  .next (s.scalar h f (.max h f) false false (intOp fun a b => if sx 64 a < sx 64 b then b else a))
/-- MINU. -/
def execMinu (h : Hdr) (f : FormS) (s : State) : Res := .next (s.scalar h f (.minu h f) false false (intOp Nat.min))
/-- MAXU. -/
def execMaxu (h : Hdr) (f : FormS) (s : State) : Res := .next (s.scalar h f (.maxu h f) false false (intOp Nat.max))

/-- A binary64 operation under a rounding mode (05_number_formats.md R143, R148, R150): the exact result rounded once. -/
def dblOp (rm : Nat) (g : Val → Val → Val) : Nat → Nat → Nat → Nat × Nat := fun a b r =>
  let u := codeValue fp64 a false
  let v := codeValue fp64 b false
  let y := g u v
  let c := convert fp64 rm false r y 1
  (c.bits, c.flags ||| nanMade [u, v] y)

/-- FADD.D. -/
def execFaddD (h : Hdr) (f : FormS) (s : State) : Res :=
  .next (s.scalar h f (.faddD h f) false true (dblOp f.rm.toNat (Val.add (f.rm == 3))))
/-- FSUB.D. -/
def execFsubD (h : Hdr) (f : FormS) (s : State) : Res :=
  .next (s.scalar h f (.fsubD h f) false true (dblOp f.rm.toNat fun a b => Val.add (f.rm == 3) a b.neg))
/-- FMUL.D. -/
def execFmulD (h : Hdr) (f : FormS) (s : State) : Res := .next (s.scalar h f (.fmulD h f) false true (dblOp f.rm.toNat Val.mul))

/-- The binary64 quotient under a rounding mode: 0 ÷ 0 and ∞ ÷ ∞ are NaN, x ÷ 0 an infinity. -/
def divOp (rm : Nat) : Nat → Nat → Nat → Nat × Nat := fun a b r =>
  let u := codeValue fp64 a false
  let v := codeValue fp64 b false
  match u, v with
  | .fin s m e, .fin t n q =>
    if n = 0 then
      let y := if m = 0 then Val.nan else .inf (s != t)
      ((convert fp64 rm false r y 1).bits, nanMade [u, v] y)
    else
      let c := convert fp64 rm false r (.fin (s != t) m (e - q)) n
      (c.bits, c.flags)
  | .fin s _ _, .inf t => ((convert fp64 rm false r (.fin (s != t) 0 0) 1).bits, 0)
  | .inf s, .fin t _ _ => ((convert fp64 rm false r (.inf (s != t)) 1).bits, 0)
  | _, _ => ((convert fp64 rm false r .nan 1).bits, nanMade [u, v] .nan)

/-- FDIV.D. -/
def execFdivD (h : Hdr) (f : FormS) (s : State) : Res := .next (s.scalar h f (.fdivD h f) false true (divOp f.rm.toNat))

/-- The binary64 square root under a rounding mode: −0 gives −0, a negative value NaN. -/
def sqrtOp (rm : Nat) : Nat → Nat → Nat → Nat × Nat := fun a _ r =>
  let u := codeValue fp64 a false
  let y := match u with
    | .nan => .nan
    | .inf s => if s then .nan else .inf false
    | .fin s m e => if m = 0 then .fin s 0 0 else if s then .nan else let (n, t) := sqrtMag m e; .fin false n t
  let c := convert fp64 rm false r y 1
  (c.bits, c.flags ||| nanMade [u] y)

/-- FSQRT.D. -/
def execFsqrtD (h : Hdr) (f : FormS) (s : State) : Res := .next (s.scalar h f (.fsqrtD h f) true true (sqrtOp f.rm.toNat))

/-- CVT.DI: binary64 to int64. -/
def execCvtDi (h : Hdr) (f : FormS) (s : State) : Res :=
  .next (s.scalar h f (.cvtDi h f) true true fun a _ r =>
    match codeValue fp64 a false with
    | .nan => (0, fINVALID)
    | .inf n => (if n then 2 ^ 63 else 2 ^ 63 - 1, fINEXACT)
    | .fin n m e => let c := roundInt 64 f.rm.toNat r n m 1 e; (c.bits, c.flags))

/-- CVT.ID: int64 to binary64. -/
def execCvtId (h : Hdr) (f : FormS) (s : State) : Res :=
  .next (s.scalar h f (.cvtId h f) true true fun a _ r =>
    let c := convert fp64 f.rm.toNat false r (Val.ofInt (sx 64 a)) 1
    (c.bits, c.flags))

end Sys2Proof.Machine
end

