-- ==== Sys2Proof/Machine/TxCmd.lean ====
section
/-! DEFINITION. Sys2Proof/Machine/TxCmd.lean: the transaction instructions, the slots' timers, and the two-phase commit over the cascade
(09_transactions.md R253 to R279; 19_cascade_and_services.md R503, R505). -/
namespace Sys2Proof.Machine

/-! ## Taking cascade messages (19_cascade_and_services.md R503) -/

/-- s with a message sent on to the next instance (R503; 02_ports.md R57): every message but a unicast to this instance and those it sent
itself; HELLO has its own rule (State.passHello). -/
def State.passOn (s : State) (c : CasHdr) (typ : Nat) (len : Option Nat) (crcOk : Bool) : State :=
  if c.src.val = s.me ∨ (!c.bc && c.dst.val == s.me) ∨ typ = 0x01 then s
  else
    let m : FwdMsg := { hdr := c, typ := typ, len := len, crcOk := crcOk }
    { s with cas := { s.cas with fwd := s.cas.fwd ++ [m] } }

/-- What an instance does with a message that reaches it: s with what it forwards and counts, and whether it acts. An own unicast that found no
destination is counted in UNDELIV; outside election messages another epoch is discarded. A message to itself passes round the loop and is
acted upon. (DEDUCED: notes/assumptions/36.md.) -/
def State.casTake (s : State) (c : CasHdr) (typ : Nat) (election : Bool) : State × Bool :=
  let own := c.src.val == s.me
  let mine := c.bc || c.dst.val == s.me
  let s1 := ({ s with cas := { s.cas with linkDown := false } } : State).passOn c typ none true
  if own && !c.bc && c.dst.val != s.me then (s1.bump F.CAS_CNT_UNDELIV 0 1, false)
  else (if mine then s1.leaveIdle 3 else s1, mine && (election || c.epoch.toNat == s.cas.epoch))

/-- s after a message that only an instance that acts on it takes. (DEDUCED: notes/assumptions/36.md.) -/
def State.onCas (s : State) (c : CasHdr) (typ : Nat) (f : State → State) : State :=
  match s.casTake c typ false with
  | (t, true) => f t
  | (t, false) => t

/-- s after a message that only the manager takes. -/
def State.onMgr (s : State) (c : CasHdr) (typ : Nat) (f : State → State) : State :=
  s.onCas c typ fun t => if t.role = 2 then f t else t

/-! ## Instructions -/

/-- The lowest FREE local slot. (DEDUCED: notes/assumptions/36.md.) -/
def State.freeSlot (s : State) : Option Nat := (List.range 56).find? fun t => (s.slot t).st == .free

/-- s with a spout a member of slot t, and the slot's number in g[GD]. -/
def State.joinTx (s : State) (sp t handler gd : Nat) : State :=
  let x := s.sp sp
  (s.updSlot t fun y => { y with members := y.members ++ [(sp, handler, x.depth, gd)] }).updSp sp fun x => { x.setG gd t with tx := some t, signals := [] }

/-- TBEGIN (R257). -/
def execTbegin (h : Hdr) (gd : BitVec 4) (xi : Bool) (hoff : BitVec 16) (s : State) : Res :=
  let n := h.sp.val
  .next (s.issue1 h (.tbegin h gd xi hoff) .txn { Use.none with names := [gd.toNat] } fun t =>
    let x := t.sp n
    let handler := addrAdd x.pc (8 * sx 16 hoff.toNat)
    let g := gd.toNat
    if x.tx.isSome then t.fault n 0x60 0 0
    else if !xi then
      match t.freeSlot with
      | none => t.txRefuse n 0x05 handler g
      | some k =>
        ((t.updSlot k fun _ => { TxSlot.init with st := .active, stamp := t.wall, label := x.cmd.label, owner := n }).joinTx n k handler g).done h
    else
      let v := x.gv g
      if v.testBit 63 then
        let t1 := t.updSp n fun y => { y with waiting := .xopen handler g, waitPc := x.nextPc h }
        (t1.send 0x10 false true t1.mgr [n, x.cmd.label]).setSpSt n 3
      else if 8 ≤ v then t.txRefuse n 0x07 handler g
      else
        let k := 56 + v
        let y := t.slot k
        if y.st ≠ TxSt.active ∨ y.label ≠ x.cmd.label then t.txRefuse n 0x07 handler g
        else if 8 ≤ y.members.length then t.txRefuse n 0x08 handler g
        else (t.joinTx n k handler g).done h)

/-- s with this instance's vote on package transaction x given (R271 step 3). -/
def State.vote (s : State) (x : Nat) (yes empty : Bool) (word : Nat) : State :=
  (s.updSlot (56 + x) fun y => { y with asked := false }).castVote x yes empty word

/-- s with a prepared slot's vote given where it can be given without a record: NO of an aborted slot or without a record area, READONLY of an empty
write set once every member is ready (R271 step 3, R273). -/
def State.tryVote (s : State) (x : Nat) : State :=
  let y := s.slot (56 + x)
  if !y.asked then s
  else if y.st = .closed ∨ y.st = .free then s.vote x false false y.word
  else if y.st ≠ TxSt.active then s
  else if !s.flag F.TXU_RECBASE_VALID 0 then s.vote x false false (abortWord 0x16 0 (56 + x) s.me none)
  else if (y.members.all fun m => y.ready.contains m.1) && y.log.isEmpty then
    (s.updSlot (56 + x) fun z => { z with st := .closed, reads := [], sig := 0, sigUsed := false }).vote x true true 0
  else s

/-- TCOMMIT (R258): after a full fence. -/
def execTcommit (h : Hdr) (gd : BitVec 4) (s : State) : Res :=
  let n := h.sp.val
  .next (s.issue1 h (.tcommit h gd) .txn { Use.none with names := [gd.toNat], all := true } fun t =>
    let x := t.sp n
    match x.tx with
    | none => t.fault n 0x61 0 0
    | some k =>
      let t1 := t.updSp n fun y => { y with waiting := .commit, waitPc := x.nextPc h + gd.toNat * 2 ^ 48 }
      if k < 56 then t1.commitPoint k
      else
        let t2 := (t1.updSlot k fun y => { y with ready := y.ready ++ [n] }).setSpSt n 3
        let t3 := if (t2.slot k).owner = t2.me * 256 + n then t2.send 0x14 false true t2.mgr [k - 56] else t2
        t3.tryVote (k - 56))

/-- TABORT (R256). -/
def execTabort (h : Hdr) (code : BitVec 8) (s : State) : Res :=
  let n := h.sp.val
  .next (s.issue1 h (.tabort h code) .txn Use.none fun t =>
    match (t.sp n).tx with
    | none => t.fault n 0x61 0 0
    | some k => t.txAbort k 0x0A code.toNat none)

/-- The status word of a spout's transaction (R261). -/
def State.txStatus (s : State) (n : Nat) : Nat :=
  match (s.sp n).tx with
  | none => 0
  | some k =>
    let y := s.slot k
    2 ^ 63 + b2n (decide (56 ≤ k)) * 2 ^ 62 + b2n y.sigUsed * 2 ^ 61 + k * 2 ^ 55 + y.log.length * 2 ^ 44 + y.reads.length * 2 ^ 31

/-- TSTAT (R261). -/
def execTstat (h : Hdr) (gd : BitVec 4) (s : State) : Res :=
  .next (s.issue1 h (.tstat h gd) .txn { Use.none with names := [gd.toNat] } fun t =>
    (t.updSp h.sp.val fun x => x.setG gd.toNat (t.txStatus h.sp.val)).done h)

/-! ## Timers and the log -/

/-- s with the rest of the log of a committing slot written, and the slot CLOSED; a package slot reports and drops its record (R267, R271). -/
def State.applyLog (s : State) (k : Nat) : State :=
  let y := s.slot k
  if y.st ≠ TxSt.committing then s
  else
    let s1 := foldS y.log s fun u e => u.logNow k e.1 e.2
    let s2 := s1.updSlot k fun z => { z with st := .closed, log := [] }
    if k < 56 then s2
    else
      let s3 : State := { s2 with txu := { s2.txu with records := Store.erase s2.txu.records (k - 56) } }
      s3.send 0x1A false true s3.mgr [k - 56]

/-- LOG_APPLY_DONE. -/
def execLogApplyDone (t : Slot) (s : State) : Res := .next (s.applyLog t.val)

/-- SLOT_FREE_TIMER (R253): a slot whose members have all left returns to FREE. (DEDUCED: notes/assumptions/36.md.) -/
def execSlotFreeTimer (t : Slot) (s : State) : Res :=
  let y := s.slot t.val
  if y.st = .closed ∧ y.members.isEmpty ∧ !y.asked then .next (s.updSlot t.val fun _ => TxSlot.init) else .next s

/-- TX_LIFETIME_EXPIRE (R276). -/
def execTxLifetimeExpire (t : Slot) (s : State) : Res :=
  if (s.slot t.val).st = .active then .next (s.txAbort t.val 0x09 0 none) else .next s

/-! ## The two-phase commit (R271) -/

/-- s with an abort of package transaction x broadcast by the manager, and its event (R271, R279). -/
def State.broadcastAbort (s : State) (x word : Nat) : State :=
  ((s.updPkt x fun _ => XRec.init).send 0x18 true true 0 [x, word]).emit Ev.TX_PKG_ABORT (Un.pkt x) 0 word

/-- XT_OPEN (R271 step 1, R273; 19_cascade_and_services.md R510); `valid` is the requester's record-area VALID, which the manager goes by. (PRESUMED: notes/assumptions/28.md.) -/
def execXtOpen (c : CasHdr) (sp : Sp) (label : BitVec 12) (valid : Bool) (s : State) : Res :=
  .next (s.onMgr c 0x10 fun t =>
    let deny := fun (code : Nat) => t.send 0x13 false true c.src.val [sp.val, code]
    if !valid then deny 0x16
    else if !t.flag F.CAS_STAT_LOOPOK 0 || t.txu.recovering then deny 0x06
    else
      match (List.range 8).find? fun x => (t.pkt x).phase == 0 with
      | none => deny 0x06
      | some x =>
        (t.updPkt x fun _ => { XRec.init with phase := 1, owner := c.src.val, sp := sp.val }).send 0x11 true true 0
          [x, t.wall, label.toNat, c.src.val, sp.val])

/-- XT_GRANT (R271 step 1): the slot is ACTIVE as the grant passes; back at the manager it sends XT_READY. -/
def execXtGrant (c : CasHdr) (x : Pkt) (owner : Inst) (sp : Sp) (label : BitVec 12) (stamp : Word) (s : State) : Res :=
  .next (s.onCas c 0x11 fun t =>
    let t1 := t.updSlot (56 + x.val) fun _ =>
      { TxSlot.init with st := .active, stamp := stamp.toNat, label := label.toNat, owner := owner.val * 256 + sp.val }
    if c.src.val = t.me then t1.send 0x12 false true owner.val [x.val] else t1)

/-- XT_READY (R271 step 1): the creator's TBEGIN completes, or takes its handler where the slot has aborted meanwhile. -/
def execXtReady (c : CasHdr) (x : Pkt) (s : State) : Res :=
  .next (s.onCas c 0x12 fun t =>
    let k := 56 + x.val
    let y := t.slot k
    let n := y.owner % 256
    match (t.sp n).waiting with
    | .xopen handler gd =>
      if y.owner / 256 ≠ t.me then t
      else if y.st ≠ TxSt.active then (t.updSp n fun z => z.toHandler handler z.loops.length gd y.word).wakeSp n
      else
        let pc := (t.sp n).waitPc
        (((t.joinTx n k handler gd).updSp n fun z => { z with waiting := .none }).wakeSp n).goto n pc
    | _ => t)

/-- XT_DENY (R271 step 1). (PRESUMED: notes/assumptions/28.md.) -/
def execXtDeny (c : CasHdr) (sp : Sp) (code : BitVec 8) (s : State) : Res :=
  .next (s.onCas c 0x13 fun t =>
    match (t.sp sp.val).waiting with
    | .xopen handler gd => t.txRefuse sp.val code.toNat handler gd
    | _ => t)

/-- XT_COMMITREQ (R271 step 2). -/
def execXtCommitreq (c : CasHdr) (x : Pkt) (s : State) : Res :=
  .next (s.onMgr c 0x14 fun t =>
    if (t.pkt x.val).phase = 1 then (t.updPkt x.val fun r => { r with phase := 2, yes := 0, voted := 0, done := 0 }).send 0x15 true true 0 [x.val] else t)

/-- XT_PREPARE (R271 step 3). -/
def execXtPrepare (c : CasHdr) (x : Pkt) (s : State) : Res :=
  .next (s.onCas c 0x15 fun t => (t.updSlot (56 + x.val) fun y => { y with asked := true }).tryVote x.val)

/-- PREPARE_RECORD_DONE (R271 step 3): the record stands in the record area, the slot is PREPARED and votes YES. -/
def execPrepareRecordDone (x : Pkt) (s : State) : Res :=
  let k := 56 + x.val
  let y := s.slot k
  if y.asked && y.st == .active && !y.log.isEmpty && (y.members.all fun m => y.ready.contains m.1) && s.flag F.TXU_RECBASE_VALID 0 then
    let s1 : State := { s with txu := { s.txu with records := Store.insert s.txu.records x.val { log := y.log, committed := false } } }
    .next ((s1.updSlot k fun z => { z with st := .prepared }).vote x.val true false 0)
  else .next s

/-- XT_VOTE (R271 step 4). -/
def execXtVote (c : CasHdr) (x : Pkt) (yes empty : Bool) (word : Word) (s : State) : Res :=
  .next (s.onMgr c 0x16 fun t =>
    let r := t.pkt x.val
    if r.phase ≠ 2 then t
    else if !yes then t.broadcastAbort x.val word.toNat
    else
      let voted := r.voted ||| 2 ^ c.src.val
      let ys := if empty then r.yes else r.yes ||| 2 ^ c.src.val
      if voted = 0xFFFF then
        let t1 := t.updPkt x.val fun r => if ys = 0 then XRec.init else { r with voted := voted, yes := ys, phase := 3 }
        let t2 : State := if ys = 0 then t1 else { t1 with txu := { t1.txu with decisions := t1.txu.decisions ++ [x.val] } }
        t2.send 0x17 true true 0 [x.val]
      else t.updPkt x.val fun r => { r with voted := voted, yes := ys })

/-- VOTE_TIMEOUT (R271 step 4). -/
def execVoteTimeout (x : Pkt) (s : State) : Res :=
  if s.role = 2 ∧ (s.pkt x.val).phase = 2 then .next (s.broadcastAbort x.val (abortWord 0x14 0 (56 + x.val) s.me none)) else .next s

/-- s with one record found at a recovery answered: committed or aborted; after the last one the recovery is complete (R274, R279). -/
def State.recovered (s : State) (x : Nat) (commit : Bool) : State :=
  if s.txu.awaits.contains x then
    let o := s.txu.outcome
    let o1 := if commit then (o.1 + 1, o.2) else (o.1, o.2 + 1)
    let rest := s.txu.awaits.filter fun y => y ≠ x
    let s1 : State := { s with txu := { s.txu with awaits := rest, outcome := if rest.isEmpty then (0, 0) else o1 } }
    if rest.isEmpty then (s1.emit Ev.TX_RECOVERED Un.inst o1.1 o1.2).tryReady else s1
  else s

/-- XT_COMMIT (R271 step 5): a PREPARED slot marks its record and takes its commit point; members of a read-only slot continue. (DEDUCED: notes/assumptions/36.md.) -/
def execXtCommit (c : CasHdr) (x : Pkt) (s : State) : Res :=
  .next (s.onCas c 0x17 fun t =>
    let k := 56 + x.val
    let y := t.slot k
    if y.st = .prepared then
      let t1 : State := { t with txu := { t.txu with records := Store.insert t.txu.records x.val { log := y.log, committed := true } } }
      let t2 := (t1.commitPoint k).recovered x.val true
      if (t2.slot k).st = .closed then
        let t3 : State := { t2 with txu := { t2.txu with records := Store.erase t2.txu.records x.val } }
        t3.send 0x1A false true t3.mgr [x.val]
      else t2
    else if y.st = .closed ∧ !y.members.isEmpty then t.commitPoint k
    else t)

/-- The word under which instance `me` aborts its part on XT_ABORT (R271, R277): its own word, or the manager's own decision (VOTE_TIMEOUT, MANAGER_LOST, or
RESET without the cause that a member's gives), as it is; of another member's abort MEMBER_ABORT with the origin's code. (DEDUCED:
notes/assumptions/36.md.) -/
def memberWord (me x word : Nat) : Nat :=
  let code := word / 2 ^ 56
  let inst := bits word 41 38
  if inst = me ∨ code = 0x14 ∨ code = 0x15 ∨ (code = 0x11 ∧ bits word 55 48 = 0) then word else abortWord 0x13 code (56 + x) inst none

/-- XT_ABORT (R271). (DEDUCED: notes/assumptions/36.md.) -/
def execXtAbort (c : CasHdr) (x : Pkt) (word : Word) (s : State) : Res :=
  .next (s.onCas c 0x18 fun t =>
    let k := 56 + x.val
    let y := t.slot k
    let drop : State := { t with txu := { t.txu with records := Store.erase t.txu.records x.val } }
    if y.st = .active ∨ y.st = .prepared ∨ (y.st = .closed ∧ !y.members.isEmpty) then
      (drop.txClose k (memberWord t.me x.val word.toNat) [] false).recovered x.val false
    else drop.recovered x.val false)

/-- XT_ABORTREQ (R271). -/
def execXtAbortreq (c : CasHdr) (x : Pkt) (word : Word) (s : State) : Res :=
  .next (s.onMgr c 0x19 fun t =>
    if (t.pkt x.val).phase = 1 ∨ (t.pkt x.val).phase = 2 then t.broadcastAbort x.val word.toNat else t)

/-- s with package transaction x closed at the manager: its decision erased, X free (R271 step 6). -/
def State.closePkt (s : State) (x : Nat) : State :=
  let s1 := s.updPkt x fun _ => XRec.init
  { s1 with txu := { s1.txu with decisions := s.txu.decisions.filter fun y => y ≠ x } }

/-- XT_DONE (R271 step 6): one that comes during a recovery counts once the recovery has decided (R275). (DEDUCED: notes/assumptions/36.md.) -/
def execXtDone (c : CasHdr) (x : Pkt) (s : State) : Res :=
  .next (s.onMgr c 0x1a fun t =>
    let r := t.pkt x.val
    let done := r.done ||| 2 ^ c.src.val
    if r.phase ≠ 3 && !t.txu.recovering then t
    else if r.phase = 3 && r.yes &&& done = r.yes then t.closePkt x.val
    else t.updPkt x.val fun r => { r with done := done })

/-- s of the manager with every SETCFG sent again to an instance that has come back from a reset (19_cascade_and_services.md R512). (DEDUCED: notes/assumptions/36.md.) -/
def State.resendCfg (s : State) (k : Nat) : State :=
  if k = s.me then s
  else
    let s1 := match s.cas.nodeSent with
      | some n => s.send 0x05 false false k [0, n]
      | none => s
    let s2 := s1.send 0x05 false false k [1, k]
    match Store.find s.cas.lastCap k with
    | some v => s2.send 0x05 false false k [2, v]
    | none => s2

/-- XT_EPOCH (R274): the manager aborts what it granted before and has not decided. (DEDUCED: notes/assumptions/36.md.) -/
def execXtEpoch (c : CasHdr) (s : State) : Res :=
  .next (s.onMgr c 0x1b fun t =>
    let code := if c.src.val = t.me then 0x15 else 0x11
    (foldS (List.range 8) t fun u x =>
      if (u.pkt x).phase = 1 ∨ (u.pkt x).phase = 2 then u.broadcastAbort x (abortWord code 0 (56 + x) u.me none) else u).resendCfg c.src.val)

/-- The state of a package slot as TXU_PKG codes it; 3 also for a record marked committed (R253, R275). -/
def State.pkgState (s : State) (x : Nat) : Nat :=
  let y := s.slot (56 + x)
  match y.st with
  | .free => 0
  | .active => 1
  | .prepared => if y.indoubt then 5 else 2
  | .committing => 3
  | .closed => 4

/-- What a recovering manager hears of X: its slot's state, or 3 where its record is marked committed. -/
def State.queryState (s : State) (x : Nat) : Nat :=
  match Store.find s.txu.records x with
  | some r => if r.committed then 3 else s.pkgState x
  | none => s.pkgState x

/-- INDOUBT_QUERY (R275). -/
def execIndoubtQuery (x : Pkt) (s : State) : Res :=
  if (s.slot (56 + x.val)).st = .prepared then .next (s.send 0x1C false true s.mgr [x.val, 0, s.queryState x.val]) else .next s

/-- TX_INDOUBT (R275). -/
def execTxIndoubt (x : Pkt) (s : State) : Res :=
  let y := s.slot (56 + x.val)
  if y.st = .prepared ∧ !y.indoubt then
    .next ((s.updSlot (56 + x.val) fun y => { y with indoubt := true }).emit Ev.TX_INDOUBT (Un.pkt x.val) 0 0)
  else .next s

/-- X counts as committed for a recovering manager: its own decision stands, or some instance reports COMMITTING or a record marked committed (R275). -/
def State.wasCommitted (s : State) (x : Nat) : Bool := s.txu.decisions.contains x || s.txu.collected.any fun e => e.1 % 8 == x && e.2 == 3

/-- The instances that still hold a part of X by what they reported: PREPARED, in doubt, or committed. Each sends XT_DONE. -/
def State.holders (s : State) (x : Nat) : Nat :=
  maskOf ((List.range 16).filter fun k => s.txu.collected.any fun e => e.1 == k * 8 + x && [2, 3, 5].contains e.2)

/-- s with a recovering manager's decision on X: a committed one stays busy, with its decision recorded, until each holder is done (R271 step 6,
R275); every other is aborted, with its event (R279). -/
def State.decideX (s : State) (x : Nat) : State :=
  if s.wasCommitted x then
    let r := s.pkt x
    let ys := s.holders x
    let s1 : State := { s with txu := { s.txu with decisions := (s.txu.decisions.filter fun y => y ≠ x) ++ [x] } }
    let s2 := s1.updPkt x fun _ => { XRec.init with phase := 3, yes := ys, voted := 0xFFFF, done := r.done }
    (if ys &&& r.done = ys then s2.closePkt x else s2).send 0x17 true true 0 [x]
  else s.broadcastAbort x (abortWord 0x15 0 (56 + x) s.me none)

/-- s with a manager's recovery decided: XT_COMMIT for every committed X and XT_ABORT for every other (R275, R279). -/
def State.decideAll (s : State) : State :=
  let n := ((List.range 8).filter s.wasCommitted).length
  let s1 := foldS (List.range 8) s fun u x => u.decideX x
  let s2 : State := { s1 with txu := { s1.txu with collected := [], recovering := false } }
  (s2.emit Ev.TX_RECOVERED Un.inst n (8 - n)).tryReady

/-- XT_QUERY (R274, R275): an instance's question answered by the manager as far as it has decided; the manager's question answered with the state; an
answer collected. -/
def execXtQuery (c : CasHdr) (x : Pkt) (answer : Bool) (state : BitVec 4) (s : State) : Res :=
  .next (s.onCas c 0x1c fun t =>
    if answer then
      if t.role ≠ 2 ∨ !t.txu.recovering then t
      else
        let key := c.src.val * 8 + x.val
        let l := (t.txu.collected.filter fun e => e.1 ≠ key) ++ [(key, state.toNat)]
        let t1 : State := { t with txu := { t.txu with collected := l } }
        if l.length = 8 * popcount 16 (t1.rd F.CAS_STAT_MEMBERS 0) then t1.decideAll else t1
    else if c.bc then t.send 0x1C false true t.mgr [x.val, 1, t.queryState x.val]
    else if t.role ≠ 2 then t
    else if t.txu.decisions.contains x.val then t.send 0x17 true true 0 [x.val]
    else if (t.pkt x.val).phase = 0 ∧ !t.txu.recovering then t.broadcastAbort x.val (abortWord 0x11 0 (56 + x.val) t.me none)
    else t)

/-! ## Registers (R278) -/

/-- Some package slot is not FREE. -/
def State.pkgBusy (s : State) : Bool := (List.range 8).any fun x => (s.slot (56 + x)).st != .free

/-- s after a write of TXU_RECBASE: refused as a whole where it would move a busy area; VALID is evaluated again. -/
def State.wTxuRecbase (s : State) (v : Nat) : State :=
  if s.pkgBusy && F.TXU_RECBASE_BASE.of v != s.rd F.TXU_RECBASE_BASE 0 then s.emit Ev.TX_CFG_REFUSED Un.inst 4 0
  else (s.storeReg .TXU_RECBASE 0 v false).evalRecbase

/-- TXU_RECBASE_WRITE (R273, R278). -/
def execTxuRecbaseWrite (v : Word) (s : State) : Res := .next (s.hostWrite .TXU_RECBASE 0 fun t => t.wTxuRecbase v.toNat)

/-- s after a write of TXU_CFG. -/
def State.wTxuCfg (s : State) (v : Nat) : State :=
  let l := F.TXU_CFG_LIFETIME.of v
  let w := F.TXU_CFG_VOTEWAIT.of v
  match firstCode [(l == 0, 1), (decide (1000000 < l), 2), (decide (w < 10 ∨ 10000 < w), 3)] with
  | 0 => s.storeReg .TXU_CFG 0 v false
  | c => s.emit Ev.TX_CFG_REFUSED Un.inst c 0

end Sys2Proof.Machine
end

