-- ==== Sys2Proof/Machine/Drain.lean ====
section
/-! DEFINITION. Sys2Proof/Machine/Drain.lean: what a warm reset, a thermal trip and a state that gates the basin finish before memory is shut
away (18_bringup_reset_lowpower.md R481 steps 1 to 4; 16_power_and_thermal.md R448; 12_data_integrity.md R349): accepted and issued
writes, the logs of committing slots, corrections, owed fills, and the valid bitmap's home. -/
namespace Sys2Proof.Machine

/-- The requests that wait at the ordering points. -/
def State.heldReqs (s : State) : List Req := s.pcs.flatMap fun e => e.2.waiting.map fun w => w.2

/-- The requests held at their sources, in the order of these. -/
def State.heldIn (s : State) : List Req := s.intake.held.flatMap fun e => e.2

/-- s with a held request finished: a write or update is carried out and answered, a transaction's refused, a read discarded. The
block's own requests are finished by kind. (DESIGN CHOICE: notes/assumptions/37.md.) -/
def State.finishHeld (s : State) (r : Req) : State :=
  match r.origin with
  | .fill _ | .shadow _ | .cwb | .log _ | .verify | .scrub | .census _ _ => s
  | _ =>
    if !r.writes then s.respond r 0 false []
    else if r.tx.isSome then s.respond r 4 false []
    else if s.fenced (s.gloc (r.addr / 64)).pc then s.respond r 2 false []
    else
      let s1 := foldS r.granules s fun t g => t.writeNow r g
      if r.plain then s1.respond r 0 false [] else s1

/-- s with a request held at its source admitted without a charge and finished. -/
def State.admitHeld (s : State) (r : Req) : State := (s.counted r).finishHeld r

/-- s with the corrections queued at pseudo-channel n written back, and its verify reads dropped. -/
def State.finishCorr (s : State) (n : Nat) : State :=
  let s1 := foldS (s.pc n).corrQ s fun t e => if e.2.2.1.isEmpty then t.storeMarker e.2.1 else t.storeBack e.2.1 e.2.2.1
  s1.updPc n fun p => { p with corrQ := [], verifyQ := [], scrubQ := [], waiting := [] }

/-- s with the reads in flight at pseudo-channel n discarded. -/
def State.dropFlights (s : State) (n : Nat) : State :=
  let s1 := foldS (s.pc n).flights s fun t f => t.respond f.req 0 false []
  s1.updPc n fun p => { p with flights := [] }

/-- s with every fill write still owed carried out, and the fill table empty (R349). -/
def State.flushFills (s : State) : State :=
  let s1 := foldS s.basin.fills s fun t f =>
    foldS (List.range 64) t fun u k =>
      let g := 64 * f.block + k
      if f.owed.testBit k && !u.fenced (u.gloc g).pc then ((u.settleQueue g).settleShadow g).putNow g (bytesOf 64 0#8) else u
  { s1 with basin := { s1.basin with fills := [] } }

/-- s with every accepted request and every write of the block finished. (DESIGN CHOICE: notes/assumptions/37.md.) -/
def State.drain (s : State) : State :=
  let s1 := foldS s.basin.winTab s.quiescePorts fun t g => t.settleShadow g
  let s2 := foldS (List.range 64) s1.finishWork fun t n => t.dropFlights n
  let s3 := foldS s2.heldReqs s2 fun t r => t.finishHeld r
  let s3 := foldS s3.heldIn ({ s3 with intake := { s3.intake with held := [] } } : State) fun t r => t.admitHeld r
  let s4 := foldS (List.range 64) s3 fun t k => t.applyLog k
  (foldS (List.range 64) s4 fun t n => t.finishCorr n).flushFills

/-- s with the valid bitmap in its home where a map is in force. -/
def State.saveBitmap (s : State) : State := if s.map.mode = 0 then s else s.writeHome

/-- s with every spout, doorbell page, jet and channel at reset, its command dropped without record or event, and the font's queue empty. -/
def State.clearSpouts (s : State) : State :=
  let f := s.font
  let q : Sluice := { staging := [], waiters := [], draining := false }
  { s.resetDomains [.ENG] with spouts := [], jets := [], chans := [], sluice := q, font := { f with calls := [], answer := none } }

/-- s with every spout that has a command stopped where it stands, issuing nothing more: its issued writes are done, what it waits for is dropped, and
its registers stay until a reset reaches them (00_scope.md R17; 16_power_and_thermal.md R448; R481 step 1). -/
def State.stopSpouts (s : State) : State :=
  let f := s.font
  let s1 : State := { s with font := { f with calls := [], answer := none }, sluice := { s.sluice with draining := false } }
  foldS ((List.range 161).filter fun n => [1, 2, 3, 4].contains (s.spSt n)) s1 fun t n =>
    (t.releaseUnits n).updSp n fun x =>
      { x with outs := [], waiting := .none, prog := none, stopReq := none, fences := [], finish := none, tx := none, txAbort := none, signals := [] }

/-- s with a channel reset under way given up: its pseudo-channel stays in self-refresh (R485). -/
def State.endCresets (s : State) : State :=
  foldS (List.range 64) s fun t n => if t.pcSt n = 4 then t.wr F.PC_STAT_STATE n 3 else t

/-- s with everything stopped and finished (R481 steps 1 to 4): QUAL clear, ports quiet, spouts stopped, ACTIVE transactions aborted with
RESET and a detail, all accepted work done, and the bitmap home. -/
def State.shutDown (s : State) (detail : Nat) : State := (((s.endCresets.aqOff.abortAll detail).drain).stopSpouts).saveBitmap

/-- Every pseudo-channel that was open is in self-refresh. -/
def State.allRefreshed (s : State) : Bool := (List.range 64).all fun n => !([1, 2, 4].contains (s.pcSt n))

end Sys2Proof.Machine
end

