-- ==== Sys2Proof/Machine/Power.lean ====
section
/-! DEFINITION. Sys2Proof/Machine/Power.lean: regulators, triads, capping and darkening (16_power_and_thermal.md R424 to R435), waking a domain (R436
to R438), host requests (R426, R451), the power cap (R447). -/
namespace Sys2Proof.Machine

/-! ## Triads (R427, R428) -/

/-- s with a command sent over RGL_CTL (02_ports.md R68). -/
def State.command (s : State) (c : RglCmd) : State := { s with power := { s.power with rgl := s.power.rgl ++ [c] } }

/-- The rating of a regulator of triad t, in 0.1 A. -/
def ratingOf (t : Nat) : Nat := if t < 4 then 25 else if t < 6 then 60 else if t = 6 then 50 else 35

/-- The set-point range of triad t, in mV. -/
def voltsOf (t : Nat) : Nat × Nat := if t = 4 ∨ t = 5 then (740, 880) else (700, 850)

/-- The regulators of triad t that work. -/
def State.working (s : State) (t : Nat) : List Nat := [3 * t, 3 * t + 1, 3 * t + 2].filter fun r => !s.flag F.PWR_REG_FAILED r

/-- A regulator of triad t has failed. (DESIGN CHOICE: notes/assumptions/37.md.) -/
def State.ganged (s : State) (t : Nat) : Bool := decide ((s.working t).length < 3)

/-- The capacity of triad t in 1/6000 A: the working ratings, less a sixth for each failed phase, and 125 % while a regulator has failed. -/
def State.capacity (s : State) (t : Nat) : Nat :=
  let c := (s.working t).foldl (fun a r => a + ratingOf t * (6 - popcount 6 (s.rd F.PWR_REG_PHFAIL r))) 0
  c * (if s.ganged t then 125 else 100)

/-- The current of triad t in the latest frames, in 0.1 A. -/
def State.triadCur (s : State) (t : Nat) : Nat := (s.working t).foldl (fun a r => a + Store.get 0 s.power.curs r) 0

/-- The current of triad t is at most n per cent of its capacity. -/
def State.within (s : State) (t n : Nat) : Bool := decide (s.triadCur t * 60000 ≤ s.capacity t * n)

/-- s with PWR_TRI showing the triad's current, lowest output and failures. -/
def State.showTriad (s : State) (t : Nat) : State :=
  let w := s.working t
  let v := match w with
    | [] => 0
    | r :: l => l.foldl (fun a k => Nat.min a (Store.get 0 s.power.mvs k)) (Store.get 0 s.power.mvs r)
  let failed := (List.range 3).foldl (fun a i => a + (if w.contains (3 * t + i) then 0 else 2 ^ i)) 0
  (((s.wr F.PWR_TRI_CUR t (Nat.min 0xFFFF (s.triadCur t))).wr F.PWR_TRI_VOUT t (Nat.min 1023 v)).wr F.PWR_TRI_FAILED t failed).wrB F.PWR_TRI_GANGED t (s.ganged t)

/-- s with the working regulators of triad t told to gang once one has failed (R430), or to stop when all work again. -/
def State.gang (s : State) (t : Nat) : State := s.command (.gang t (if s.ganged t then s.working t else []))

/-- Triad t slews to a new set point (R427). (DESIGN CHOICE: notes/assumptions/37.md.) -/
def State.slewing (s : State) (t : Nat) : Bool := decide (s.time.ticks < Store.get 0 s.power.slew t)

/-- s with the capping level of triad t changed, and the deliverable bandwidth with it (R431). -/
def State.setCap (s : State) (t l : Nat) : State :=
  let old := s.rd F.PWR_TRI_CAPLVL t
  if l = old then s
  else ((s.wr F.PWR_TRI_CAPLVL t l).emit (if old < l then Ev.REG_CAP else Ev.REG_UNCAP) (Un.triad t) l 0).updDeliv

/-! ## Going dark (R432, R433) -/

/-- s after pseudo-channel n lost the power of its rill and of its primary leg: the octet's spare takes it over, or it is retired (R433;
17_calibration_and_training.md R464). -/
def State.rillDark (s : State) (n : Nat) : State :=
  let s1 := s.abandonAll (fun a => a.leg == 2 * n) 6
  if s1.fenced n || s1.served n 3 then s1
  else if s1.spareUse (n / 8) = 3 || !s1.spareWorks (n / 8) then (s1.abandonPc n 2).retirePc n
  else s1.takeover n

/-- s after spare m lost its power, and with it the second legs of its octet (R433; 17_calibration_and_training.md R464). -/
def State.spareDark (s : State) (m : Nat) : State :=
  let s1 := (s.endUseFor m 6).abandonAll (fun a => a.leg % 2 == 1 && a.leg / 16 == m) 6
  if s1.spareUse m = 3 then (s1.abandonPc (s1.sparePc m) 2).retirePc (s1.sparePc m) else s1

/-- s with jet e reset (R216). -/
def State.resetJet (s : State) (e : Nat) : State := (s.resetSpouts (jetSpouts e)).jetCleared e

/-- s with the steps of R433 for domain d. -/
def State.darkSteps (s : State) (d : Nat) : State :=
  if d < 32 then (s.rillDark (2 * d)).rillDark (2 * d + 1)
  else if d < 40 then s.spareDark (d - 32)
  else if d < 56 then (s.resetJet (2 * (d - 40))).resetJet (2 * (d - 40) + 1)
  else if d = 62 then foldS (List.range 32) s fun t n => (t.resetSpouts [n]).slcCleared n
  else if d = 59 then (foldS (List.range 32) s fun t e => t.resetJet e).losePower 59
  else s.losePower d

/-- The order in which triad t goes dark, in groups that go together; the group [66] stands for the region shutdown (R432, R434). (DESIGN CHOICE: notes/assumptions/37.md.) -/
def State.darkOrder (s : State) (t : Nat) : List (List Nat) :=
  let spares := (domainsOf t).filter fun d => decide (32 ≤ d ∧ d < 40)
  let keeps := fun (d : Nat) => s.spareUse (d - 32) == 3
  if t < 4 then
    ((spares.filter fun d => !keeps d) ++ (((domainsOf t).filter fun d => decide (d < 32)).reverse) ++ spares.filter keeps).map fun d => [d]
  else if t < 6 then (domainsOf t).reverse.map fun d => [d]
  else if t = 6 then [[60, 61], [62], 59 :: (List.range 16).map (40 + ·), [66]]
  else [[57], [56], [64]]

/-- s with a group of domains going dark: those not DARK yet pass the steps of R433 and stand in GATING until DOMAIN_DARK_DONE. -/
def State.startGroup (s : State) (g : List Nat) : State :=
  foldS (g.filter fun d => d < 66 && s.domSt d != 4) s fun t d =>
    let p := t.power
    let t1 : State := { t with power := { p with wakes := p.wakes.filter (fun w => w.1 ≠ d), ramps := p.ramps.filter (fun w => w.1 ≠ d),
                                                 delayed := p.delayed.filter (· ≠ d) } }
    (t1.darkSteps d).setDom d 3

/-! ## The thermal trip and the region shutdown (R434, R448) -/

/-- s with every domain gated and the trip complete: pseudo-channels not in self-refresh lose their contents, ports are DOWN, THERM_TRIP_N is
driven (R448 step 4, R449, R450), or the region is shut down, its triad's other domains DARK with cause 3 of R558 (R432, R434). (DEDUCED:
notes/assumptions/37.md.) -/
def State.finishTrip (s : State) : State :=
  let late := (List.range 64).filter fun n => [1, 2, 4].contains (s.pcSt n)
  let s1 := foldS late s fun t n => (t.wipePc n).wr F.PC_STAT_STATE n 0
  let s2 := if late.isEmpty then s1 else s1.emit Ev.STACK_RETENTION Un.inst 0 0
  let warm := decide (105 < sx 8 (s2.rd F.SCH_STAT_STEMP 0))
  let s3 := if warm then s2.emit Ev.STACK_RETENTION Un.inst 1 0 else s2
  let s4 := (s3.dropLines (fun _ => true) 3)
  let s5 : State := { s4 with basin := { s4.basin with buffer := [], dead := [], deadWas := false, lookups := 0, hits := 0 }, tiles := [] }
  let s6 := foldS (List.range 66) s5 fun t d => if t.domSt d = 4 then t else t.setDom d 0
  let s7 := foldS (List.range 8) s6 fun t p => if t.fpSt p = 3 then t.portDown p else t.wr F.ITK_FPSTAT_STATE p 0
  let s8 : State := { s7 with power := { s7.power with shut := 2, lost := s7.power.lost || !late.isEmpty || warm } }
  match s8.power.region with
  | some t =>
    let dark := foldS ((domainsOf t).filter fun d => s8.domSt d != 4) s8 fun u d => (u.setDom d 4).emit Ev.DOMAIN_DARK (Un.domain d) 3 0
    (dark.emit Ev.REGION_SHUTDOWN (Un.triad t) 0 0).takeWaits
  | none =>
    let k := s8.rd F.THM_CFG_RLIM 0
    let held := k != 0 && decide (k ≤ s8.power.trips.length)
    let n := s8.rd F.THM_TRIP_SENSOR 0
    let s9 := (s8.wr F.GLB_PINSTAT_TRIP_DRV 0 1).emit Ev.THERM_TRIP (Un.sensor n) (wrapInt 48 (sx 8 (s8.rd F.THM_SENS_TEMP n))) 0
    let s10 := if held then (s9.wr F.THM_TRIP_HELD 0 1).emit Ev.RESTART_HELD Un.inst (s9.rd F.THM_TRIP_TRIPS 0) 0 else s9
    s10.takeWaits

/-- s with the trip complete once every pseudo-channel is in self-refresh. -/
def State.tripStep (s : State) : State := if s.power.shut = 1 && s.allRefreshed then s.finishTrip else s

/-- s with the trip sequence begun (R448 step 1): every wake, gating, darkening and calibration activity (17_calibration_and_training.md R464) is
given up, a power state's entry is dropped, and the cause of an interrupted sequence is kept for the restart (R485). -/
def State.startTrip (s : State) (region : Option Nat) : State :=
  let ph := s.phase
  let again := if (1 ≤ ph && ph ≤ 7) || ph = 9 then some s.cause else none
  let s0 := s.abandonAll (fun _ => true) 5
  let s1 := foldS (List.range 66) s0 fun t d => if t.domSt d = 1 then t.setDom d 0 else t
  let p := s1.power
  let s2 : State :=
    { s1 with power := { p with wakes := [], ramps := [], delayed := [], darkQ := [], shut := 1, region := region,
                                shutAt := s1.rd F.THM_CFG_SHUT 0, lost := false, cool := false },
              boot := { s1.boot with entry := none, entering := false, leaving := false, resume := again } }
  ((s2.shutDown 2).updDeliv).tripStep

/-! ## The darkening queue -/

/-- s with no group of triad t left to go dark. -/
def State.endDark (s : State) (t : Nat) : State := { s with power := { s.power with darkQ := Store.put [] s.power.darkQ t [] } }

/-- s with the groups of triad t that are already DARK passed over and the next one begun, or the region shut down (R434). -/
def State.nextGroup (s : State) (t : Nat) : List (List Nat) → State
  | [] => s.endDark t
  | g :: gs =>
    if g = [66] then (s.endDark t).startTrip (some t)
    else if g.all fun d => s.domSt d == 4 then State.nextGroup s t gs
    else ({ s with power := { s.power with darkQ := Store.put [] s.power.darkQ t (g :: gs) } } : State).startGroup g

/-- s with the darkening of triad t begun for a cause (0 excess, 1 second failure); a second failure carries on one under way (R430, R432). (DESIGN CHOICE: notes/assumptions/37.md.) -/
def State.startDark (s : State) (t cause : Nat) : State :=
  let q := Store.get [] s.power.darkQ t
  let s1 : State := { s with power := { s.power with darkCause := Store.put 0 s.power.darkCause t cause } }
  if q.isEmpty then s1.nextGroup t (s1.darkOrder t) else s1

/-- s after a domain of a group going dark is DARK (R432); when its whole group is, darkening moves on, or stops where the current has stayed at or
below capacity for 100 µs (200 frames of a regulator). (DESIGN CHOICE: notes/assumptions/37.md.) -/
def State.domainDark (s : State) (n : Nat) : State :=
  match (List.range 8).find? fun t => ((Store.get [] s.power.darkQ t).headD []).contains n with
  | none => s
  | some t =>
    if s.domSt n ≠ 3 then s
    else
      let cause := Store.get 0 s.power.darkCause t
      let s1 := (s.setDom n 4).emit Ev.DOMAIN_DARK (Un.domain n) cause 0
      let q := Store.get [] s1.power.darkQ t
      if !((q.headD []).all fun k => s1.domSt k == 4) then s1
      else if cause = 0 && (s1.working t).any fun r => decide (200 ≤ Store.get 0 s1.power.under r) then (s1.endDark t)
      else (s1.nextGroup t (q.drop 1))

/-! ## Telemetry (02_ports.md R68, R69; R429 to R431) -/

/-- s with regulator r failed as a whole for a cause (0 telemetry, 1 phases, 2 voltage): isolated, the others ganged; a second failure caps at level
2 and darkens the triad (R430). -/
def State.failReg (s : State) (r cause : Nat) : State :=
  if s.flag F.PWR_REG_FAILED r then s
  else
    let t := r / 3
    let s1 := ((((s.wr F.PWR_REG_FAILED r 1).command (.enable r false)).gang t).emit Ev.REG_FAIL (Un.regul r) cause 0).showTriad t
    if (s1.working t).length < 2 then (s1.setCap t 2).startDark t 1 else s1

/-- s with a frame of a failed regulator whose REENABLE runs: restored after 1 ms (2,000 frames) of good ones. -/
def State.rearmStep (s : State) (r : Nat) (good : Bool) : State :=
  match Store.get none s.power.rearm r with
  | none => s
  | some k =>
    if !good then ({ s with power := { s.power with rearm := Store.put none s.power.rearm r none } } : State).command (.enable r false)
    else if k + 1 < 2000 then { s with power := { s.power with rearm := Store.put none s.power.rearm r (some (k + 1)) } }
    else
      let s1 : State := { s with power := { s.power with rearm := Store.put none s.power.rearm r none, vrun := Store.put 0 s.power.vrun r 0 } }
      ((((s1.wr F.PWR_REG_FAILED r 0).wr F.PWR_REG_PHFAIL r 0).gang (r / 3)).emit Ev.REG_RESTORED (Un.regul r) 0 0).showTriad (r / 3)

/-- s with the phases of regulator r that have now faulted twice in a row failed. (DESIGN CHOICE: notes/assumptions/37.md.) -/
def State.failPhases (s : State) (r flags : Nat) : State :=
  let both := flags &&& Store.get 0 s.power.flt r
  let s1 : State := { s with power := { s.power with flt := Store.put 0 s.power.flt r flags } }
  foldS (List.range 6) s1 fun t p =>
    if both.testBit p && !(t.rd F.PWR_REG_PHFAIL r).testBit p then
      ((t.wr F.PWR_REG_PHFAIL r (t.rd F.PWR_REG_PHFAIL r + 2 ^ p)).command (.shed r p)).emit Ev.PHASE_FAIL (Un.regul r) p 0
    else t

/-- s with the capping of triad t brought up to date by a frame of its regulator r, once a regulator has failed (R430, R431): level 1 in the first frame
over capacity, level 2 when it is still over 2 µs (4 frames) later. (DESIGN CHOICE: notes/assumptions/37.md.) -/
def State.capStep (s : State) (t r : Nat) : State :=
  let overCap := !s.within t 100
  let n := if overCap && s.ganged t then Store.get 0 s.power.overCap r + 1 else 0
  let u := if overCap then 0 else Store.get 0 s.power.under r + 1
  let s1 : State := { s with power := { s.power with overCap := Store.put 0 s.power.overCap r n, under := Store.put 0 s.power.under r u } }
  if !overCap || !s1.ganged t then s1
  else if s1.rd F.PWR_TRI_CAPLVL t = 0 then s1.setCap t 1
  else if s1.rd F.PWR_TRI_CAPLVL t = 1 && decide (5 ≤ n) then s1.setCap t 2
  else s1

/-- s with the ramp of domain d begun (R436, R437). -/
def State.startRamp (s : State) (d : Nat) (retry slow : Bool) : State :=
  let p := s.power
  let s1 : State := { s with power := { p with wakes := p.wakes.filter (fun w => w.1 ≠ d), delayed := p.delayed.filter (· ≠ d), ramps := p.ramps ++ [(d, retry)] } }
  ((s1.setDom d 1).wrB F.PWR_DSTAT_SLOW d slow).command (.ramp (triadOf d) d slow)

/-- s with a delayed wake of triad t begun where a frame shows 85 % or less (R437). -/
def State.delayedWake (s : State) (t : Nat) : State :=
  match s.power.wakes.find? fun w => triadOf w.1 == t && s.power.delayed.contains w.1 with
  | some w => if s.within t 85 && !s.slewing t then s.startRamp w.1 w.2 true else s
  | none => s

/-- TELEMETRY_FRAME (R429 to R431, R437). A regulator that has failed only counts towards its REENABLE. (DESIGN CHOICE: notes/assumptions/12.md.) (DESIGN CHOICE: notes/assumptions/37.md.) -/
def execTelemetryFrame (r : Regul) (f : RegFrame) (s : State) : Res :=
  let n := r.val
  let t := n / 3
  let set := s.rd F.PWR_TRI_SETMV t
  let lo := decide (f.mv + 50 < set)
  let hi := decide (set + 50 < f.mv)
  let s1 := s.wr F.PWR_REG_RTEMP n (f.temp % 256)
  if s1.flag F.PWR_REG_FAILED n then .next (s1.rearmStep n (!lo && !hi && f.faults == 0))
  else
    let v := Store.get 0 s1.power.vrun n
    let v1 : Int := if s1.slewing t || (!lo && !hi) then 0 else if lo then min v 0 - 1 else max v 0 + 1
    let s2 : State :=
      { s1 with power := { s1.power with vrun := Store.put 0 s1.power.vrun n v1, curs := Store.put 0 s1.power.curs n (f.phases.foldl (· + ·) 0),
                                         mvs := Store.put 0 s1.power.mvs n f.mv } }
    let s3 := s2.failPhases n f.faults.toNat
    let s4 := if decide (3 ≤ popcount 6 (s3.rd F.PWR_REG_PHFAIL n)) then s3.failReg n 1
      else if decide (v1 ≤ -4 ∨ 4 ≤ v1) then s3.failReg n 2 else s3
    if s4.flag F.PWR_REG_FAILED n then .next s4 else .next (((s4.showTriad t).capStep t n).delayedWake t)

/-- TELEMETRY_MISSING (02_ports.md R69): four frame periods without a good frame. (DESIGN CHOICE: notes/assumptions/37.md.) -/
def execTelemetryMissing (r : Regul) (s : State) : Res := .next ((s.rearmStep r.val false).failReg r.val 0)

/-- CAP_LEVEL_DOWN (R431): twice the current has been at or below 90 % of capacity for 1 ms. -/
def execCapLevelDown (t : Triad) (s : State) : Res :=
  let n := t.val
  let l := s.rd F.PWR_TRI_CAPLVL n
  .next (if l != 0 && s.within n 45 then s.setCap n (l - 1) else s)

/-- DARKEN_START (R430 steps 3 and 4): the current has exceeded capacity in every frame for 1 ms, or a second regulator has failed. -/
def execDarkenStart (t : Triad) (s : State) : Res :=
  let n := t.val
  if s.power.shut ≠ 0 then .next s
  else if (s.working n).length < 2 then .next (s.startDark n 1)
  else if s.ganged n && !s.within n 100 && (Store.get [] s.power.darkQ n).isEmpty then .next (s.startDark n 0)
  else .next s

/-! ## Waking (R436 to R438) -/

/-- WAKE_RAMP_START: the lowest domain that waits for its triad, with no other ramp and no slew there. At the first check above 85 % of capacity the
wake is delayed; the second start is the end of the 20 µs. -/
def execWakeRampStart (d : Dom66) (s : State) : Res :=
  let n := d.val
  let t := triadOf n
  match s.power.wakes.find? fun w => w.1 = n with
  | none => .next s
  | some w =>
    if s.power.shut ≠ 0 || (s.power.ramps.any fun x => triadOf x.1 == t) || s.slewing t
        || (s.power.wakes.any fun x => triadOf x.1 == t && decide (x.1 < n)) then .next s
    else if s.power.delayed.contains n then .next (s.startRamp n w.2 true)
    else if s.within t 85 then .next (s.startRamp n w.2 w.2)
    else
      .next (({ s with power := { s.power with delayed := s.power.delayed ++ [n] } } : State).emit Ev.WAKE_DELAYED (Un.domain n) (s.triadCur t) 0)

/-- s with the doorbell writes that the pages of a woken domain hold taken (02_ports.md R52). -/
def State.takeTails (s : State) (d : Nat) : State :=
  foldS ((List.range 161).filter fun n => domOfSpout n == d) s fun t n => (t.takeTail n).kickSp n

/-- s with fabric ports that are DOWN in NEGOTIATE once the intake is powered and RESET_COMPUTE is deasserted (02_ports.md R48). -/
def State.negotiate (s : State) : State :=
  if s.domOn 63 && !s.boot.compute then foldS (List.range 8) s fun t p => if t.fpSt p = 0 then t.toNegotiate p else t else s

/-- s with domain d ON (R438), with what waited for it. -/
def State.domainUp (s : State) (d : Nat) : State :=
  let s1 := (s.setDom d 2).bump F.PWR_DSTAT_WAKES d 1
  (if d = 63 then s1.negotiate else s1).takeTails d

/-- s after the check at the end of a ramp: ON; or OFF with WAKE_FAIL and a retry with the slow ramp; or, after the retry, DARK (R438). -/
def State.rampEnd (s : State) (d : Nat) (ok : Bool) : State :=
  match s.power.ramps.find? fun w => w.1 = d with
  | none => s
  | some w =>
    let s1 : State := { s with power := { s.power with ramps := s.power.ramps.filter fun x => x.1 ≠ d } }
    if ok && !(s1.working (triadOf d)).isEmpty then s1.domainUp d
    else
      let s2 := (s1.setDom d 0).emit Ev.WAKE_FAIL (Un.domain d) 0 0
      if w.2 then ((s2.darkSteps d).setDom d 4).emit Ev.DOMAIN_DARK (Un.domain d) 2 0
      else { s2 with power := { s2.power with wakes := s2.power.wakes ++ [(d, true)] } }

/-! ## Host requests (R426, R427, R447, R451) -/

/-- s with a power write refused. -/
def State.pwrRefuse (s : State) (code idx : Nat) : State :=
  ((s.wr F.PWR_STAT_ERR 0 code).wr F.PWR_STAT_IDX 0 idx).emit Ev.PWR_CFG_REFUSED Un.inst code idx

/-- A spout is IDLE, FAULTED or HALTED with HEAD equal to TAIL. -/
def State.spoutQuiet (s : State) (n : Nat) : Bool := s.pageStopped n && (s.sp n).finish.isNone

/-- The condition of R426 for gating domain d on request. -/
def State.mayGate (s : State) (d : Nat) : Bool :=
  if 40 ≤ d ∧ d < 56 then ((List.range 161).filter fun n => domOfSpout n == d).all fun n => s.spoutQuiet n
  else if d = 59 then (List.range 16).all fun k => s.domSt (40 + k) == 0 || s.domSt (40 + k) == 4
  else if d = 62 then ((List.range 32).all fun n => s.spoutQuiet n) && !s.flag F.SLC_GERR_STOPPED 0
  else true

/-- R426 never gates domain d on request. -/
def neverOff (d : Nat) : Bool := decide (d < 40) || [58, 63, 64, 65].contains d

/-- A power state, a reset or a bring-up gates and wakes domains on its own account, and host requests wait (R426). -/
def State.powerBusy (s : State) : Bool := s.phase != 8 || s.holding || s.power.shut != 0

/-- s after a write of PWR_DCTL[d] (R426, R451). -/
def State.wPwrDctl (s : State) (d v : Nat) : State :=
  let p := s.proposed .PWR_DCTL d v false
  let on := F.PWR_DCTL_ON.of p == 1
  let n1 := F.PWR_DCTL_N1.of p
  let n2 := F.PWR_DCTL_N2.of p
  match firstCode [(!on && neverOff d, 1), (!on && !s.mayGate d, 2), (on && s.power.shut != 0, 3),
      (decide (n1 < 2 ∨ n2 < 2 ∨ n1 < n2), 4)] with
  | 0 =>
    let s1 := s.storeReg .PWR_DCTL d v false
    let s2 := foldS (requestOf d) s1 fun t k => t.wrB F.PWR_DCTL_ON k on
    let s3 := if s2.powerBusy then { s2 with power := { s2.power with late := (s2.power.late.filter (· ≠ d)) ++ [d] } } else s2.followRequest d
    s3.updDeliv
  | c => s.pwrRefuse c d

/-- DOMAIN_OFF_REQUEST (R426): a write of PWR_DCTL[d] with ON 0. -/
def execDomainOffRequest (d : Dom66) (v : Word) (s : State) : Res :=
  .next (s.hostWrite .PWR_DCTL d.val fun t => t.wPwrDctl d.val (setBits v.toNat 0 0 0))

/-- DOMAIN_ON_REQUEST (R426): a write of PWR_DCTL[d] with ON 1. -/
def execDomainOnRequest (d : Dom66) (v : Word) (s : State) : Res :=
  .next (s.hostWrite .PWR_DCTL d.val fun t => t.wPwrDctl d.val (setBits v.toNat 0 0 1))

/-- s after a write of PWR_TRI[t] (R427): the new set point is reached at 1 mV per µs. -/
def State.wPwrTri (s : State) (t v : Nat) : State :=
  let p := F.PWR_TRI_SETMV.of (s.proposed .PWR_TRI t v false)
  let (lo, hi) := voltsOf t
  if p < lo ∨ hi < p then s.pwrRefuse 5 t
  else
    let old := s.rd F.PWR_TRI_SETMV t
    let s1 := (s.storeReg .PWR_TRI t v false).command (.setPoint t p)
    { s1 with power := { s1.power with slew := Store.put 0 s1.power.slew t (if p = old then Store.get 0 s1.power.slew t else s1.time.ticks + 100 * ((p - old) + (old - p))) } }

/-- SETMV_WRITE. -/
def execSetmvWrite (t : Triad) (v : Word) (s : State) : Res := .next (s.hostWrite .PWR_TRI t.val fun u => u.wPwrTri t.val v.toNat)

/-- s after a write of PWR_REG[r]: REENABLE of a failed regulator begins its 1 ms. -/
def State.wPwrReg (s : State) (r v : Nat) : State :=
  if F.PWR_REG_REENABLE.of v = 1 && s.flag F.PWR_REG_FAILED r then
    ({ s with power := { s.power with rearm := Store.put none s.power.rearm r (some 0) } } : State).command (.enable r true)
  else s

/-- REENABLE (R429): a write of PWR_REG[r] with REENABLE 1. -/
def execReenable (r : Regul) (s : State) : Res := .next (s.hostWrite .PWR_REG r.val fun t => t.wPwrReg r.val (2 ^ 63))

/-- s after a write of PWR_CAP (R447). -/
def State.wPwrCap (s : State) (v : Nat) : State :=
  let c := F.PWR_CAP_CAP.of (s.proposed .PWR_CAP 0 v false)
  if c < 20000 ∨ 60000 < c then s.pwrRefuse 6 0 else s.storeReg .PWR_CAP 0 v false

/-- POWER_CAP_STEP (R447): the average of the last millisecond, in mW. -/
def execPowerCapStep (pavg : Nat) (s : State) : Res :=
  let s1 := s.wr F.PWR_STAT_PAVG 0 (Nat.min 0xFFFF pavg)
  let c := s.rd F.PWR_CAP_CAP 0
  let l := s.rd F.PWR_STAT_LADDER 0
  let l1 := if c < pavg then Nat.min 4 (l + 1) else if pavg * 100 ≤ c * 95 then l - 1 else l
  .next (if l1 = l then s1 else ((s1.wr F.PWR_STAT_LADDER 0 l1).emit Ev.PWR_CAP_STEP Un.inst l1 (Nat.min 0xFFFF pavg)).updDeliv)

end Sys2Proof.Machine
end

