-- ==== Sys2Proof/Machine/Thermal.lean ====
section
/-! DEFINITION. Sys2Proof/Machine/Thermal.lean: sensors, thresholds, throttling and the trip's decision (16_power_and_thermal.md R439 to R450). -/
namespace Sys2Proof.Machine

/-! ## Sensors (R439, R441) -/

/-- The neighbours of sensor n. -/
def nearOf (n : Nat) : List Nat :=
  [[1, 4, 5], [0, 2, 5], [1, 3, 6], [2, 6, 7], [0, 5, 8], [4, 6, 9], [5, 7, 10], [3, 6, 11], [4, 9, 12], [5, 8, 10], [6, 9, 11],
   [7, 10, 15], [8, 9, 13], [9, 12, 14], [10, 13, 15], [10, 11, 14]].getD n []

/-- The latest effective reading of sensor n. -/
def State.effOfSensor (s : State) (n : Nat) : Int := sx 8 (s.rd F.THM_SENS_TEMP n)
/-- Sensor n is excluded. -/
def State.excl (s : State) (n : Nat) : Bool := s.flag F.THM_SENS_EXCL n
/-- How many sensors are excluded. -/
def State.exclCount (s : State) : Nat := ((List.range 16).filter fun n => s.excl n).length

/-- The largest of a list of readings, or d of none. -/
def maxI (d : Int) : List Int → Int
  | [] => d
  | a :: l => l.foldl max a

/-- The middle reading of three. -/
def median3 (l : List Int) : Int :=
  match l with
  | [a, b, c] => max (min a b) (min (max a b) c)
  | _ => 0

/-- An eight-bit register field of a reading, which stops at the ends of its range (DESIGN CHOICE: notes/assumptions/27.md). -/
def tempField (t : Int) : Nat := wrapInt 8 (max (-128) (min 127 t))

/-- A raw reading that counts: the conversion succeeded within −40 to 150 °C. -/
def goodRaw (r : Option Int) : Option Int := r.filter fun t => decide (-40 ≤ t ∧ t ≤ 150)

/-- s with THM_STAT listing the excluded sensors. -/
def State.showExcl (s : State) : State :=
  s.wr F.THM_STAT_EXCL 0 ((List.range 16).foldl (fun a n => a + (if s.excl n then 2 ^ n else 0)) 0)

/-- s with the raw and effective readings of a sample; a failed conversion leaves its sensor's readings as they are. An excluded sensor takes the
maximum of its neighbours, an excluded neighbour with its value of the sample before. (DEDUCED: notes/assumptions/38.md.) -/
def State.takeReadings (s : State) (raw : List (Option Int)) : State :=
  let s1 := foldS (List.range 16) s fun t n =>
    match goodRaw (raw.getD n none) with
    | some v => t.wr F.THM_SENS_RAW n (tempField v)
    | none => t
  let own := fun (n : Nat) => if s1.excl n then s.effOfSensor n else sx 8 (s1.rd F.THM_SENS_RAW n)
  foldS (List.range 16) s1 fun t n =>
    t.wr F.THM_SENS_TEMP n (tempField (if s1.excl n then maxI 0 ((nearOf n).map own) else own n))

/-- s with each sensor tested against the median of its neighbours (R441): excluded after 16 samples in a row, untested with two or more excluded
neighbours. (DEDUCED: notes/assumptions/38.md.) -/
def State.testSensors (s : State) (raw : List (Option Int)) : State :=
  foldS (List.range 16) s fun t n =>
    if t.excl n || decide (2 ≤ ((nearOf n).filter fun k => s.excl k).length) then t
    else
      let odd := match goodRaw (raw.getD n none) with
        | some v => decide (8 < v - median3 ((nearOf n).map fun k => s.effOfSensor k) ∨ 8 < median3 ((nearOf n).map fun k => s.effOfSensor k) - v)
        | none => true
      let k := if odd then Store.get 0 t.power.sensBad n + 1 else 0
      let t1 : State := { t with power := { t.power with sensBad := Store.put 0 t.power.sensBad n (if 16 ≤ k then 0 else k) } }
      if 16 ≤ k then (t1.wr F.THM_SENS_EXCL n 1).emit Ev.SENSOR_EXCLUDED (Un.sensor n) 0 0 else t1

/-! ## Levels (R443, R444) -/

/-- The thermal level of clock c: 0 rill by the die, 1 to 4 the jet groups, 5 font, 6 rill by the stack. -/
def State.thmLvl (s : State) (c : Nat) : Nat := Store.get 0 s.power.lvls c
/-- s with it set. -/
def State.setThmLvl (s : State) (c l : Nat) : State := { s with power := { s.power with lvls := Store.put 0 s.power.lvls c l } }

/-- The sensors that govern clock c. -/
def governs (c : Nat) : List Nat :=
  if c = 0 then [0, 1, 2, 3, 4, 5, 6, 7, 12, 13, 14, 15] else if c < 5 then [7 + c] else [14]

/-- The reading that decides clock c's level. -/
def State.ruling (s : State) (c : Nat) : Int :=
  if c = 6 then sx 8 (s.rd F.SCH_STAT_STEMP 0) else maxI 0 ((governs c).map fun n => s.effOfSensor n)

/-- The throttle threshold of clock c. -/
def throttleOf (c : Nat) : Int := if c = 6 then 95 else 105

/-- The hysteresis. -/
def State.hyst (s : State) : Int := (s.rd F.THM_CFG_HYST 0 : Nat)

/-- s with THM_STAT showing the levels, THM_THROTTLE for each that changed, and the deliverable bandwidth: the rill clock takes the higher of die and
stack, and five excluded sensors hold the rill clock and every jet group at level 1 or higher (R441). (DEDUCED: notes/assumptions/38.md.) -/
def State.showLevels (s : State) : State :=
  let q := if 5 ≤ s.exclCount then 1 else 0
  let rill := Nat.max q (Nat.max (s.thmLvl 0) (s.thmLvl 6))
  let s1 := (s.wr F.THM_STAT_RILLLVL 0 rill).wrB F.THM_STAT_STACKTHR 0 (decide (0 < s.thmLvl 6))
  let s2 := if rill = s.rd F.THM_STAT_RILLLVL 0 then s1 else s1.emit Ev.THM_THROTTLE Un.inst 0 rill
  let old := s.rd F.THM_STAT_JETLVL 0
  let s3 := foldS (List.range 4) s2 fun t g =>
    let l := Nat.max q (t.thmLvl (g + 1))
    let t1 := t.wr F.THM_STAT_JETLVL 0 (setBits (t.rd F.THM_STAT_JETLVL 0) (2 * g + 1) (2 * g) l)
    if l = bits old (2 * g + 1) (2 * g) then t1 else t1.emit Ev.THM_THROTTLE Un.inst (g + 1) l
  s3.updDeliv

/-- s with the level of clock c after a reading (R444): 0 to 1 at the threshold, 1 to 2 at 6 °C above it for a die sensor's clock. (DEDUCED: notes/assumptions/38.md.) -/
def State.raiseLvl (s : State) (c : Nat) : State :=
  let t := s.ruling c
  let l := s.thmLvl c
  let l1 := if l = 0 && decide (throttleOf c ≤ t) then 1 else l
  let l2 := if l1 = 1 && c != 6 && decide (throttleOf c + 6 ≤ t) then 2 else l1
  if l2 = l then s
  else
    let s1 := s.setThmLvl c l2
    if c = 5 then s1.emit Ev.THM_THROTTLE Un.inst 5 l2 else s1

/-- THERMAL_LEVEL_TIMER (R444): clock clk's reading has stayed for 10 ms at level 1 at or above the threshold, at level 2 below it, or at level 1 at or
below the threshold less HYST. (DESIGN CHOICE: notes/assumptions/10.md.) -/
def execThermalLevelTimer (clk : Fin 7) (s : State) : Res :=
  let c := clk.val
  let t := s.ruling c
  let th := throttleOf c
  let l := s.thmLvl c
  let l1 := if l = 1 && decide (th ≤ t) then 2 else if l = 2 && decide (t < th) then 1 else if l = 1 && decide (t ≤ th - s.hyst) then 0 else l
  if l1 = l then .next s
  else
    let s1 := s.setThmLvl c l1
    .next (if c = 5 then s1.emit Ev.THM_THROTTLE Un.inst 5 l1 else s1.showLevels)

/-- s with the warning of sensor n raised or cleared (R443). (DEDUCED: notes/assumptions/38.md.) -/
def State.warnStep (s : State) (n : Nat) : State :=
  let t := s.effOfSensor n
  let was := s.power.warned.contains n
  if !was && decide (95 ≤ t) then
    ({ s with power := { s.power with warned := s.power.warned ++ [n] } } : State).emit Ev.THM_WARN (Un.sensor n) (wrapInt 48 t) 0
  else if was && decide (t ≤ 95 - s.hyst) then
    ({ s with power := { s.power with warned := s.power.warned.filter (· ≠ n) } } : State).emit Ev.THM_WARN_CLEAR (Un.sensor n) (wrapInt 48 t) 0
  else s

/-- s with MAXT and FAST brought up to date (R440). -/
def State.showTemps (s : State) : State :=
  let ts := (List.range 16).map fun n => s.effOfSensor n
  let shut : Int := (s.rd F.THM_CFG_SHUT 0 : Nat)
  let near := fun (th t : Int) => decide (th - 6 ≤ t ∧ t ≤ th + 6)
  (s.wr F.THM_STAT_MAXT 0 (tempField (maxI 0 ts))).wrB F.THM_STAT_FAST 0 (ts.any fun t => near 95 t || near 105 t || near shut t)

/-! ## The trip (R448 to R450) -/

/-- s with the trip that sensor n decides begun, its record written. (DEDUCED: notes/assumptions/38.md.) -/
def State.trip (s : State) (n : Nat) : State :=
  let peak := maxI 0 ((List.range 16).map fun k => s.effOfSensor k)
  let s1 := ((s.wr F.THM_TRIP_SENSOR 0 n).wr F.THM_TRIP_PEAK 0 (tempField peak)).wr F.THM_TRIP_LASTSEC 0 (s.wall / 1000000000 % 2 ^ 32)
  let s2 := s1.bump F.THM_TRIP_TRIPS 0 1
  let hour := s2.power.trips.filter fun w => decide (s2.wall < w + 3600000000000)
  ({ s2 with power := { s2.power with trips := hour ++ [s2.wall] } } : State).startTrip none

/-- s during a trip: the highest reading, a pad sensor above 125 °C (R449), and the temperature condition of the restart broken (R450). -/
def State.duringTrip (s : State) : State :=
  let ts := (List.range 16).map fun n => s.effOfSensor n
  let s1 := if s.power.region = none && decide (sx 8 (s.rd F.THM_TRIP_PEAK 0) < maxI 0 ts) then s.wr F.THM_TRIP_PEAK 0 (tempField (maxI 0 ts)) else s
  let bad := !s1.power.lost && (List.range 4).any fun n => decide (125 < s1.effOfSensor n)
  let s2 := if bad then ({ s1 with power := { s1.power with lost := true } } : State).emit Ev.STACK_RETENTION Un.inst 2 0 else s1
  if ts.any fun t => decide ((s2.power.shutAt : Int) < t + 25) then { s2 with power := { s2.power with cool := false } } else s2

/-- s with the trip decided where the readings call for it: one sensor at SHUT in two samples in a row, or two in one sample. (DEDUCED: notes/assumptions/38.md.) -/
def State.decideTrip (s : State) : State :=
  let shut : Int := (s.rd F.THM_CFG_SHUT 0 : Nat)
  let now := (List.range 16).filter fun n => decide (shut ≤ s.effOfSensor n)
  let twice := now.filter fun n => s.power.hot.contains n
  let s1 : State := { s with power := { s.power with hot := now } }
  if s1.power.shut ≠ 0 || s1.phase = 0 then s1
  else
    match twice, now with
    | n :: _, _ => s1.trip n
    | [], n :: _ :: _ => s1.trip n
    | _, _ => s1

/-- SENSOR_SAMPLE (R440): the sixteen raw readings of a sample. (DESIGN CHOICE: notes/assumptions/12.md.) -/
def execSensorSample (raw : List (Option Int)) (s : State) : Res :=
  let s1 := ((s.takeReadings raw).testSensors raw).showExcl
  let quorum := decide (5 ≤ s1.exclCount)
  let s2 := if quorum && !s1.power.quorum then s1.emit Ev.SENSOR_QUORUM Un.inst (s1.rd F.THM_STAT_EXCL 0) 0 else s1
  let s3 : State := { s2 with power := { s2.power with quorum := quorum } }
  let s4 := foldS (List.range 16) s3.showTemps fun t n => t.warnStep n
  let s5 := (foldS (List.range 6) s4 fun t c => t.raiseLvl c).showLevels
  let s6 := s5.decideTrip
  .next (if s6.power.shut ≠ 0 then s6.duringTrip else s6)

/-- TRIP_GATE_TIMEOUT (R448): 100 µs after the decision the domains are gated regardless. (DESIGN CHOICE: notes/assumptions/10.md.) -/
def execTripGateTimeout (s : State) : Res := .next (if s.power.shut = 1 then s.finishTrip else s)

/-- STACK_TEMP_READ (10_rills.md R295; R444): the hot state, the rill clock's stack level, and STACK_THROTTLE once in 1,000 readings above 95 °C. (DEDUCED: notes/assumptions/38.md.) -/
def execStackTempRead (reading : Option (BitVec 8)) (s : State) : Res :=
  let s1 := s.stackTemp reading
  match reading with
  | none => .next s1
  | some t =>
    let s2 := (s1.raiseLvl 6).showLevels
    if t.toInt ≤ 95 then .next { s2 with power := { s2.power with stackRun := 0 } }
    else
      let k := s2.power.stackRun
      let s3 : State := { s2 with power := { s2.power with stackRun := (k + 1) % 1000 } }
      .next (if k = 0 then s3.emit Ev.STACK_THROTTLE Un.inst (wrapInt 48 t.toInt) 0 else s3)

/-! ## Registers -/

/-- s after a write of THM_SENS[n] (R441): EXCL 1 returns the sensor to service. -/
def State.wThmSens (s : State) (n v : Nat) : State :=
  if F.THM_SENS_EXCL.of v = 1 then
    ({ (s.wr F.THM_SENS_EXCL n 0) with power := { s.power with sensBad := Store.put 0 s.power.sensBad n 0 } }).showExcl.showLevels
  else s

/-- SENSOR_RETURN (R441): a write of THM_SENS[n] with EXCL 1. -/
def execSensorReturn (n : Fin 16) (s : State) : Res := .next (s.hostWrite .THM_SENS n.val fun t => t.wThmSens n.val (2 ^ 16))

/-- s after a write of THM_CFG (R443): SHUT within 110 to 125, HYST not 0. -/
def State.wThmCfg (s : State) (v : Nat) : State :=
  let p := s.proposed .THM_CFG 0 v false
  let shut := F.THM_CFG_SHUT.of p
  match firstCode [(decide (shut < 110 ∨ 125 < shut), 1), (F.THM_CFG_HYST.of p == 0, 2)] with
  | 0 => s.storeReg .THM_CFG 0 v false
  | c => (s.wr F.THM_STAT_ERR 0 c).emit Ev.THM_CFG_REFUSED Un.inst c 0

end Sys2Proof.Machine
end

