-- ==== Sys2Proof/Machine/Services.lean ====
section
/-! DEFINITION. Sys2Proof/Machine/Services.lean: the font's services (19_cascade_and_services.md): service calls (R516 to R518), the mailboxes
(R519), the configuration block and the key slots (R520, R522), firmware (R524), the pool (R532 to R535), assay in service (R538). -/
namespace Sys2Proof.Machine

/-! ## Service calls (R516 to R518) -/

/-- The FUNC values of R517. -/
def svcFuncs : List Nat := [0x100, 0x101, 0x102, 0x103, 0x104, 0x105, 0x106, 0x107, 0x200]

/-- The font's domain is ON and the service firmware runs. -/
def State.serviceOn (s : State) : Bool := s.domOn 64 && s.flag F.FNT_FWCTL_RUNNING 0

/-- The class of a label is not enabled for the service of FUNC in the configuration block; without a valid block nothing is denied. -/
def State.svcDenied (s : State) (func label : Nat) : Bool :=
  s.flag F.FNT_SVCBASE_VALID 0 && !(wordAt s.font.cfg 5).testBit (classOf label + if func = 0x200 then 16 else 0)

/-- The fault of a service call (R518), or 0. -/
def State.svcFault (s : State) (func label : Nat) (post : Bool) : Nat :=
  firstCode [(!svcFuncs.contains func, 0x78), (!s.serviceOn, 0x79), (post && decide (64 ≤ s.font.calls.length), 0x7A), (s.svcDenied func label, 0x7B)]

/-- s with a service call at the end of the font's calls; those beyond the queue's 64 wait for room. -/
def State.addCall (s : State) (c : SvcCall) : State := { s with font := { s.font with calls := s.font.calls ++ [c] } }

/-- The four arguments g[GA] to g[(GA + 3) mod 16]. -/
def Spout.svcArgs (x : Spout) (ga : Nat) : List Nat := (List.range 4).map fun k => x.gv ((ga + k) % 16)

/-- The registers of the four arguments. -/
def svcRegs (ga : Nat) : List Nat := (List.range 4).map fun k => (ga + k) % 16

/-- SVC.CALL (R516; 09_transactions.md R269). (DEDUCED: notes/assumptions/39.md.) -/
def execSvcCall (h : Hdr) (func : BitVec 16) (ga gd : BitVec 4) (s : State) : Res :=
  let n := h.sp.val
  let f := func.toNat
  .next (s.issue1 h (.svcCall h func ga gd) .svc { Use.none with names := svcRegs ga.toNat ++ [gd.toNat, (gd.toNat + 1) % 16] } fun t =>
    let x := t.sp n
    if x.tx.isSome then t.txBars n 0x0C
    else
      match t.svcFault f x.cmd.label false with
      | 0 =>
        let c : SvcCall := { sp := n, func := f, args := x.svcArgs ga.toNat, call := true, gd := gd.toNat }
        ((t.addCall c).updSp n fun y => { y with waiting := .service, waitPc := x.nextPc h }).setSpSt n 3
      | c => t.fault n c 0 0)

/-- SVC.POST (R516). -/
def execSvcPost (h : Hdr) (func : BitVec 16) (ga : BitVec 4) (s : State) : Res :=
  let n := h.sp.val
  let f := func.toNat
  .next (s.issue1 h (.svcPost h func ga) .svc { Use.none with names := svcRegs ga.toNat } fun t =>
    let x := t.sp n
    if x.tx.isSome then t.txBars n 0x0C
    else
      match t.svcFault f x.cmd.label true with
      | 0 => (t.addCall { sp := n, func := f, args := x.svcArgs ga.toNat, call := false, gd := 0 }).done h
      | c => t.fault n c 0 0)

/-- The call that the font serves: the oldest, while its firmware runs and its answer is not worked out. -/
def State.headCall (s : State) : Option SvcCall := if s.serviceOn && s.font.answer.isNone then s.font.calls.head? else none

/-- The font serves FUNC with these arguments. -/
def State.serving (s : State) (func : Nat) (args : List Nat) : Bool :=
  match s.headCall with
  | some c => c.func == func && c.args.take args.length == args
  | none => false

/-- s with the answer of the call being served: status, value, second value. -/
def State.svcReply (s : State) (st v w : Nat) : State := { s with font := { s.font with answer := some (st, v, w) } }

/-- SVC_ANSWER (R516): the status word to g[GD] and the second value to the next register of the caller that still waits; the call leaves the
queue. -/
def execSvcAnswer (s : State) : Res :=
  match s.font.calls, s.font.answer with
  | c :: l, some (st, v, w) =>
    let s1 : State := { s with font := { s.font with calls := l, answer := none } }
    let x := s1.sp c.sp
    if c.call && x.waiting == .service then
      let put := fun (y : Spout) => { (y.setG c.gd (st * 2 ^ 56 + v % 2 ^ 32)).setG ((c.gd + 1) % 16) w with waiting := .none }
      .next (((s1.updSp c.sp put).wakeSp c.sp).goto c.sp x.waitPc)
    else .next s1
  | _, _ => .next s

/-! ## The pool (R532 to R535) -/

/-- The pool's areas are configured. -/
def State.poolOn (s : State) : Bool := s.flag F.FNT_SVCBASE_VALID 0 && wordV (wordAt s.font.cfg 1) && wordV (wordAt s.font.cfg 2)

/-- The page of a handle. -/
def State.page (s : State) (h : Nat) : Option PoolPage := s.font.pages.find? fun p => p.handle = h

/-- s with the page of a handle replaced, or taken away. -/
def State.setPage (s : State) (h : Nat) (p : Option PoolPage) : State :=
  { s with font := { s.font with pages := s.font.pages.filterMap fun q => if q.handle = h then p else some q } }

/-- The package address of a local page. -/
def State.pageAddr (s : State) (p : PoolPage) : Nat := s.me * 2 ^ 37 + p.addr

/-- The lowest free place of 2^e bytes, aligned to its size, in an area that starts at lo with n bytes, given the places taken. (DEDUCED: notes/assumptions/40.md.) -/
def freePlace (lo n e : Nat) (used : List (Nat × Nat)) : Option Nat :=
  let z := 2 ^ e
  let fits := fun (a : Nat) => decide (a + z ≤ lo + n) && !(used.any fun u => decide (a < u.2 ∧ u.1 < a + z))
  let cand := (lo :: used.map (·.2)).map fun a => (a + z - 1) / z * z
  (cand.filter fits).foldl (fun b a => match b with
    | none => some a
    | some c => some (Nat.min a c)) none

/-- A free place of 2^e bytes in the arena. (DEDUCED: notes/assumptions/40.md.) -/
def State.arenaPlace (s : State) (e : Nat) : Option Nat :=
  let w := wordAt s.font.cfg 1
  freePlace (bits w 36 21 * unit2M) (bits w 60 48 * unit2M) e
    (s.font.pages.filterMap fun p => if p.spill.isNone then some (p.addr, p.addr + 2 ^ p.s) else none)

/-- The blocks of a freed page take a dead hint (R532). -/
def State.freeBlocks (s : State) (a e : Nat) : State := s.deadPoint (a / 4096) ((a + 2 ^ e) / 4096)

/-- s with a call that names a live page answered by f, and BAD_HANDLE or NOT_CONFIGURED otherwise. -/
def State.onPage (s : State) (h : Nat) (f : PoolPage → State) : State :=
  if !s.poolOn then s.svcReply 8 0 0
  else
    match s.page h with
    | none => s.svcReply 3 0 0
    | some p => f p

/-- POOL_ALLOC (R533): a new page of count 1 at the lowest free place, under the next unused handle. (DEDUCED: notes/assumptions/40.md.) -/
def execPoolAlloc (sexp : Nat) (s : State) : Res :=
  if !s.serving 0x100 [sexp] then .next s
  else if !s.poolOn then .next (s.svcReply 8 0 0)
  else if sexp < 12 ∨ 21 < sexp then .next (s.svcReply 4 0 0)
  else
    match s.arenaPlace sexp with
    | none => .next (s.svcReply 1 0 0)
    | some a =>
      let f := s.font
      let cand := (List.range (f.pages.length + 1)).map fun k => (f.nextPage + k) % 2 ^ 32
      let h := (cand.find? fun k => !(f.pages.any fun p => p.handle = k)).getD 0
      let p : PoolPage := { handle := h, s := sexp, addr := a, count := 1, spill := none, hash := none }
      let s1 : State := { s with font := { f with pages := f.pages ++ [p], nextPage := (h + 1) % 2 ^ 32 } }
      .next (s1.svcReply 0 h (s1.pageAddr p))

/-- s with a reference added to a page, or REF_OVERFLOW answered; `v` is the second value. -/
def State.addRef (s : State) (p : PoolPage) (v : Nat) : State :=
  if 65535 ≤ p.count then s.svcReply 5 0 0 else (s.setPage p.handle (some { p with count := p.count + 1 })).svcReply 0 p.handle v

/-- POOL_ADDREF (R533). -/
def execPoolAddref (handle : Nat) (s : State) : Res :=
  .next (if s.serving 0x101 [handle] then s.onPage handle fun p => s.addRef p (p.count + 1) else s)

/-- s with a reference of a page given up; the last one frees it. (DEDUCED: notes/assumptions/40.md.) -/
def State.release (s : State) (p : PoolPage) : State :=
  if p.count ≤ 1 then
    let s1 := s.setPage p.handle none
    if p.spill.isNone then s1.freeBlocks p.addr p.s else s1
  else s.setPage p.handle (some { p with count := p.count - 1 })

/-- POOL_RELEASE (R533). -/
def execPoolRelease (handle : Nat) (s : State) : Res :=
  .next (if s.serving 0x102 [handle] then s.onPage handle fun p => (s.release p).svcReply 0 handle (p.count - 1) else s)

/-- One word of the content hash (R534). -/
def hashStep (h w : Nat) : Nat :=
  let m := 2 ^ 64
  let x := h ^^^ w
  let x1 := (x ^^^ (x >>> 30)) * 0xBF58476D1CE4E5B9 % m
  let x2 := (x1 ^^^ (x1 >>> 27)) * 0x94D049BB133111EB % m
  x2 ^^^ (x2 >>> 31)

/-- The content hash of the bytes of a page, n words from the front, over an accumulator. -/
def contentHash : Nat → Bytes → Nat → Nat
  | 0, _, h => h
  | n + 1, l, h => contentHash n (l.drop 8) (hashStep h (leNat (l.take 8)))

/-- POOL_PUBLISH (R534): merging with an equal published page, or publishing. A page whose bytes cannot be read answers BUSY. (DEDUCED: notes/assumptions/40.md.) -/
def execPoolPublish (handle : Nat) (s : State) : Res :=
  if !s.serving 0x103 [handle] then .next s
  else
    .next (s.wholly fun s => s.onPage handle fun p =>
      if p.spill.isSome then s.svcReply 9 0 0
      else
        match s.fontRead p.addr (2 ^ p.s) with
        | (s1, none) => s1.svcReply 7 0 0
        | (s1, some d) =>
          let h := contentHash (2 ^ p.s / 8) d p.s
          let same := s1.font.pages.filter fun q => q.handle ≠ p.handle && q.hash == some h && q.s == p.s && q.spill.isNone
          let (s2, hit) := same.foldl (fun (acc : State × Option PoolPage) q =>
            if acc.2.isSome then acc
            else
              match acc.1.fontRead q.addr (2 ^ q.s) with
              | (t, some e) => (t, if e = d then some q else none)
              | (t, none) => (t, none)) (s1, none)
          match hit with
          | some q => if 65535 ≤ q.count then s2.svcReply 5 0 0
                      else ((s2.setPage q.handle (some { q with count := q.count + 1 })).release p).svcReply 0 q.handle h
          | none =>
            if p.hash.isNone && decide (1048576 ≤ (s2.font.pages.filter fun q => q.hash.isSome).length) then s2.svcReply 0xA 0 0
            else (s2.setPage p.handle (some { p with hash := some h })).svcReply 0 p.handle h)

/-- POOL_LOOKUP (R534): a published page of the hash and size gains a reference. (DEDUCED: notes/assumptions/40.md.) -/
def execPoolLookup (hash : Word) (sexp : Nat) (s : State) : Res :=
  if !s.serving 0x104 [hash.toNat, sexp] then .next s
  else if !s.poolOn then .next (s.svcReply 8 0 0)
  else
    match s.font.pages.find? fun p => p.hash == some hash.toNat && p.s == sexp with
    | none => .next (s.svcReply 2 0 0)
    | some p => if p.spill.isSome then .next (s.svcReply 9 0 0) else .next (s.addRef p (s.pageAddr p))

/-- The spill area is configured. -/
def State.spillOn (s : State) : Bool := s.poolOn && wordV (wordAt s.font.cfg 3)

/-- A free place of 2^e bytes in this instance's share of the spill area of a node (R535). -/
def State.spillPlace (s : State) (node e : Nat) : Option Nat :=
  let w := wordAt s.font.cfg 3
  let size := bits w 60 48 * unit2M
  freePlace (bits w 36 21 * unit2M + s.node * (size / 64)) (size / 64) e
    (s.font.pages.filterMap fun p => match p.spill with
      | some (k, a) => if k = node then some (a, a + 2 ^ p.s) else none
      | none => none)

/-- POOL_EVICT (R535): the page is copied to the share on the partner, every write acknowledged, and the local copy freed. (DEDUCED: notes/assumptions/40.md.) -/
def execPoolEvict (handle node : Nat) (acked : Bool) (s : State) : Res :=
  if !s.serving 0x105 [handle, node] then .next s
  else
    .next (s.onPage handle fun p =>
      if !s.spillOn then s.svcReply 8 0 0
      else if p.spill.isSome then s.svcReply 9 0 0
      else if decide (64 ≤ node) || !(s.route node == 1 || s.route node == 2) then s.svcReply 6 0 0
      else
        match s.spillPlace node p.s with
        | none => s.svcReply 1 0 0
        | some a =>
          if !acked then s.svcReply 6 0 0
          else ((s.setPage handle (some { p with spill := some (node, a) })).freeBlocks p.addr p.s).svcReply 0 handle 0)

/-- POOL_FETCH (R535): the page's data, as the partner returned it, in a new local place; data of another length means that the partner did
not answer. (DEDUCED: notes/assumptions/40.md.) -/
def execPoolFetch (handle : Nat) (data : Bytes) (s : State) : Res :=
  if !s.serving 0x106 [handle] then .next s
  else
    .next (s.wholly fun s => s.onPage handle fun p =>
      if p.spill.isNone then s.svcReply 0 handle (s.pageAddr p)
      else if !s.spillOn then s.svcReply 8 0 0
      else
        match s.arenaPlace p.s with
        | none => s.svcReply 1 0 0
        | some a =>
          if data.length ≠ 2 ^ p.s then s.svcReply 6 0 0
          else
            let q := { p with addr := a, spill := none }
            ((s.fontWrite a data).setPage handle (some q)).svcReply 0 handle (s.pageAddr q))

/-- POOL_ADDR (R533). (DEDUCED: notes/assumptions/40.md.) -/
def execPoolAddr (handle : Nat) (s : State) : Res :=
  .next (if s.serving 0x107 [handle] then
      s.onPage handle fun p => if p.spill.isSome then s.svcReply 9 0 0 else s.svcReply 0 handle (s.pageAddr p)
    else s)

/-! ## Mailboxes (R519; 02_ports.md R71) -/

/-- Word w of host request slot i. -/
def State.mboxW (s : State) (i w : Nat) : Nat := Store.get 0 s.font.mbox (i * 8 + w)

/-- The response words: FUNC, TAG and STATUS, then the results. -/
def mboxReply (w0 st : Nat) (results : List Nat) : List Nat :=
  (bits w0 63 32 * 2 ^ 32 + st * 2 ^ 24) :: (results ++ List.replicate (7 - results.length) 0)

/-- s with the request of host slot i answered, and MBOX_DONE. (DEDUCED: notes/assumptions/39.md.) -/
def State.mboxDone (s : State) (i st : Nat) (results : List Nat) : State :=
  let w0 := s.mboxW i 0
  let l := mboxReply w0 st results
  let r := (List.range 8).foldl (fun m k => Store.put 0 m (i * 8 + k) (l.getD k 0)) s.font.resp
  (({ s with font := { s.font with resp := r, mboxBusy := s.font.mboxBusy.filter (· ≠ i) } } : State)).emit Ev.MBOX_DONE Un.inst i (bits w0 47 32)

/-- The status with which the font answers a host request at once, or 0 where it serves it: an unknown function, or an argument out of range. -/
def mboxCheck (func a b : Nat) : Nat :=
  match func with
  | 1 => 0
  | 2 => if a < 64 then 0 else 2
  | 3 => if a < 64 ∧ b ≤ 1 then 0 else 2
  | _ => 1

/-- s after a host write of word 0 of slot i. -/
def State.mboxSubmit (s : State) (i v : Nat) : State :=
  if !s.answers 0x900000 || s.font.mboxBusy.contains i then s.decerr
  else
    let s1 : State := { s with font := { s.font with mbox := Store.put 0 s.font.mbox (i * 8) v, mboxBusy := s.font.mboxBusy ++ [i] } }
    match mboxCheck (bits v 63 48) (s1.mboxW i 1) (s1.mboxW i 2) with
    | 0 => s1.ok
    | c => (s1.mboxDone i c []).ok

/-- MAILBOX_SUBMIT (R519). -/
def execMailboxSubmit (slot : Fin 8) (word : Word) (s : State) : Res := .next (s.mboxSubmit slot.val word.toNat)

/-- BMC_MESSAGE (R71): stored, or refused with NACK while 8 wait. -/
def execBmcMessage (words : List Word) (s : State) : Res :=
  if 8 ≤ s.font.bmc.length then .next { s with font := { s.font with bmcAck := false } }
  else .next { s with font := { s.font with bmc := s.font.bmc ++ [words], bmcAck := true } }

/-- The results of STATUS: role and manager, CAP, PAVG, MAXT, OPENPCS, the capacity, RSTATE. (DEDUCED: notes/assumptions/39.md.) -/
def State.statusWords (s : State) : List Nat :=
  [s.role * 16 + s.mgr, s.rd F.PWR_CAP_CAP 0, s.rd F.PWR_STAT_PAVG 0, s.rd F.THM_STAT_MAXT 0, s.rd F.GLB_BOOTSTAT_OPENPCS 0, s.cap,
   s.rd F.AQD_RING_RSTATE 0]

/-- The oldest host request that the font serves and whose function and first argument are given. -/
def State.mboxFind (s : State) (func : Nat) (arg : Option Nat) : Option Nat :=
  s.font.mboxBusy.find? fun i => bits (s.mboxW i 0) 63 48 == func && (arg.isNone || arg == some (s.mboxW i 1))

/-- s with the oldest board message answered: STATUS, DENIED for a function of the host's, BAD_FUNC for any other. -/
def State.bmcServe (s : State) : State :=
  match s.font.bmc with
  | [] => s
  | m :: l =>
    let w0 := (m.headD 0).toNat
    let f := bits w0 63 48
    let r := if f = 1 then mboxReply w0 0 s.statusWords else mboxReply w0 (if f = 2 ∨ f = 3 then 4 else 1) []
    { s with font := { s.font with bmc := l, bmcResp := s.font.bmcResp ++ [r] } }

/-- STATUS (R519): the oldest STATUS request of the host, and otherwise the oldest board message, which waits before phase 8 (18_bringup_reset_lowpower.md
R476). (DEDUCED: notes/assumptions/39.md.) -/
def execStatus (s : State) : Res :=
  if !s.domOn 64 then .next s
  else
    match s.mboxFind 1 none with
    | some i => .next (s.mboxDone i 0 s.statusWords)
    | none => .next (if s.phase = 8 then s.bmcServe else s)

/-- s with a pseudo-channel's queue and merges served and its banks closed. -/
def State.quietPc (s : State) (n : Nat) : State :=
  let s1 := foldS (s.pc n).merges s fun t m => t.endMerge m [] true
  ((s1.flushPc n).closeAll n).dropFlights n

/-- s with the granules of a page read through the decoder and written back (12_data_integrity.md R359 steps 1 and 3): an uncorrectable one as
the marker; a remapped one lies in its slot. -/
def State.rewritePage (s : State) (n : Nat) (p : PageRepair) : State :=
  foldS (List.range 15) s fun t k =>
    match t.map.addrOf ⟨n, p.page, k⟩ with
    | none => t
    | some a =>
      let g := a / 64
      if (t.remapOf (t.gloc g)).isSome then t
      else
        let w := flipBytes (t.stored g) ((p.flips.filter fun f => f.1 = k).map fun f => (f.2.1, f.2.2))
        match t.decode g (2 ^ 64 - 1) w 5 0 .none with
        | (u, .data d _) => u.storeBack g (if u.inWindow g then d ++ winRepair (w.take 64) (w.drop 68) else d)
        | (u, _) => u.storeMarker g

/-- s with one page of a pseudo-channel's list repaired: no attempt where two have failed or the bank has no spare row (12_data_integrity.md R359). -/
def State.assayPage (s : State) (n : Nat) (p : PageRepair) : State :=
  let tried := p.ended != .noRow && (s.pendOf n p.page).any fun i => decide (s.rd F.RAS_PEND_TRIES i < 2)
  (if tried then (s.rewritePage n p).chargeAssay 45 else s).repairPage n p.page p.ended

/-- ASSAY_REPAIR (R538): the pages of the pending repair list repaired as `repairs` says, and a short sweep; STATE unless the pseudo-channel is
OPEN. (DEDUCED: notes/assumptions/39.md.) -/
def execAssayRepair (pc : Pc) (repairs : List PageRepair) (sweepOk : Bool) (s : State) : Res :=
  let n := pc.val
  if !s.domOn 64 then .next s
  else
    match s.mboxFind 2 (some n) with
    | none => .next s
    | some i =>
      if s.pcSt n ≠ 1 then .next (s.mboxDone i 3 [])
      else
        let mine := repairs.filter fun r => (s.pendOf n r.page).isSome
        let s1 := foldS mine ((s.quietPc n).wr F.PC_STAT_STATE n 0) fun t r => t.assayPage n r
        let good := (mine.filter fun r => r.ended == .done).length
        .next ((s1.outOfSelfRefresh n sweepOk sweepOk).mboxDone i 0 [good, mine.length - good])

/-- ASSAY_TEST (R538): the test of 18_bringup_reset_lowpower.md R478 on one pseudo-channel, its data destroyed; STATE while a fabric port is OPEN. -/
def execAssayTest (pc : Pc) (f : Findings) (s : State) : Res :=
  let n := pc.val
  if !s.domOn 64 then .next s
  else
    match s.mboxFind 3 (some n) with
    | none => .next s
    | some i =>
      if s.anyOpen then .next (s.mboxDone i 3 [])
      else
        let s1 := (s.quietPc n).dropLines (fun l => (s.map.chunk l.chunk).1 = n) 1
        let s2 := { s1 with basin := { s1.basin with buffer := s1.basin.buffer.filter fun l => (s.map.chunk l.chunk).1 ≠ n } }
        let (s3, ok, rows, ents) := s2.assayed n f
        .next (s3.mboxDone i 0 [b2n !ok, rows, ents])

/-! ## Configuration, keys, firmware -/

/-- Memory answers the font: phase 8, and no power state that is entered or left. -/
def State.fontMemory (s : State) : Bool := s.phase == 8 && !s.holding

/-- s after a host write of FNT_SVCBASE (R520). -/
def State.wFntSvcbase (s : State) (v : Nat) : State :=
  let s1 := s.storeReg .FNT_SVCBASE 0 v true
  if s1.fontMemory then s1.wholly State.readConfig else s1

/-- SVC_CONFIG_READ (R520). (DEDUCED: notes/assumptions/39.md.) -/
def execSvcConfigRead (v : Word) (s : State) : Res := .next (s.hostWrite .FNT_SVCBASE 0 fun t => t.wFntSvcbase v.toNat)

/-- s after a host write of word w of key slot k (R522). -/
def State.keyWrite (s : State) (k w v : Nat) : State :=
  let last := Store.get 0 s.font.keys (k * 16 + 12)
  if !s.answers 0x904000 || decide (13 ≤ w) || last.testBit 63 then s.decerr
  else
    let x := if w = 12 then v % 256 + (if v.testBit 63 then 2 ^ 63 else 0) else v
    (({ s with font := { s.font with keys := Store.put 0 s.font.keys (k * 16 + w) x } } : State)).ok

/-- KEY_SLOT_WRITE (R522). -/
def execKeySlotWrite (slot : Fin 4) (word : Fin 16) (v : Word) (s : State) : Res := .next (s.keyWrite slot.val word.val v.toNat)

/-- s after a host write of FNT_FWCTL (R524). -/
def State.wFntFwctl (s : State) (v : Nat) : State :=
  let s1 := s.storeReg .FNT_FWCTL 0 v true
  if F.FNT_FWCTL_LOAD.of v = 1 then s1.wholly fun t => t.startFirmware (t.rd F.FNT_FWCTL_BASE 0 * unit2M) else s1

/-- FW_LOAD (R524). -/
def execFwLoad (v : Word) (s : State) : Res := .next (s.hostWrite .FNT_FWCTL 0 fun t => t.wFntFwctl v.toNat)

end Sys2Proof.Machine
end

