-- ==== Sys2Proof/Machine/Plume.lean ====
section
/-! DEFINITION. Sys2Proof/Machine/Plume.lean: plume (19_cascade_and_services.md R525 to R531): distributing an image to every instance, roll calls and
repairs, arming and the start at a tide. -/
namespace Sys2Proof.Machine

/-! ## The plume area (R520, R525) -/

/-- The base of the plume area, where one is configured. -/
def State.plumeArea (s : State) : Option Nat :=
  if s.flag F.FNT_SVCBASE_VALID 0 && wordV (wordAt s.font.cfg 0) then some (bits (wordAt s.font.cfg 0) 36 21 * unit2M) else none

/-- The exchange space of an area at a. -/
def exchange (a : Nat) : Nat := a + 67108864

/-- Packets of an image (R527). -/
def packetsOf (h : Bytes) : Nat := ceilDiv (hdrLen h) 4096

/-- PSTATE of FNT_PLSTAT: 0 IDLE, 1 VERIFY, 2 SEND, 3 ROLL, 4 REPAIR, 5 ARM, 6 WAITGO, 7 DONE, 8 ABORTED. -/
def State.plSt (s : State) : Nat := s.rd F.FNT_PLSTAT_PSTATE 0

/-- A plume runs. -/
def State.plRuns (s : State) : Bool := decide (1 ≤ s.plSt ∧ s.plSt ≤ 6)

/-- s with plume's own state changed. -/
def State.updPl (s : State) (f : Plume → Plume) : State := { s with font := { s.font with plume := f s.font.plume } }

/-- The image being distributed or received. -/
def State.plImage (s : State) : Nat := hdrImage s.font.plume.hdr

/-- This instance has an image of this number announced. -/
def State.plHas (s : State) (image : Nat) : Bool := !s.font.plume.hdr.isEmpty && s.plImage == image

/-- s with the image, its bitmap and what waits for it discarded (R531). -/
def State.plDrop (s : State) : State := s.updPl fun p => { p with hdr := [], got := [], armed := false, go := none }

/-- s with the plume in progress ended on the manager under a cause (R531): an ERR code of FNT_PLSTAT, 6 CANCEL or 7 warm reset. (DESIGN CHOICE: notes/assumptions/34.md.) -/
def State.plumeAbort (s : State) (cause : Nat) : State :=
  if !s.plRuns then s
  else
    let s1 := ((s.send 0x27 true true 0 [s.rd F.FNT_PLSTAT_IMAGE 0]).plDrop).wr F.FNT_PLSTAT_PSTATE 0 8
    (if cause ≤ 5 then s1.wr F.FNT_PLSTAT_ERR 0 cause else s1).emit Ev.PLUME_ABORTED Un.inst cause 0

/-! ## Sending (R527) -/

/-- s with packet n of the own area sent, broadcast or to one instance. -/
def State.sendPacket (s : State) (a : Nat) (bc : Bool) (dst n : Nat) : State :=
  match s.fontRead (a + n * 4096) 4096 with
  | (t, some d) => t.send 0x21 bc false dst ([s.plImage, n, crc32c d] ++ d.map fun b => b.toNat)
  | (t, none) => t

/-- The members of the package. -/
def State.memberList (s : State) : List Nat := onesOf 16 (s.rd F.CAS_STAT_MEMBERS 0)

/-- The instances that plume still counts on: members not BOOT_FAILED. -/
def State.plMembers (s : State) : List Nat := s.memberList.filter fun k => !(s.rd F.FNT_PLSTAT_FAILED 0).testBit k

/-- s with an instance BOOT_FAILED. -/
def State.bootFailed (s : State) (k : Nat) : State := s.wr F.FNT_PLSTAT_FAILED 0 (s.rd F.FNT_PLSTAT_FAILED 0 ||| 2 ^ k)

/-- s with the roll call of a round begun. (DEDUCED: notes/assumptions/42.md.) -/
def State.rollCall (s : State) (round : Nat) : State :=
  let s1 := ((s.wr F.FNT_PLSTAT_PSTATE 0 3).wr F.FNT_PLSTAT_ROUND 0 round).updPl fun p => { p with misses := [] }
  s1.send 0x22 true false 0 [s.plImage, round]

/-! ## Starting (R530) -/

/-- The words of a RUN command: label, PC and CMDID (04_zynsa_model.md R111). -/
def runEntry (label pc id : Nat) : Bytes := toLE 8 (2 ^ 56 + label * 2 ^ 44 + id) ++ toLE 8 pc ++ bytesOf 48 0#8

/-- s with a RUN command in the ring of a spout and TAIL advanced. -/
def State.putCommand (s : State) (sp label pc id : Nat) : State :=
  match s.decodeAddr (s.rd F.DBL_RING_BASE sp * 4096 + s.tail sp % s.ringSize sp * 64) with
  | .localMem a => (s.fontWrite a (runEntry label pc id)).storeTail sp ((s.tail sp + 1) % 2 ^ 32)
  | _ => s

/-- The spout of jet e that an image of KIND 0 targets. -/
def targetSpout (h : Bytes) (e : Nat) : Nat := 32 + 4 * e + hdrTspout h % 4

/-- The spout has EN 1, OWNER 0 and room in its ring (R529). -/
def State.spoutReady (s : State) (sp : Nat) : Bool :=
  s.flag F.DBL_CTL_EN sp && !s.flag F.DBL_CTL_OWNER sp && decide ((s.tail sp + 2 ^ 32 - s.head sp) % 2 ^ 32 < s.ringSize sp)

/-- s with the received image started under a task map (R530). -/
def State.plStart (s : State) (map : Nat) : State :=
  let h := s.font.plume.hdr
  let s0 := s.updPl fun p => { p with go := none }
  match s.plumeArea with
  | none => s0
  | some a =>
    match hdrKind h with
    | 0 => foldS (List.range 32) s0 fun t e =>
        if map.testBit (2048 + 32 * s.me + e) then t.putCommand (targetSpout h e) (hdrLabel h) (s.me * 2 ^ 37 + a + hdrEntry h) (hdrImage h) else t
    | 1 => s0.fontWrite (exchange a) (toLE 8 (2 ^ 63 + 2 ^ 62 + hdrImage h * 2 ^ 32))
    | _ => s0.startFirmware a

/-- s with PL_GO taken by a receiver (R530): the task map to the exchange space, and the start at once or at TGO. (DEDUCED: notes/assumptions/42.md.) -/
def State.takeGo (s : State) (image : Nat) (now : Bool) (tgo map : Nat) : State :=
  if !s.plHas image then s
  else
    let s1 := match s.plumeArea with
      | some a => s.fontWrite (exchange a + 0x800) (((List.range 40).flatMap fun k => toLE 8 (map / 2 ^ (64 * k))))
      | none => s
    let tide := s1.rd F.TIM_TIDE_TIDE 0
    if now then s1.plStart map
    else if s1.rd F.TIM_TIDE_TSTATE 0 != 0 && decide ((tide + 4294967296 - tgo) % 4294967296 < 2147483648) then
      (s1.plStart map).emit Ev.PLUME_LATE_GO Un.inst image tide
    else s1.updPl fun p => { p with go := some (tgo, map) }

/-- The task map of R525 from the ready cores and jets of each instance. -/
def State.taskMap (s : State) : Nat :=
  let p := s.font.plume
  (List.range 16).foldl (fun m k =>
    if (s.rd F.FNT_PLSTAT_READY 0).testBit k then m + Store.get 0 p.cores k * 2 ^ (128 * k) + Store.get 0 p.jets k * 2 ^ (2048 + 32 * k) else m) 0

/-- s with the start chosen by the manager at internal tide t (R530). (DEDUCED: notes/assumptions/42.md.) -/
def State.chooseGo (s : State) (t : Nat) : State :=
  let now := s.rd F.TIM_TIDE_TSTATE 0 == 0
  let tgo := (bits t 31 10 + 2) % 2 ^ 22 * 1024
  let image := s.rd F.FNT_PLSTAT_IMAGE 0
  let s1 := (s.send 0x26 true true 0 [image, b2n now, tgo, s.taskMap]).wr F.FNT_PLSTAT_PSTATE 0 7
  (s1.emit Ev.PLUME_GO Un.inst image tgo).takeGo image now tgo s.taskMap

/-! ## Arming (R529) -/

/-- s with GO waited for, where every instance that counts has answered PL_ARM. -/
def State.armDone (s : State) : State :=
  if s.plSt = 5 && s.plMembers.all fun k => s.font.plume.done.contains k then
    let s1 := s.wr F.FNT_PLSTAT_PSTATE 0 6
    if s1.flag F.FNT_PLCTL_AUTOGO 0 then s1.chooseGo (s1.rd F.TIM_TIDE_TIDE 0) else s1
  else s

/-- s with PL_READY of instance k taken by the manager. -/
def State.takeReady (s : State) (k code cores jets : Nat) : State :=
  if s.plSt ≠ 5 || !s.plMembers.contains k then s
  else if code ≠ 0 then (s.bootFailed k).armDone
  else
    let s1 := s.wr F.FNT_PLSTAT_READY 0 (s.rd F.FNT_PLSTAT_READY 0 ||| 2 ^ k)
    (s1.updPl fun p => { p with done := p.done ++ [k], cores := Store.put 0 p.cores k cores, jets := Store.put 0 p.jets k jets }).armDone

/-- s with PL_READY sent to the manager, or taken at once on the manager itself. -/
def State.sayReady (s : State) (code cores jets : Nat) : State :=
  if s.role = 2 then s.takeReady s.me code cores jets else s.send 0x25 false false s.mgr [code, cores, jets]

/-- s with PL_ARM acted on by an instance that is not excluded: its copy verified, its cores told or its jets looked at. -/
def State.armSelf (s : State) : State :=
  match s.plumeArea with
  | none => (s.plDrop).sayReady 1 0 0
  | some a =>
    match s.verifyImage a [0, 1, 2] with
    | (t, 0, h) =>
      match hdrKind h with
      | 0 => t.sayReady 0 0 (maskOf ((List.range 32).filter fun e => t.spoutReady (targetSpout h e)))
      | 1 => (t.fontWrite (exchange a) (toLE 8 (2 ^ 62 + hdrImage h * 2 ^ 32))).updPl fun p => { p with armed := true }
      | _ => t.sayReady 0 0 0
    | (t, c, _) => (t.plDrop).sayReady c 0 0

/-- The cores whose report words show READY for an image (R525), and s with the effects of reading them. -/
def State.readyCores (s : State) (a image : Nat) : State × Nat :=
  match s.fontRead (exchange a + 0x80) 1024 with
  | (t, some d) =>
    (t, maskOf ((List.range 128).filter fun j =>
      let w := leNat (sliceB d (8 * j) 8)
      w.testBit 63 && !w.testBit 62 && bits w 47 32 == image))
  | (t, none) => (t, 0)

/-- s with the instances that the roll calls leave out BOOT_FAILED, and PL_ARM sent (R527 step 5, R529). -/
def State.armAll (s : State) (bad : List Nat) : State :=
  let s1 := foldS bad s fun t k => t.bootFailed k
  let mask := s1.rd F.FNT_PLSTAT_FAILED 0
  let s2 := if mask = 0 then s1 else s1.emit Ev.BOOT_FAILED Un.inst mask 0
  let s3 := (s2.send 0x24 true false 0 [s2.plImage, mask]).wr F.FNT_PLSTAT_PSTATE 0 5
  (s3.updPl fun p => { p with done := [], cores := [], jets := [] }).armSelf.armDone

/-- s with a roll call over (R527 steps 4 and 5): a repair and the next round, or arming. (DEDUCED: notes/assumptions/42.md.) -/
def State.rollEnd (s : State) (a : Nat) : State :=
  let others := s.plMembers.filter fun k => k ≠ s.me
  let said := fun (k : Nat) => Store.find s.font.plume.misses k
  let bad := others.filter fun k => match said k with
    | some m => m.1 ≠ 0
    | none => true
  let round := s.rd F.FNT_PLSTAT_ROUND 0
  if bad.isEmpty || decide (4 ≤ round) then s.armAll bad
  else
    let s1 := foldS bad (s.wr F.FNT_PLSTAT_PSTATE 0 4) fun t k =>
      match said k with
      | some m => foldS (m.2.2.flatMap fun r => (List.range r.2).map (r.1 + ·)) t fun u n => u.sendPacket a false k n
      | none => t
    s1.rollCall (round + 1)

/-- s with a roll call over where every member has answered. (DEDUCED: notes/assumptions/42.md.) -/
def State.rollStep (s : State) : State :=
  match s.plumeArea with
  | some a =>
    if s.plSt = 3 && (s.plMembers.filter fun k => k ≠ s.me).all fun k => (Store.find s.font.plume.misses k).isSome then s.rollEnd a else s
  | none => s

/-! ## The host's commands (R527, R531, R539) -/

/-- s with START carried out on the manager: verification, PL_ANNOUNCE, every packet, and the roll call of round 0. (DEDUCED: notes/assumptions/42.md.) -/
def State.plBegin (s : State) (a : Nat) : State :=
  let s0 := (((s.wr F.FNT_PLSTAT_PSTATE 0 1).wr F.FNT_PLSTAT_FAILED 0 0).wr F.FNT_PLSTAT_READY 0 0).wr F.FNT_PLSTAT_ROUND 0 0
  match s0.verifyImage a [0, 1, 2] with
  | (t, 0, h) =>
    let n := packetsOf h
    let t1 := (t.wr F.FNT_PLSTAT_IMAGE 0 (hdrImage h)).updPl fun p =>
      { p with hdr := h, got := [(0, n)], armed := false, go := none, misses := [], done := [], cores := [], jets := [] }
    let t2 := (t1.send 0x20 true false 0 (h.map fun b => b.toNat)).wr F.FNT_PLSTAT_PSTATE 0 2
    ((foldS (List.range n) t2 fun u k => u.sendPacket a true 0 k).rollCall 0).rollStep
  | (t, _, h) => (t.wr F.FNT_PLSTAT_IMAGE 0 (hdrImage h)).plumeAbort 5

/-- The ERR of a START (R530, R531), or 0. (DEDUCED: notes/assumptions/42.md.) -/
def State.startError (s : State) : Nat :=
  firstCode [(s.plRuns, 1), (s.role != 2, 2), (!s.flag F.CAS_STAT_LOOPOK 0, 3), (s.plumeArea.isNone, 4)]

/-- s after a host write of FNT_PLCTL (R527, R531, R539). (DEDUCED: notes/assumptions/42.md.) -/
def State.wFntPlctl (s : State) (v : Nat) : State :=
  let aw := F.FNT_PLCTL_ARMWAIT.of v
  let rw := F.FNT_PLCTL_ROLLWAIT.of v
  if aw = 0 ∨ 1000 < aw ∨ rw = 0 ∨ 100 < rw then s.emit Ev.FNT_CFG_REFUSED Un.inst 0 0
  else
    let s1 := s.storeReg .FNT_PLCTL 0 v true
    let s2 :=
      if F.FNT_PLCTL_START.of v = 1 then
        match s1.startError, s1.plumeArea with
        | 0, some a => s1.wholly (·.plBegin a)
        | c, _ => s1.wr F.FNT_PLSTAT_ERR 0 c
      else s1
    if F.FNT_PLCTL_CANCEL.of v = 1 then (if s2.role = 2 then s2.plumeAbort 6 else s2.wr F.FNT_PLSTAT_ERR 0 2) else s2

/-- PLUME_START (R527): a write of FNT_PLCTL with START. (DEDUCED: notes/assumptions/42.md.) -/
def execPlumeStart (v : Word) (s : State) : Res := .next (s.hostWrite .FNT_PLCTL 0 fun t => t.wFntPlctl (setBits v.toNat 63 63 1))

/-- PLUME_CANCEL (R531): a write of FNT_PLCTL with CANCEL. (DEDUCED: notes/assumptions/42.md.) -/
def execPlumeCancel (v : Word) (s : State) : Res := .next (s.hostWrite .FNT_PLCTL 0 fun t => t.wFntPlctl (setBits v.toNat 62 62 1))

/-! ## The messages -/

/-- s after a plume message: it is acted on while the font is ON, and not by its sender. -/
def State.onPl (s : State) (c : CasHdr) (typ : Nat) (f : State → State) : State :=
  s.onCas c typ fun t => if t.domOn 64 && c.src.val != t.me then t.wholly f else t

/-- PL_ANNOUNCE (R527 step 1). -/
def execPlAnnounce (c : CasHdr) (hdr : ImageHdr) (s : State) : Res :=
  .next (s.onPl c 0x20 fun t => t.updPl fun p => { p with hdr := hdr, got := [], armed := false, go := none })

/-- PL_DATA (R527 step 2): a packet of the announced image whose CRC agrees. -/
def execPlData (c : CasHdr) (image : BitVec 16) (packet : BitVec 32) (crc : BitVec 32) (data : Bytes) (s : State) : Res :=
  .next (s.onPl c 0x21 fun t =>
    let h := t.font.plume.hdr
    let n := packet.toNat
    match t.plumeArea with
    | none => t
    | some a =>
      if t.plHas image.toNat && headerGood h && lengthGood h && decide (n < packetsOf h) && data.length == 4096 && crc32c data == crc.toNat then
        (t.fontWrite (a + n * 4096) data).updPl fun p => { p with got := Ranges.add p.got n (n + 1) }
      else t)

/-- The ranges of [0, n) that a set of packets lacks, as (first, count). -/
def missingOf (n : Nat) (got : Ranges) : List (Nat × Nat) :=
  (got.foldl (fun (rs : Ranges) g => Ranges.del rs g.1 g.2) (if n = 0 then [] else [(0, n)])).map fun r => (r.1, r.2 - r.1)

/-- PL_ROLL (R527 step 3, R528): PL_MISS with the status, the count and the 16 lowest ranges; an instance to which no such image was announced does
not answer. (DEDUCED: notes/assumptions/42.md.) -/
def execPlRoll (c : CasHdr) (image : BitVec 16) (round : BitVec 4) (s : State) : Res :=
  let _ := round
  .next (s.onPl c 0x22 fun t =>
    let h := t.font.plume.hdr
    if !t.plHas image.toNat then t
    else
      let miss := missingOf (packetsOf h) t.font.plume.got
      let total : Nat := miss.foldl (fun (a : Nat) (r : Nat × Nat) => a + r.2) 0
      let st := if t.plumeArea.isNone then 2 else if !(headerGood h && lengthGood h) then 3 else if total = 0 then 0 else 1
      t.send 0x23 false false t.mgr ([st, if st = 1 then total else 0] ++ (if st = 1 then (miss.take 16).flatMap fun r => [r.1, r.2] else [])))

/-- PL_MISS (R528): on the manager, in a roll call. (DEDUCED: notes/assumptions/42.md.) -/
def execPlMiss (c : CasHdr) (st : BitVec 8) (total : BitVec 32) (ranges : List (Nat × Nat)) (s : State) : Res :=
  .next (s.onPl c 0x23 fun t =>
    let k := c.src.val
    if t.role ≠ 2 || t.plSt ≠ 3 || !t.plMembers.contains k then t
    else if st = 2 ∨ st = 3 then (t.bootFailed k).rollStep
    else (t.updPl fun p => { p with misses := Store.insert p.misses k (st.toNat, total.toNat, ranges) }).rollStep)

/-- ROLLWAIT_EXPIRE (R527): the roll call ends with the members that have answered. (DEDUCED: notes/assumptions/42.md.) -/
def execRollwaitExpire (s : State) : Res :=
  match s.plumeArea with
  | some a => .next (if s.role = 2 && s.plSt == 3 && s.domOn 64 then s.wholly (·.rollEnd a) else s)
  | none => .next s

/-- PL_ARM (R529): an excluded instance gives the image up. (DEDUCED: notes/assumptions/42.md.) -/
def execPlArm (c : CasHdr) (image : BitVec 16) (excluded : BitVec 16) (s : State) : Res :=
  .next (s.onPl c 0x24 fun t =>
    if !t.plHas image.toNat then t else if excluded.toNat.testBit t.me then t.plDrop else t.armSelf)

/-- ARMWAIT_EXPIRE (R529): the wait for the core reports ends, at its limit or with the last of them. (DEDUCED: notes/assumptions/42.md.) -/
def execArmwaitExpire (s : State) : Res :=
  match s.plumeArea with
  | some a =>
    if !s.font.plume.armed || !s.domOn 64 then .next s
    else
      .next (s.wholly fun u =>
        let (t, cores) := (u.updPl fun p => { p with armed := false }).readyCores a u.plImage
        t.sayReady 0 cores 0)
  | none => .next s

/-- PL_READY (R529). -/
def execPlReady (c : CasHdr) (code : BitVec 8) (cores : BitVec 128) (jets : BitVec 32) (s : State) : Res :=
  .next (s.onPl c 0x25 fun t => if t.role = 2 then t.takeReady c.src.val code.toNat cores.toNat jets.toNat else t)

/-- PL_READY_TIMEOUT (R529): an instance that has sent no PL_READY is BOOT_FAILED. -/
def execPlReadyTimeout (k : Inst) (s : State) : Res :=
  .next (if s.role = 2 && s.plSt == 5 && s.domOn 64 && s.plMembers.contains k.val && !s.font.plume.done.contains k.val then
      s.wholly fun u => (u.bootFailed k.val).armDone else s)

/-- PL_GO (R530). (DEDUCED: notes/assumptions/42.md.) -/
def execPlGo (c : CasHdr) (image : BitVec 16) (now : Bool) (tgo : BitVec 32) (map : BitVec 2560) (s : State) : Res :=
  .next (s.onPl c 0x26 fun t => t.takeGo image.toNat now tgo.toNat map.toNat)

/-- PL_CANCEL (R531). -/
def execPlCancel (c : CasHdr) (image : BitVec 16) (s : State) : Res :=
  .next (s.onPl c 0x27 fun t => if t.plHas image.toNat then t.plDrop else t)

/-- s with the GO of a receiver started where the span of a step from tide a over d phases covers TGO (R530; 15_time_and_tide.md R419): (a, a + d]. -/
def State.plumeSpan (s : State) (a d : Nat) : State :=
  match s.font.plume.go with
  | some (tgo, map) => let k := (tgo + 2 ^ 32 - a % 2 ^ 32) % 2 ^ 32; if 0 < k && decide (k ≤ d) then s.wholly (·.plStart map) else s
  | none => s

/-- s with GO released by a PLUME_GO action of the tide for an image, at internal tide t (R530). -/
def State.plumeAction (s : State) (arg t : Nat) : State :=
  if s.role = 2 && s.plSt == 6 && !s.flag F.FNT_PLCTL_AUTOGO 0 && s.rd F.FNT_PLSTAT_IMAGE 0 == arg then s.wholly (·.chooseGo t) else s

end Sys2Proof.Machine
end

