-- ==== Sys2Proof/Machine/TimeCmd.lean ====
section
/-! DEFINITION. Sys2Proof/Machine/TimeCmd.lean: the wall counter: PPS edges, alignment by step or slew, holdover (15_time_and_tide.md R407 to R412;
02_ports.md R55). -/
namespace Sys2Proof.Machine

/-- x limited to ±m. -/
def clampI (m x : Int) : Int := max (-m) (min m x)

/-- s with the wall counter stepped by d ns and recorded (R409, R411, R423). (DEDUCED: notes/assumptions/30.md.) -/
def State.stepWall (s : State) (d : Int) : State :=
  ((s.wr F.TIM_WALL_NS 0 (wrapInt 64 ((s.wall : Int) + d))).bump F.TIM_PPSCNT_STEPS 0 1).emit Ev.TIME_STEP Un.inst (wrapInt 48 d) 0

/-- s aligned to error e (R409): a step beyond 1,000 ns or where forced, and otherwise a slew over the next second from oscillator time t; whether
it stepped. (DEDUCED: notes/assumptions/30.md.) -/
def State.align (s : State) (t : Nat) (e : Int) (force : Bool) : State × Bool :=
  let s1 := s.wr F.TIM_WSTAT_LASTERR 0 (wrapInt 32 (max (-2147483648) (min 2147483647 e)))
  if force || decide (1000 < e ∨ e < -1000) then
    let s2 := s1.stepWall (-e)
    ({ s2 with time := { s2.time with slewEnd := 0 } }, true)
  else
    let y := clampI 200000 (-s1.time.yf - e)
    ({ s1 with time := { s1.time with slew := y, slewEnd := t + 1000000000 } }, false)

/-- s with the oscillator's offset measured over a spacing in ns of the oscillator (R408), and reported limited to ±200 ppm. (DEDUCED: notes/assumptions/30.md.) -/
def State.measure (s : State) (spacing : Nat) : State :=
  let n := (spacing + 500000000) / 1000000000
  if n = 0 then s
  else
    let y : Int := ((spacing : Int) - n * 1000000000) / n
    ({ s with time := { s.time with yf := y } }).wr F.TIM_WSTAT_YF 0 (wrapInt 24 (clampI 200000 y))

/-- s with WSTATE set, entry to LOCKED and HOLDOVER recorded (R410). -/
def State.setWstate (s : State) (v : Nat) : State :=
  let was := s.rd F.TIM_WSTAT_WSTATE 0
  let s1 := s.wr F.TIM_WSTAT_WSTATE 0 v
  if v = 2 && was != 2 then s1.emit Ev.PPS_LOCKED Un.inst 0 0
  else if v = 3 && was != 3 then s1.emit Ev.PPS_LOST Un.inst 0 0 else s1

/-- s after an aligning edge at oscillator time t whose timestamp lies `sub` ns after the wall counter's value (R409, R410). (DEDUCED: notes/assumptions/30.md.) -/
def State.aligningEdge (s : State) (t sub : Nat) : State :=
  let w := s.wall + sub
  let arm := s.flag F.TIM_PPSSEC_ARM 0
  let target := if arm then s.rd F.TIM_PPSSEC_SEC 0 * 1000000000 else (w + 500000000) / 1000000000 * 1000000000
  let e : Int := (w : Int) - target
  let (s1, stepped) := s.align t e arm
  let s2 := s1.wrB F.TIM_PPSSEC_ARM 0 false
  let small := !stepped && decide (-100 ≤ e ∧ e ≤ 100)
  let k := if small then s2.time.aligned + 1 else 0
  let s3 : State := { s2 with time := { s2.time with aligned := k } }
  let was := s3.rd F.TIM_WSTAT_WSTATE 0
  s3.setWstate (if 2 ≤ k ∨ (small && was == 2) then 2 else 1)

/-- s after an edge timestamped at oscillator time t, `sub` ns into the current always-on cycle (R408, R409); the edge that leaves HOLDOVER is an
aligning edge whatever its spacing (R410). (DEDUCED: notes/assumptions/30.md.) -/
def State.takeEdge (s : State) (t sub : Nat) : State :=
  let s1 : State := { s with time := { s.time with lastPps := some t } }
  let s2 := (s1.bump F.TIM_PPSCNT_EDGES 0 1).wr F.GLB_PINSTAT_PPS_SEEN 0 1
  let gap := t - s2.time.lastEdge
  let off := decide (gap < 999000000 ∨ 1001000000 < gap)
  let st := s2.rd F.TIM_WSTAT_WSTATE 0
  if (st == 1 || st == 2) && off && decide (s2.time.discards < 3) then
    ({ s2 with time := { s2.time with discards := s2.time.discards + 1 } }).bump F.TIM_PPSCNT_OUTLIER 0 1
  else
    let n := s2.time.edges
    let s3 := if n = 0 then s2 else s2.measure gap
    let s4 : State := { s3 with time := { s3.time with lastEdge := t, edges := n + 1, discards := 0 } }
    if n < 2 then s4 else s4.aligningEdge t sub

/-- An edge at oscillator time t follows the previous timestamped one by less than 0.5 s (02_ports.md R55). -/
def State.tooSoon (s : State) (t : Nat) : Bool :=
  match s.time.lastPps with
  | some l => decide (t < l + 500000000)
  | none => false

/-- s with an edge ignored under R55 and counted. -/
def State.ignoreEdge (s : State) : State := s.bump F.GLB_PINSTAT_PPS_IGN 0 1

/-- PPS_EDGE: a rising edge `sub` ns into the current always-on cycle, with its high time. One that follows too soon is ignored and counted; one whose
high time is below 1 µs may be (02_ports.md R55). Nothing is sampled in phase 0 (R56). (DESIGN CHOICE: notes/assumptions/8.md.) -/
def execPpsEdge (sub : Fin 10) (highNs : Nat) (s : State) : Res :=
  let t := 10 * s.time.ticks + sub.val
  if s.phase = 0 then .next s
  else if s.tooSoon t then .next s.ignoreEdge
  else if highNs < 1000 then
    let (k, u) := s.draw
    .next (if Config.shortPps k then u.ignoreEdge else u.takeEdge t sub.val)
  else .next (s.takeEdge t sub.val)

/-- WALL_HOLDOVER: no accepted edge for 1.2 s. (DEDUCED: notes/assumptions/30.md.) -/
def execWallHoldover (s : State) : Res :=
  let st := s.rd F.TIM_WSTAT_WSTATE 0
  if st = 1 ∨ st = 2 then .next (({ s with time := { s.time with aligned := 0 } }).setWstate 3) else .next s

/-- s after a write of TIM_WALL (R411). -/
def State.wTimWall (s : State) (v : Nat) : State :=
  let s1 := s.stepWall ((v : Int) - s.wall)
  if s1.rd F.TIM_WSTAT_WSTATE 0 = 2 then s1.setWstate 1 else s1

/-- TIM_WALL_WRITE (R411). -/
def execTimWallWrite (v : Word) (s : State) : Res := .next (s.hostWrite .TIM_WALL 0 fun t => t.wTimWall v.toNat)

/-- s of a worker aligned to the manager's wall counter v (R412), unless it is LOCKED to PPS. (DEDUCED: notes/assumptions/30.md.) -/
def State.followManager (s : State) (v : Nat) : State :=
  if s.rd F.TIM_WSTAT_WSTATE 0 = 2 then s else (s.align (10 * s.time.ticks) ((s.wall : Int) - v) false).1

end Sys2Proof.Machine
end

