-- ==== Sys2Proof/Machine/Cascade.lean ====
section
/-! DEFINITION. Sys2Proof/Machine/Cascade.lean: the cascade beside transactions and plume (19_cascade_and_services.md R502 to R515): forwarding,
election, START, TIME, the settings and reports of the members. -/
namespace Sys2Proof.Machine

/-- s with the cascade's state changed. -/
def State.updCas (s : State) (f : Cascade → Cascade) : State := { s with cas := f s.cas }

/-- This instance's manager strap (02_ports.md R66). (DESIGN CHOICE: notes/assumptions/3.md.) -/
def State.strap (s : State) : Bool := s.flag F.GLB_ID_MGR_STRAP 0

/-! ## Election (R506 to R509) -/

/-- The payload of a HELLO of this instance. -/
def State.helloWords (s : State) (reply : Bool) : List Nat :=
  [s.me, b2n s.strap, s.cas.nonce, b2n reply, s.mgr, b2n (s.role == 1 || s.role == 2), s.cas.epoch]

/-- s with HELLO broadcast. -/
def State.sayHello (s : State) : State := s.send 0x01 true true 0 (s.helloWords false)

/-- HELLO_RESEND (R506): an instance that has drawn its nonce and holds no role. -/
def execHelloResend (s : State) : Res := .next (if s.cas.drawn && s.role == 0 then s.sayHello else s)

/-- s with a role: 1 worker, 2 manager; the manager, the epoch and the members. -/
def State.takeRole (s : State) (r m e members : Nat) : State :=
  let s1 := ((s.wr F.CAS_STAT_ROLE 0 r).wr F.CAS_STAT_MGR 0 m).wr F.CAS_STAT_MEMBERS 0 members
  s1.updCas fun c => { c with epoch := e, lostMgr := false }

/-- s of the winner: ROLE broadcast, and the recovery of 09_transactions.md R275. -/
def State.becomeManager (s : State) (e members : Nat) : State :=
  ((s.takeRole 2 s.me e members).send 0x02 true true 0 [s.me, e, members]).startRecovery

/-- Every HELLO that counts in the election, the own one included. (DEDUCED: notes/assumptions/43.md.) -/
def State.hellos (s : State) : List HelloP :=
  let own : HelloP :=
    { inst := Fin.ofNat 16 s.me, strap := s.strap, nonce := BitVec.ofNat 32 s.cas.nonce, reply := false, mgr := 0, mgrValid := false, epoch := 0 }
  own :: s.cas.heard

/-- The number k is heard with two nonces. (DEDUCED: notes/assumptions/43.md.) -/
def dupIn (l : List HelloP) (k : Nat) : Bool := l.any fun a => a.inst.val == k && l.any fun b => b.inst.val == k && a.nonce != b.nonce

/-- s with another instance of the own number found (R509): no role is taken, and nothing is sent. (DEDUCED: notes/assumptions/43.md.) -/
def State.instDup (s : State) (nonce : Nat) : State :=
  if s.role = 3 then s
  else ((s.wr F.CAS_STAT_ROLE 0 3).wr F.CAS_STAT_MEMBERS 0 0).emit Ev.INST_DUP Un.inst s.me nonce

/-- s with a reply that names the manager taken by an instance without a role (R507 cases 1 and 2). (DEDUCED: notes/assumptions/43.md.) -/
def State.takeReply (s : State) (m : HelloP) : State :=
  if !m.mgrValid then s
  else if m.mgr.val = s.me then
    s.becomeManager ((m.epoch.toNat + 1) % 2 ^ 32) (maskOf ((s.hellos.map fun h => h.inst.val) ++ [m.inst.val]))
  else
    let s1 := s.takeRole 1 m.mgr.val m.epoch.toNat 0
    if s.strap then s1.emit Ev.MGR_DUP Un.inst 0 0 else s1

/-- s whose own HELLO has come round: an instance without a role takes the reply that it has kept, if any; without the return it takes no role
(R507, R510). (DEDUCED: notes/assumptions/43.md.) -/
def State.helloBack (s : State) : State :=
  let s1 := s.updCas fun c => { c with returned := true }
  match s.role, s.cas.heard.find? fun h => h.reply && h.mgrValid with
  | 0, some m => s1.takeReply m
  | _, _ => s1

/-- s with a HELLO of another instance taken: a newcomer answered, or a HELLO kept for the election (R506, R507). (DEDUCED: notes/assumptions/43.md.) -/
def State.takeHello (s : State) (m : HelloP) : State :=
  let keep := fun (t : State) => t.updCas fun c => { c with heard := (c.heard.filter fun h => h != m) ++ [m] }
  let member := fun (t : State) =>
    if t.role = 2 then t.wr F.CAS_STAT_MEMBERS 0 (t.rd F.CAS_STAT_MEMBERS 0 ||| 2 ^ m.inst.val) else t
  match s.role with
  | 0 => if m.reply && s.cas.returned then (keep s).takeReply m else keep s
  | 3 => s
  | _ => if m.reply then member s else member (s.send 0x01 false true m.inst.val (s.helloWords true))

/-- s with a HELLO forwarded (R503): one that is broadcast or for another instance, unless it carries the own nonce. (DEDUCED: notes/assumptions/43.md.) -/
def State.passHello (s : State) (c : CasHdr) (m : HelloP) : State :=
  if (s.cas.drawn && m.inst.val == s.me && m.nonce.toNat == s.cas.nonce) || (!c.bc && c.dst.val == s.me) then s
  else
    let f : FwdMsg := { hdr := c, typ := 0x01, len := none, crcOk := true }
    { s with cas := { s.cas with fwd := s.cas.fwd ++ [f] } }

/-- HELLO (R503, R506, R507, R509). (DEDUCED: notes/assumptions/43.md.) -/
def execHello (c : CasHdr) (m : HelloP) (s : State) : Res :=
  match (s.passHello c m).casTake c 0x01 true with
  | (t, true) =>
    if !t.cas.drawn then .next t
    else if m.inst.val = t.me then
      if m.nonce.toNat = t.cas.nonce then .next t.helloBack else .next (t.instDup m.nonce.toNat)
    else .next (t.takeHello m)
  | (t, false) => .next t

/-- The highest-ranked of the instances heard, duplicated numbers apart (R507, R509): strapped ones first, then the lowest number. -/
def electFrom (l : List HelloP) : Option Nat :=
  let ok := l.filter fun h => !dupIn l h.inst.val
  let low := fun (l : List HelloP) => l.foldl (fun (b : Option Nat) h => match b with
    | some k => some (Nat.min k h.inst.val)
    | none => some h.inst.val) none
  match low (ok.filter fun h => h.strap) with
  | some k => some k
  | none => low ok

/-- ELECTION_TIMEOUT (R507 case 3, R508): only once the own HELLO has returned. -/
def execElectionTimeout (s : State) : Res :=
  if !(s.cas.drawn && s.role == 0 && s.cas.returned) then .next s
  else
    let l := s.hellos
    match electFrom l with
    | none => .next s
    | some w =>
      let members := maskOf ((l.filter fun h => !dupIn l h.inst.val).map fun h => h.inst.val)
      if w = s.me then
        let s1 := (s.becomeManager 1 members).emit Ev.MGR_ELECTED Un.inst w 1
        let s2 := if l.any fun h => h.strap then s1 else s1.emit Ev.MGR_NONE Un.inst 0 0
        .next (if members = 0xFFFF then s2 else s2.emit Ev.INST_MISSING Un.inst (0xFFFF - members) 0)
      else
        let s1 := (s.takeRole 1 w 1 members).emit Ev.MGR_ELECTED Un.inst w 1
        .next (if s.strap then s1.emit Ev.MGR_DUP Un.inst 0 0 else s1)

/-- Instance a ranks higher than this one, as far as its HELLO has been heard (R507). -/
def State.outranked (s : State) (a : Nat) : Bool :=
  let st := s.cas.heard.any fun h => h.inst.val == a && h.strap
  if st = s.strap then decide (a < s.me) else st

/-- ROLE (R507): a worker takes the manager it names, an instance without a role only once its own HELLO has returned; a manager gives way to a
higher-ranked one only. (DEDUCED: notes/assumptions/43.md.) -/
def execRole (c : CasHdr) (mgr : Inst) (epoch : BitVec 32) (members : BitVec 16) (s : State) : Res :=
  match s.casTake c 0x02 true with
  | (t, true) =>
    let m := mgr.val
    let e := epoch.toNat
    if t.role = 3 || m == t.me || c.src.val == t.me || !t.cas.drawn || (t.role == 0 && !t.cas.returned) then .next t
    else if t.role = 2 then
      if t.outranked m then .next ((t.takeRole 1 m e members.toNat).emit Ev.MGR_DUP Un.inst 0 0) else .next t
    else
      let new := t.role = 0 || t.mgr != m || t.cas.epoch != e
      let t1 := t.takeRole 1 m e members.toNat
      let t2 := if new then t1.emit Ev.MGR_ELECTED Un.inst m e else t1
      .next (if t.role = 0 && t.strap then t2.emit Ev.MGR_DUP Un.inst 0 0 else t2)
  | (t, false) => .next t

/-! ## START (R511; 18_bringup_reset_lowpower.md R474) -/

/-- s in phase 3: every switched domain that is OFF wakes, in ascending number. -/
def State.enterWake (s : State) : State :=
  foldS (List.range 66) (s.setPhase 3) fun t d => if t.domSt d = 0 then t.wantWake d else t

/-- s with the refresh phase that the manager gave (10_rills.md R297). -/
def State.setRefPhase (s : State) (k : Nat) : State := (s.updCas fun c => { c with phase := some (k % 16) }).wr F.SCH_REF_PHASE 0 k

/-- START: a worker in phase 2 starts. -/
def execStart (c : CasHdr) (phase : BitVec 4) (s : State) : Res :=
  .next (s.onCas c 0x03 fun t =>
    if t.role = 3 then t
    else
      let t1 := t.setRefPhase phase.toNat
      if t1.phase = 2 then t1.enterWake else t1)

/-- START_SEND (R511): the slot of the next number, the manager's own first; the slots of absent numbers stay empty. (DEDUCED: notes/assumptions/43.md.) -/
def execStartSend (s : State) : Res :=
  if s.role ≠ 2 || decide (s.phase < 2 ∨ 16 ≤ s.cas.startAt) then .next s
  else
    let n := s.cas.startAt
    let s1 := s.updCas fun c => { c with startAt := n + 1 }
    let k := if n = 0 then s.me else if n ≤ s.me then n - 1 else n
    if k = s.me then
      let s2 := s1.setRefPhase k
      .next (if s2.phase = 2 then s2.enterWake else s2)
    else .next (if s.memberList.contains k then s1.send 0x03 false true k [k] else s1)

/-- START_TIMEOUT (R474, R510): an instance in phase 2 that is neither the manager nor excluded. -/
def execStartTimeout (s : State) : Res :=
  .next (if s.phase = 2 && (s.role == 0 || s.role == 1) then (s.emit Ev.START_TIMEOUT Un.inst 0 0).enterWake else s)

/-! ## TIME and the loop (R510, R513) -/

/-- s with a log collection ended by a broken loop: the members not yet collected are incomplete (20_events_and_sediment.md R556). -/
def State.aggBreak (s : State) : State :=
  if s.rd F.GLB_SEDAGGSTAT_STATE 0 ≠ 1 then s
  else
    let inc := s.rd F.CAS_STAT_MEMBERS 0 - s.rd F.GLB_SEDAGGSTAT_COMPLETE 0
    let s1 := (s.wr F.GLB_SEDAGGSTAT_STATE 0 3).wr F.GLB_SEDAGGSTAT_INCOMPLETE 0 inc
    { s1 with events := { s1.events with aggLeft := [] } }.emit Ev.SED_AGG_DONE Un.inst (s1.rd F.GLB_SEDAGGSTAT_COMPLETE 0) inc

/-- TIME_SEND (R513), and the loop found broken when three in a row have not returned (R510). -/
def execTimeSend (s : State) : Res :=
  if s.role ≠ 2 then .next s
  else
    let s1 :=
      if decide (3 ≤ s.cas.away) && !s.cas.broken then
        ((((s.updCas fun c => { c with broken := true }).wr F.CAS_STAT_LOOPOK 0 0).emit Ev.CAS_LOOP_BROKEN Un.inst 0 0).plumeAbort 3).aggBreak
      else s
    let s2 := s1.send 0x04 true true 0 [s.wall, s.rd F.TIM_WSTAT_WSTATE 0]
    .next (s2.updCas fun c => { c with away := c.away + 1 })

/-- TIME (R513): the manager's own returns; a worker aligns to it, 40 ns for each hop from the manager. -/
def execTime (c : CasHdr) (wall : Word) (wstate : BitVec 2) (s : State) : Res :=
  let _ := wstate
  .next (s.onCas c 0x04 fun t =>
    if t.role = 2 then
      if c.src.val ≠ t.me then t
      else
        let t1 := (t.updCas fun c => { c with away := 0, broken := false }).wr F.CAS_STAT_LOOPOK 0 1
        if t.cas.broken then t1.emit Ev.CAS_LOOP_RESTORED Un.inst 0 0 else t1
    else if t.role = 1 && c.src.val == t.mgr then
      (t.updCas fun c => { c with lostMgr := false }).followManager ((wall.toNat + (t.me + 16 - t.mgr) % 16 * 40) % 2 ^ 64)
    else t)

/-- CAS_LINK_DOWN (R510): recorded once until a message arrives. -/
def execCasLinkDown (s : State) : Res :=
  .next (if s.cas.linkDown then s else (s.updCas fun c => { c with linkDown := true }).emit Ev.CAS_LINK_DOWN Un.inst 0 0)

/-- MGR_LOST (R510): recorded once until TIME is heard. -/
def execMgrLost (s : State) : Res :=
  .next (if s.role = 1 && !s.cas.lostMgr then (s.updCas fun c => { c with lostMgr := true }).emit Ev.MGR_LOST Un.inst 0 0 else s)

/-! ## Settings (R512) -/

/-- s with the values last received from the manager, which prevail over tiers and host writes. -/
def State.applyMgr (s : State) : State :=
  let s1 := match s.cas.phase with
    | some k => s.wr F.SCH_REF_PHASE 0 k
    | none => s
  if s.role ≠ 1 then s1
  else
    let s2 := match s1.cas.node with
      | some n => if n = s1.node then s1 else s1.setNode n
      | none => s1
    match s2.cas.cap with
    | some v => s2.wr F.PWR_CAP_CAP 0 v
    | none => s2

/-- SETCFG (R512): items 0 NODE, 1 PHASE, 2 CAP. -/
def execSetcfg (c : CasHdr) (item : BitVec 8) (v : Word) (s : State) : Res :=
  let n := v.toNat
  .next (s.onCas c 0x05 fun t =>
    if t.role ≠ 1 || c.src.val != t.mgr then t
    else if item = 0 then (t.updCas fun c => { c with node := some (n % 64) }).setNode (n % 64)
    else if item = 1 then t.setRefPhase n
    else if item = 2 then (t.updCas fun c => { c with cap := some (n % 2 ^ 16) }).wr F.PWR_CAP_CAP 0 n
    else t)

/-! ## Reports (R514, R515) -/

/-- The thermal levels as TELEM carries them: bits 7 to 0 the jet groups, 9 and 8 the rill die, 11 and 10 the font. (DEDUCED: notes/assumptions/43.md.) -/
def State.levelWord (s : State) : Nat := s.rd F.THM_STAT_JETLVL 0 + s.rd F.THM_STAT_RILLLVL 0 * 256 + Store.get 0 s.power.lvls 5 * 1024

/-- TELEM_SEND (R514). -/
def execTelemSend (s : State) : Res :=
  .next (if s.role = 1 then s.send 0x06 false false s.mgr [s.rd F.PWR_STAT_PAVG 0, s.rd F.PWR_STAT_LADDER 0, s.rd F.THM_STAT_MAXT 0, s.levelWord] else s)

/-- TELEM (R514). (DEDUCED: notes/assumptions/43.md.) -/
def execTelem (c : CasHdr) (pavg : Nat) (ladder : BitVec 3) (maxt : BitVec 8) (levels : BitVec 16) (s : State) : Res :=
  let _ := (ladder, maxt, levels)
  .next (s.onMgr c 0x06 fun t => t.updCas fun k => { k with telem := Store.insert k.telem c.src.val (pavg, 0) })

/-- The cap that member report p asks for. -/
def wantCap (p : Nat) : Nat := Nat.min 60000 (Nat.max 20000 (p * 11 / 10 + 2000))

/-- The caps of the members from their reports under a budget (R514). (DEDUCED: notes/assumptions/43.md.) -/
def allocate (b : Nat) (ps : List (Nat × Nat)) : List (Nat × Nat) :=
  let ws := ps.map fun e => (e.1, wantCap e.2)
  let sum := ws.foldl (fun a e => a + e.2) 0
  let n := ws.length
  if sum ≤ b then ws.map fun e => (e.1, Nat.min 60000 (e.2 + (b - sum) / n))
  else
    let extra := ws.foldl (fun a e => a + (e.2 - 20000)) 0
    ws.map fun e => (e.1, if extra = 0 then 20000 else 20000 + (b - 20000 * n) * (e.2 - 20000) / extra)

/-- The latest report of member k; 60,000 mW for one that has sent none for 30 ms. -/
def State.reportOf (s : State) (k : Nat) : Nat :=
  if k = s.me then s.rd F.PWR_STAT_PAVG 0
  else
    match Store.find s.cas.telem k with
    | some (p, age) => if age ≤ 3 then p else 60000
    | none => 60000

/-- CAP_ALLOCATE (R514): every 10 ms, while the loop is not broken (R510). (DEDUCED: notes/assumptions/43.md.) -/
def execCapAllocate (s : State) : Res :=
  if s.role ≠ 2 || s.cas.broken then .next s
  else
    let s0 := s.updCas fun c => { c with telem := c.telem.map fun e => (e.1, (e.2.1, e.2.2 + 1)) }
    let caps := allocate (s0.rd F.CAS_BUDGET_BUDGET 0) (s0.memberList.map fun k => (k, s0.reportOf k))
    .next (foldS caps s0 fun t e =>
      if e.1 = t.me then t.wr F.PWR_CAP_CAP 0 e.2
      else
        match Store.find t.cas.lastCap e.1 with
        | some v => if 1000 ≤ (if v ≤ e.2 then e.2 - v else v - e.2) then
              (t.updCas fun c => { c with lastCap := Store.insert c.lastCap e.1 e.2 }).send 0x05 false false e.1 [2, e.2] else t
        | none => (t.updCas fun c => { c with lastCap := Store.insert c.lastCap e.1 e.2 }).send 0x05 false false e.1 [2, e.2])

/-- RINGRPT (R515). -/
def execRingrpt (c : CasHdr) (rstate : BitVec 2) (size : BitVec 8) (s : State) : Res :=
  let _ := size
  .next (s.onMgr c 0x07 fun t => t.ringReport c.src.val rstate.toNat)

/-- s after a write of CAS_BUDGET (R539). -/
def State.wCasBudget (s : State) (v : Nat) : State :=
  let b := F.CAS_BUDGET_BUDGET.of v
  if b < 320000 ∨ 960000 < b then s.emit Ev.CAS_CFG_REFUSED Un.inst 0 0 else s.storeReg .CAS_BUDGET 0 v false

/-! ## Forwarding (R503, R504) -/

/-- CASCADE_FORWARD: a message that this instance does not act on. One that finds the buffer full is dropped; one whose CRC fails leaves with the
inverted CRC. An excluded instance forwards even what bears its own number. (DEDUCED: notes/assumptions/43.md.) -/
def execCascadeForward (c : CasHdr) (typ : BitVec 8) (crcOk bufferFull : Bool) (len : Nat) (s : State) : Res :=
  let s1 := s.updCas fun k => { k with linkDown := false }
  let own := c.src.val == s1.me && typ != 1 && s1.role != 3
  let toMe := !c.bc && c.dst.val == s1.me
  let s2 := if own || toMe then s1 else s1.updCas fun k => { k with fwd := k.fwd ++ [FwdMsg.mk c typ.toNat (some len) crcOk] }
  if bufferFull then .next (s1.bump F.CAS_CNT_OVFDROP 0 1)
  else if !crcOk then .next (s2.bump F.CAS_CNT_CRCERR 0 1)
  else if own && !c.bc && !toMe then .next (s2.bump F.CAS_CNT_UNDELIV 0 1)
  else .next s2

end Sys2Proof.Machine
end

