-- ==== Sys2Proof/Machine/EventCmd.lean ====
section
/-! DEFINITION. Sys2Proof/Machine/EventCmd.lean: the collector, the event queues, the sediment log and its aggregation
(20_events_and_sediment.md R544 to R561). -/
namespace Sys2Proof.Machine

/-- s with the events' state changed. -/
def State.updEv (s : State) (f : Events → Events) : State := { s with events := f s.events }

/-- The four words of a record (R541). -/
def State.recWords (s : State) (e : EvRec) : List Nat :=
  [e.time, e.tide * 2 ^ 32 + e.code * 2 ^ 16 + e.tst * 2 ^ 14 + e.unit, s.me * 2 ^ 60 + e.sev * 2 ^ 57 + e.arg0, e.arg1]

/-- Words as bytes. -/
def wordBytes (l : List Nat) : Bytes := l.flatMap fun w => toLE 8 w

/-! ## The sediment log (R551 to R553) -/

/-- s with the log frozen at a code and an index, and SED_FROZEN, to the queues only. -/
def State.freezeLog (s : State) (code idx : Nat) : State :=
  let s1 := (((s.wr F.GLB_SEDSTAT_FROZEN 0 1).wr F.GLB_SEDSTAT_POSTING 0 0).wr F.GLB_SEDSTAT_FIDX 0 idx).wr F.GLB_SEDSTAT_FCODE 0 code
  s1.emit Ev.SED_FROZEN Un.inst code idx

/-- s with a record in the next entry of the log. -/
def State.putLog (s : State) (e : EvRec) : State :=
  let w := s.rd F.GLB_SEDSTAT_WIDX 0
  let s1 := ((s.updEv fun v => { v with log := Store.insert v.log w e }).wr F.GLB_SEDSTAT_WIDX 0 ((w + 1) % 4096)).bump F.GLB_SEDCNT_LOGGED 0 1
  if w = 4095 then s1.bump F.GLB_SEDSTAT_WRAPS 0 1 else s1

/-- s with a record logged (R551, R552): from severity LEVEL on and never SED_FROZEN; a fatal one starts the freeze, and each post entry brings it
nearer. (DEDUCED: notes/assumptions/44.md.) -/
def State.logRecord (s : State) (e : EvRec) : State :=
  if e.sev < s.rd F.GLB_SEDCTL_LEVEL 0 ∨ e.sev = 0 ∨ e.code = Ev.SED_FROZEN then s
  else if s.flag F.GLB_SEDSTAT_FROZEN 0 then s.bump F.GLB_SEDCNT_MISSED 0 1
  else
    let w := s.rd F.GLB_SEDSTAT_WIDX 0
    let s1 := s.putLog e
    if s.flag F.GLB_SEDSTAT_POSTING 0 then
      let left := s.events.postLeft - 1
      let s2 := s1.updEv fun v => { v with postLeft := left }
      if left = 0 then s2.freezeLog (s2.rd F.GLB_SEDSTAT_FCODE 0) (s2.rd F.GLB_SEDSTAT_FIDX 0) else s2
    else if e.sev = 4 then
      let post := s.rd F.GLB_SEDCTL_POST 0
      if post = 0 then s1.freezeLog e.code w
      else
        (((s1.wr F.GLB_SEDSTAT_FIDX 0 w).wr F.GLB_SEDSTAT_FCODE 0 e.code).wr F.GLB_SEDSTAT_POSTING 0 1).updEv fun v => { v with postLeft := post }
    else s1

/-- s with FREEZE written (R553). -/
def State.sedFreeze (s : State) : State :=
  if s.flag F.GLB_SEDSTAT_FROZEN 0 then s
  else if s.flag F.GLB_SEDSTAT_POSTING 0 then s.freezeLog (s.rd F.GLB_SEDSTAT_FCODE 0) (s.rd F.GLB_SEDSTAT_FIDX 0)
  else s.freezeLog 0 (s.rd F.GLB_SEDSTAT_WIDX 0)

/-- s with REARM written (R553). -/
def State.sedRearm (s : State) (clear : Bool) : State :=
  let on := s.flag F.GLB_SEDSTAT_FROZEN 0 || s.flag F.GLB_SEDSTAT_POSTING 0
  if !on && !clear then s
  else
    let s1 := ((s.wr F.GLB_SEDSTAT_FROZEN 0 0).wr F.GLB_SEDSTAT_POSTING 0 0).updEv fun v => { v with postLeft := 0 }
    let s2 := if clear then ((s1.updEv fun v => { v with log := [] }).wr F.GLB_SEDSTAT_WIDX 0 0).wr F.GLB_SEDSTAT_WRAPS 0 0 else s1
    s2.emit Ev.SED_REARMED Un.inst (b2n clear) 0

/-- s with a write of this chapter's registers refused (R561). -/
def State.sedRefuse (s : State) (code off : Nat) : State := (s.wr F.GLB_EVCNT_ERR 0 code).emit Ev.SED_CFG_REFUSED Un.inst code off

/-- s after a write of GLB_SEDCTL. -/
def State.wSedctl (s : State) (v : Nat) : State :=
  let l := F.GLB_SEDCTL_LEVEL.of v
  if l = 0 ∨ 4 < l then s.sedRefuse 5 (Reg.addr .GLB_SEDCTL 0)
  else
    let s1 := s.storeReg .GLB_SEDCTL 0 v false
    let s2 := if F.GLB_SEDCTL_REARM.of v = 1 then s1.sedRearm (F.GLB_SEDCTL_CLEAR.of v == 1) else s1
    if F.GLB_SEDCTL_FREEZE.of v = 1 then s2.sedFreeze else s2

/-- FREEZE (R553): GLB_SEDCTL written as it is with FREEZE 1. -/
def execFreeze (s : State) : Res := .next (s.hostWrite .GLB_SEDCTL 0 fun t => t.wSedctl (t.reg .GLB_SEDCTL 0 + 2 ^ 63))

/-- REARM (R553): GLB_SEDCTL written as it is with REARM 1, and CLEAR as given. -/
def execRearm (clear : Bool) (s : State) : Res :=
  .next (s.hostWrite .GLB_SEDCTL 0 fun t => t.wSedctl (t.reg .GLB_SEDCTL 0 + 2 ^ 62 + b2n clear * 2 ^ 61))

/-! ## The collector (R544, R545) -/

/-- The queue takes records: EN, and no error that stopped it (R548). -/
def State.queueOn (s : State) (q : Nat) : Bool :=
  s.flag F.GLB_EVQ_EN q && !(if q = 0 then s.flag F.GLB_EVCNT_QERR0 0 else s.flag F.GLB_EVCNT_QERR1 0)

/-- The queue that R545 chooses for a record. (DEDUCED: notes/assumptions/44.md.) -/
def State.evRoute (s : State) (e : EvRec) : Option Nat :=
  if e.sev = 0 then (if s.queueOn 0 then some 0 else if s.queueOn 1 then some 1 else none)
  else if s.queueOn 1 && decide (s.rd F.GLB_EVQ_QLEVEL 1 ≤ e.sev) then some 1 else none

/-- Writing to the queues is possible (R548). -/
def State.evWritable (s : State) : Bool :=
  s.rd F.GLB_BOOTSTAT_PHASE 0 == 8 && s.domOn 63 && decide (s.rd F.GLB_PSTATE_CUR 0 < 3) && !s.boot.leaving

/-- s with a record that no queue takes gone: a routine one is counted. -/
def State.evDrop (s : State) (e : EvRec) : State := if e.sev = 0 then s.bump F.GLB_EVCNT_DROPPED 0 1 else s

/-- A routine or fault record of a spout, which waits for room (R544). (DEDUCED: notes/assumptions/44.md.) -/
def EvRec.waits (e : EvRec) : Bool := decide (0x200 ≤ e.unit ∧ e.unit ≤ 0x2A0) && (e.sev == 0 || e.code % 256 == 0x81)

/-- The record that enters next: of those that arose in the cycle of the oldest, the first of the lowest unit; a spout's record that finds the
buffer full lets the others pass. (DEDUCED: notes/assumptions/44.md.) -/
def State.nextRecord (s : State) : Option EvRec :=
  let l := s.events.arising.filter fun e => !(e.waits && s.evFull)
  match l with
  | [] => none
  | e :: _ =>
    let same := l.filter fun x => x.time = e.time
    let u := same.foldl (fun a x => Nat.min a x.unit) e.unit
    same.find? fun x => x.unit = u

/-- EVENT_COLLECT (R544): logged, then buffered for a queue; a record that finds the buffer full, or that no queue takes while writing is
possible, is not queued. (DEDUCED: notes/assumptions/44.md.) -/
def execEventCollect (s : State) : Res :=
  match s.nextRecord with
  | none => .next s
  | some e =>
    let s1 := s.updEv fun v => { v with arising := dropFirst (fun x => x == e) v.arising }
    let s2 := s1.logRecord e
    if s2.evWritable && (s2.evRoute e).isNone then .next (s2.evDrop e)
    else if (if e.sev = 4 then decide (256 ≤ s2.events.buffer.length) else s2.evFull) then .next (s2.bump F.GLB_EVCNT_DROPPED 0 1)
    else .next (s2.updEv fun v => { v with buffer := v.buffer ++ [e] })

/-! ## The event queues (R546 to R550) -/

/-- PROD and CONS of queue q, its area, and its size in records. -/
def State.prod (s : State) (q : Nat) : Nat := s.rd F.GLB_EVQPTR_PROD q
def State.consOf (s : State) (q : Nat) : Nat := s.rd F.GLB_EVQPTR_CONS q
def State.evArea (s : State) (q : Nat) : Nat := s.rd F.GLB_EVQ_BASE q * 4096
def State.evSize (s : State) (q : Nat) : Nat := 2 ^ s.rd F.GLB_EVQ_LOG2N q

/-- s with ARMED of queue q set. -/
def State.setArmed (s : State) (q : Nat) (b : Bool) : State := s.wrB (if q = 0 then F.GLB_EVCNT_ARMED0 else F.GLB_EVCNT_ARMED1) 0 b
/-- s with QERR of queue q set. -/
def State.setQerr (s : State) (q : Nat) (b : Bool) : State := s.wrB (if q = 0 then F.GLB_EVCNT_QERR0 else F.GLB_EVCNT_QERR1) 0 b
/-- Queue q is armed. -/
def State.armed (s : State) (q : Nat) : Bool := s.flag (if q = 0 then F.GLB_EVCNT_ARMED0 else F.GLB_EVCNT_ARMED1) 0

/-- s with a notification of queue q sent on the event channel, which disarms it (R549). (DEDUCED: notes/assumptions/44.md.) -/
def State.notify (s : State) (q : Nat) : State :=
  let w := s.rd F.GLB_EVQ_VECTOR q * 2 ^ 48 + s.me * 2 ^ 44 + q * 2 ^ 43 + b2n (Store.get false s.events.fatal q) * 2 ^ 42 + s.prod q
  (s.updEv fun v => { v with notes := v.notes ++ [w], fatal := Store.put false v.fatal q false }).setArmed q false

/-- s with n records of queue q lost. (DEDUCED: notes/assumptions/44.md.) -/
def State.evLost (s : State) (q n : Nat) : State :=
  let s1 := s.bump (if q = 0 then F.GLB_EVCNT_LOST0 else F.GLB_EVCNT_LOST1) 0 n
  s1.updEv fun v => { v with lostRun := Store.put 0 v.lostRun q (Store.get 0 v.lostRun q + n),
                             lostAll := Store.put 0 v.lostAll q ((Store.get 0 v.lostAll q + n) % 2 ^ 32) }

/-- A write of n bytes to local memory at a is answered DECERR: beyond the capacity, or on a fenced pseudo-channel. -/
def State.writeFails (s : State) (a n : Nat) : Bool :=
  s.map.mode == 0 || decide (s.cap < a + n) || s.fenced (s.gloc (a / 64)).pc

/-- s with a record at place n of queue q and the mirror word after it, or the queue stopped by the error of the write (R546, R548); whether it was
written. -/
def State.evPut (s : State) (q n prod : Nat) (e : EvRec) : State × Bool :=
  let a := s.evArea q + 64 + n % s.evSize q * 32
  let bad := fun (t : State) => (((t.setQerr q true).emit Ev.EVQ_ERROR Un.inst q 0), false)
  if s.writeFails a 32 then bad s
  else
    let s1 := s.blockWrite 0 a (wordBytes (s.recWords e))
    if s1.writeFails (s1.evArea q) 64 then bad s1
    else
      let lost := Store.get 0 s1.events.lostAll q
      let s2 := s1.blockWrite 0 (s1.evArea q) (wordBytes [prod + lost * 2 ^ 32, 0, 0, 0, 0, 0, 0, 0])
      let s3 := s2.wr F.GLB_EVQPTR_PROD q prod
      (if e.sev = 4 then s3.updEv fun v => { v with fatal := Store.put false v.fatal q true } else s3, true)

/-- s with the notification that a record written calls for (R549). -/
def State.evNote (s : State) (q : Nat) (fatal : Bool) : State := if fatal || s.armed q then s.notify q else s

/-- The EVQ_LOST record of queue q for n records (R547). -/
def State.lostRecord (s : State) (q n : Nat) : EvRec :=
  let tst := s.rd F.TIM_TIDE_TSTATE 0
  { time := s.wall, tide := if tst = 0 then 0 else s.rd F.TIM_TIDE_TIDE 0, code := Ev.EVQ_LOST, tst := tst, unit := Un.inst,
    sev := sevOf Ev.EVQ_LOST, arg0 := q, arg1 := n }

/-- s with the buffered records in front that no queue takes gone, and the first one for queue q, if any. (DEDUCED: notes/assumptions/44.md.) -/
def State.evFirst (s : State) (q : Nat) : List EvRec → State × Option EvRec
  | [] => (s, none)
  | e :: l =>
    match s.evRoute e with
    | none => State.evFirst ((s.evDrop e).updEv fun v => { v with buffer := dropFirst (fun x => x == e) v.buffer }) q l
    | some k => if k = q then (s, some e) else State.evFirst s q l

/-- EVENT_QUEUE_WRITE (R546, R547): EVQ_LOST first where records were lost and there is room; then the oldest record for the queue, dropped where the
queue is full unless it is fatal, when it takes the place of the newest unread one. (DEDUCED: notes/assumptions/44.md.) -/
def State.evWrite (s : State) (n : Nat) : State :=
  if !s.evWritable then s
  else
    let (t, next) := s.evFirst n s.events.buffer
    let p := t.prod n
    let full := (p + 2 ^ 32 - t.consOf n) % 2 ^ 32 == t.evSize n
    let lost := Store.get 0 t.events.lostRun n
    if !full && lost != 0 && t.queueOn n then
      match t.evPut n p ((p + 1) % 2 ^ 32) (t.lostRecord n lost) with
      | (u, true) => ((u.updEv fun v => { v with lostRun := Store.put 0 v.lostRun n 0 }).evNote n false)
      | (u, false) => u
    else
      match next with
      | none => t
      | some e =>
        let taken := fun (u : State) => u.updEv fun v => { v with buffer := dropFirst (fun x => x == e) v.buffer }
        if full && e.sev != 4 then ((taken t).evLost n 1)
        else if full then
          match (t.evLost n 1).evPut n (p + 2 ^ 32 - 1) p e with
          | (u, true) => ((taken u).evNote n true)
          | (u, false) => u
        else
          match t.evPut n p ((p + 1) % 2 ^ 32) e with
          | (u, true) => ((taken u).evNote n (e.sev == 4))
          | (u, false) => u

/-- EVENT_QUEUE_WRITE (R546 to R549). -/
def execEventQueueWrite (q : Fin 2) (s : State) : Res := .next (s.wholly fun t => t.evWrite q.val)

/-- s after a write of GLB_EVQPTR[q] (R549, R561): CONS arms the queue, and a queue that is not empty notifies at once. -/
def State.wEvqptr (s : State) (q v : Nat) : State :=
  let c := F.GLB_EVQPTR_CONS.of v
  if s.evSize q < (s.prod q + 2 ^ 32 - c) % 2 ^ 32 then s.sedRefuse 4 (Reg.addr .GLB_EVQPTR q)
  else
    let s1 := (s.wr F.GLB_EVQPTR_CONS q c).setArmed q true
    if s1.prod q = c then s1 else s1.notify q

/-- CONS_WRITE (R549). -/
def execConsWrite (q : Fin 2) (v : Word) (s : State) : Res := .next (s.hostWrite .GLB_EVQPTR q.val fun t => t.wEvqptr q.val v.toNat)

/-- s after a write of GLB_EVQ[q] (R550, R561). -/
def State.wEvq (s : State) (q v : Nat) : State :=
  let run := s.flag F.GLB_EVQ_EN q
  let p := s.proposed .GLB_EVQ q v run
  let en := F.GLB_EVQ_EN.of p == 1
  let lv := F.GLB_EVQ_QLEVEL.of p
  let lg := F.GLB_EVQ_LOG2N.of p
  match firstCode [(q == 1 && (lv == 0 || decide (4 < lv)), 1), (en && decide (lg < 6 ∨ 16 < lg), 2),
      (en && !s.map.insidePriv (F.GLB_EVQ_BASE.of p * 4096) (64 + 32 * 2 ^ lg), 3)] with
  | 0 =>
    let moved := F.GLB_EVQ_BASE.of p ≠ s.rd F.GLB_EVQ_BASE q ∨ lg ≠ s.rd F.GLB_EVQ_LOG2N q
    let s1 := (s.storeReg .GLB_EVQ q v run).setQerr q false
    if moved then
      (s1.setReg .GLB_EVQPTR q 0).updEv fun e => { e with lostRun := Store.put 0 e.lostRun q 0, lostAll := Store.put 0 e.lostAll q 0 }
    else s1
  | c => s.sedRefuse c (Reg.addr .GLB_EVQ q)

/-- GLB_EVQ_WRITE (R550). -/
def execGlbEvqWrite (q : Fin 2) (v : Word) (s : State) : Res := .next (s.hostWrite .GLB_EVQ q.val fun t => t.wEvq q.val v.toNat)

/-! ## Aggregation (R554 to R556) -/

/-- The words of log entry i as the SED window shows them (R551). -/
def State.logWords (s : State) (i : Nat) : List Nat :=
  match Store.find s.events.log i with
  | some e => s.recWords e
  | none => [0, 0, 0, 0]

/-- Summary word 0 of the log as it stands, without COMPLETE (R554). -/
def State.logState (s : State) : Nat :=
  b2n (s.flag F.GLB_SEDSTAT_FROZEN 0) * 2 ^ 62 + b2n (s.flag F.GLB_SEDSTAT_POSTING 0) * 2 ^ 61 + s.rd F.GLB_SEDSTAT_FIDX 0 * 2 ^ 48
    + s.rd F.GLB_SEDSTAT_FCODE 0 * 2 ^ 32 + s.rd F.GLB_SEDSTAT_WRAPS 0 * 2 ^ 16 + s.rd F.GLB_SEDSTAT_WIDX 0

/-- The entries that a log with summary word w holds, oldest first. -/
def logIndices (w : Nat) : List Nat :=
  let widx := bits w 11 0
  if bits w 31 16 = 0 then List.range widx else (List.range 4096).map fun k => (widx + k) % 4096

/-- The base of the aggregation area. -/
def State.aggBase (s : State) : Nat := s.rd F.GLB_SEDAGG_BASE 0 * unit2M

/-- s with words written in the aggregation area at an offset. -/
def State.aggPut (s : State) (off : Nat) (l : List Nat) : State := s.blockWrite 0 (s.aggBase + off) (wordBytes l)

/-- s with the summary of instance k written, and its bit in COMPLETE or INCOMPLETE. -/
def State.aggSummary (s : State) (k w overrun missing : Nat) : State :=
  let ok := missing == 0
  let s1 := s.aggPut (0x200000 + k * 0x40) [w + b2n ok * 2 ^ 63, overrun * 2 ^ 16 + missing, 0, 0, 0, 0, 0, 0]
  if ok then s1.wr F.GLB_SEDAGGSTAT_COMPLETE 0 (s1.rd F.GLB_SEDAGGSTAT_COMPLETE 0 ||| 2 ^ k)
  else s1.wr F.GLB_SEDAGGSTAT_INCOMPLETE 0 (s1.rd F.GLB_SEDAGGSTAT_INCOMPLETE 0 ||| 2 ^ k)

/-- s with REQ sent to the member being collected. (DEDUCED: notes/assumptions/44.md.) -/
def State.aggReq (s : State) : State :=
  s.send 0x30 false false (s.rd F.GLB_SEDAGGSTAT_CUR 0) [0, s.me, b2n (s.flag F.GLB_SEDAGG_FREEZE 0)]

/-- s with the next member's collection begun, or the collection done. -/
def State.aggNext (s : State) : State :=
  match s.events.aggLeft with
  | [] =>
    (s.wr F.GLB_SEDAGGSTAT_STATE 0 2).emit Ev.SED_AGG_DONE Un.inst (s.rd F.GLB_SEDAGGSTAT_COMPLETE 0) (s.rd F.GLB_SEDAGGSTAT_INCOMPLETE 0)
  | k :: l =>
    ((s.updEv fun v => { v with aggLeft := l, aggGot := [], aggRound := 0, aggRetry := false }).wr F.GLB_SEDAGGSTAT_CUR 0 k).aggReq

/-- s with a collection begun: the area cleared, the own log copied, and the members in ascending number. (DEDUCED: notes/assumptions/44.md.) -/
def State.aggBegin (s : State) : State :=
  let s0 := if s.flag F.GLB_SEDAGG_FREEZE 0 then s.sedFreeze else s
  let s1 := ((s0.wr F.GLB_SEDAGGSTAT_STATE 0 1).wr F.GLB_SEDAGGSTAT_COMPLETE 0 0).wr F.GLB_SEDAGGSTAT_INCOMPLETE 0 0
  let s2 := foldS (List.range 1024) s1 fun t k => t.blockWrite 0 (t.aggBase + 4096 * k) (bytesOf 4096 0#8)
  let s3 := foldS s2.events.log s2 fun t e => t.aggPut (t.me * 0x20000 + e.1 * 0x20) (t.logWords e.1)
  let s4 := (s3.wr F.GLB_SEDAGGSTAT_CUR 0 s3.me).aggSummary s3.me s3.logState 0 0
  (s4.updEv fun v => { v with aggLeft := s4.memberList.filter fun k => k ≠ s4.me }).aggNext

/-- s after a write of GLB_SEDAGG (R554, R556, R561). -/
def State.wSedagg (s : State) (v : Nat) : State :=
  let go := F.GLB_SEDAGG_START.of v == 1
  match firstCode [(go && s.role != 2, 6), (go && !s.flag F.CAS_STAT_LOOPOK 0, 7),
      (go && !s.map.insidePriv (F.GLB_SEDAGG_BASE.of v * unit2M) 4194304, 8), (go && s.rd F.GLB_SEDAGGSTAT_STATE 0 == 1, 9)] with
  | 0 =>
    let s1 := s.storeReg .GLB_SEDAGG 0 v false
    if go then s1.wholly State.aggBegin else s1
  | c => s.sedRefuse c (Reg.addr .GLB_SEDAGG 0)

/-- SED_AGG_START (R554): a write of GLB_SEDAGG with START. -/
def execSedAggStart (v : Word) (s : State) : Res := .next (s.hostWrite .GLB_SEDAGG 0 fun t => t.wSedagg (setBits v.toNat 63 63 1))

/-- A list cut into pieces of at most seven, over fuel. -/
def sevens : Nat → List Nat → List (List Nat)
  | 0, _ => []
  | n + 1, l => if l.isEmpty then [] else l.take 7 :: sevens n (l.drop 7)

/-- s of a worker with DATA messages for a list of entries sent, and END with the snapshot (R555 steps 2 and 3). (DEDUCED: notes/assumptions/44.md.) -/
def State.sedSend (s : State) (l : List Nat) : State :=
  let s1 := foldS (sevens l.length l) s fun t p => t.send 0x30 false false t.mgr ([1, t.me, p.headD 0, p.length] ++ p.flatMap t.logWords)
  s1.send 0x30 false false s1.mgr [2, s1.me, s1.events.aggSnap]

/-- The runs of consecutive numbers in a rising list, as (first, count). (DEDUCED: notes/assumptions/44.md.) -/
def runsOf (l : List Nat) : List (Nat × Nat) :=
  (l.foldl (fun (rs : Ranges) k => Ranges.add rs k (k + 1)) []).map fun r => (r.1, r.2 - r.1)

/-- s of the manager after END of the member being collected, with its snapshot (R555 steps 4 and 5). (DEDUCED: notes/assumptions/44.md.) -/
def State.aggEnd (s : State) (k w : Nat) : State :=
  let got := s.events.aggGot
  let miss := (logIndices w).filter fun i => !(got.any fun e => e.1 = i)
  if !miss.isEmpty && decide (s.events.aggRound < 3) then
    let ranges := (runsOf ((List.range 4096).filter miss.contains)).take 16
    (s.updEv fun v => { v with aggRound := v.aggRound + 1, aggRetry := false }).send 0x30 false false k
      ([3, s.me] ++ ranges.flatMap fun r => [r.1, r.2])
  else
    let newest := Store.get 0 got ((bits w 11 0 + 4095) % 4096)
    let excess := (got.filter fun e => decide (newest < e.2)).length
    (s.aggSummary k w excess miss.length).aggNext

/-- SED (R555): REQ and RESEND on a worker, DATA and END of the member being collected on the manager. `packet` is FIRST; the data of REQ is the
FREEZE bit, of DATA whole entries, of END the snapshot, of RESEND pairs of 16-bit numbers. (DEDUCED: notes/assumptions/44.md.) -/
def execSed (c : CasHdr) (sub : BitVec 8) (packet : BitVec 16) (data : Bytes) (s : State) : Res :=
  .next (s.onCas c 0x30 fun w => w.wholly fun t =>
    let k := c.src.val
    let mine := t.role == 2 && t.rd F.GLB_SEDAGGSTAT_STATE 0 == 1 && t.rd F.GLB_SEDAGGSTAT_CUR 0 == k
    match sub.toNat with
    | 0 =>
      if t.role ≠ 1 || k != t.mgr then t
      else
        let t1 := if (data.headD 0#8).toNat % 2 = 1 then t.sedFreeze else t
        let w := t1.logState
        (t1.updEv fun v => { v with aggSnap := w }).sedSend (logIndices w)
    | 1 =>
      if !mine then t
      else
        let n := Nat.min 7 (data.length / 32)
        foldS (List.range n) (t.updEv fun v => { v with aggRetry := false }) fun u j =>
          let i := (packet.toNat + j) % 4096
          let d := sliceB data (32 * j) 32
          (u.blockWrite 0 (u.aggBase + k * 0x20000 + i * 0x20) d).updEv fun v => { v with aggGot := Store.insert v.aggGot i (leNat (d.take 8)) }
    | 2 => if mine then t.aggEnd k (leNat (sliceB data 0 8)) else t
    | 3 =>
      if t.role ≠ 1 || k != t.mgr then t
      else
        let l := (List.range (Nat.min 16 (data.length / 4))).flatMap fun j =>
          (List.range (leNat (sliceB data (4 * j + 2) 2))).map fun x => (leNat (sliceB data (4 * j) 2) + x) % 4096
        t.sedSend l
    | _ => t)

/-- SED_WORKER_TIMEOUT (R555): REQ once more, and then the member is incomplete. -/
def execSedWorkerTimeout (s : State) : Res :=
  if s.role ≠ 2 || s.rd F.GLB_SEDAGGSTAT_STATE 0 != 1 then .next s
  else if !s.events.aggRetry then .next (s.updEv fun v => { v with aggRetry := true }).aggReq
  else
    let k := s.rd F.GLB_SEDAGGSTAT_CUR 0
    .next (s.wr F.GLB_SEDAGGSTAT_INCOMPLETE 0 (s.rd F.GLB_SEDAGGSTAT_INCOMPLETE 0 ||| 2 ^ k)).aggNext

end Sys2Proof.Machine
end

