-- ==== Sys2Proof/Machine/RegFile.lean ====
section
/-! DEFINITION. Sys2Proof/Machine/RegFile.lean: every register as a read shows it and as a write changes it (00_scope.md R11 to R16), and the windows of
the register space that hold arrays: the sediment log, the tier store, the error records, the key slots and the mailboxes. -/
namespace Sys2Proof.Machine

/-! ## What a read shows -/

/-- w with field f showing v. -/
def Field.show (f : Field) (v w : Nat) : Nat := setBits w f.hi f.lo v

/-- Factor of 1 over a division of level l. -/
def capFactor (l : Nat) : Nat × Nat := (1, 2 ^ l)

/-- The level of the smallest of three factors under the method of domain c: thermal level t, capping level k, ladder level l; the highest such level
where two factors are equal. -/
def State.leastLevel (s : State) (c t k l : Nat) : Nat :=
  let ls := [(s.factorOf c t, t), (capFactor k, k), (s.factorOf c l, l)]
  let m := ls.foldl (fun a e => minFactor a e.1) (1, 1)
  (ls.filter fun e => decide (e.1.1 * m.2 = m.1 * e.1.2)).foldl (fun a e => Nat.max a e.2) 0

/-- LEVEL of domain d (16_power_and_thermal.md R431, R445 to R447). (DEDUCED: notes/assumptions/33.md.) -/
def State.domLevel (s : State) (d : Nat) : Nat :=
  let step := s.rd F.PWR_STAT_LADDER 0
  let capOf := fun t => Nat.min 2 (s.rd F.PWR_TRI_CAPLVL t)
  if 40 ≤ d ∧ d < 56 then
    let g := (d - 40) / 4
    s.leastLevel d (bits (s.rd F.THM_STAT_JETLVL 0) (2 * g + 1) (2 * g)) (capOf (triadOf d)) (Nat.min 2 step)
  else if d = 64 then s.leastLevel 64 (s.thmLvl 5) (capOf (triadOf 64)) 0
  else if s.power.shut = 1 || s.phase = 9 then 0
  else s.leastLevel 63 (s.rd F.THM_STAT_RILLLVL 0) ((rillTriads.map capOf).foldl Nat.max 0) (step - 2)

/-- A jet's status (07_jet_engines.md R215): holder and busy bit of each resource, spouts in RUN or WAIT. -/
def State.jetStat (s : State) (e : Nat) : Nat :=
  let part := fun (u lo : Nat) => match Store.get none (s.jet e).holder u with
    | some sp => (2 * (sp % 4) + 1) * 2 ^ lo
    | none => 0
  let act := fun (k : Nat) => if s.spSt (32 + 4 * e + k) = 2 || s.spSt (32 + 4 * e + k) = 3 then 2 ^ k else 0
  part 0 21 + part 1 18 + part 2 15 + part 3 12 + part 4 9 + act 0 + act 1 + act 2 + act 3

/-- A pseudo-channel's status: open rows and entries of its queue (10_rills.md R306). -/
def State.pcView (s : State) (n w : Nat) : Nat :=
  let p := s.pc n
  let bg := (p.queue.filter (·.bg)).length
  F.PC_STAT_OPENROWS.show (p.banks.filter fun b => b.2.row.isSome).length
    (F.PC_STAT_QLEVEL.show (p.queue.length - bg) (F.PC_STAT_BGLEVEL.show bg w))

/-- The scrub status (12_data_integrity.md R355, R356): LAG is the largest of the lags, MINPAGE the lowest page of an open pseudo-channel. -/
def State.scrubView (s : State) (w : Nat) : Nat :=
  let worst := match s.scrubbed.map s.scrubLag with
    | [] => 0
    | x :: l => l.foldl max x
  let opens := (List.range 64).filter fun n => s.pcSt n == 1
  let low := match opens.map fun n => (s.pc n).scrubPage with
    | [] => 0
    | x :: l => l.foldl Nat.min x
  F.RAS_SCRUBSTAT_PASSES.show s.passes (F.RAS_SCRUBSTAT_LAG.show (wrapInt 8 (max (-128) (min 127 worst)))
    (F.RAS_SCRUBSTAT_MINPAGE.show low w))

/-- What a read of copy i of register r returns. Status that follows from queues, tables and levels is worked out here. -/
def State.viewReg (s : State) (r : Reg) (i : Nat) : Nat :=
  let w := s.reg r i
  match r with
  | .ITK_FPSTAT => F.ITK_FPSTAT_OUTSTANDING.show (Store.get [] s.intake.tags i).length w
  | .GLB_PINSTAT =>
    F.GLB_PINSTAT_BYP.show (s.rd F.AQD_RING_QUAL 0)
      (F.GLB_PINSTAT_COMPUTE_RST.show (b2n s.boot.compute) (F.GLB_PINSTAT_REFCLK_LOCK.show (b2n s.boot.refclk) w))
  | .JET_STAT => s.jetStat i
  | .TXU_OPEN => (List.range 64).foldl (fun a n => if (s.slot n).st = .free then a else a + 2 ^ n) 0
  | .TXU_PKG => (List.range 8).foldl (fun a x => a + s.pkgState x * 2 ^ (4 * x)) 0
  | .PC_STAT => s.pcView i w
  | .PC_REFSTAT => F.PC_REFSTAT_MAXOWED.show ((s.pc i).banks.foldl (fun a b => Nat.max a b.2.owed) 0) w
  | .ITK_GSTAT => s.minSum * 2 ^ 32 + s.limit
  | .ITK_CLSSTAT => F.ITK_CLSSTAT_OUTSTANDING.show (Store.get 0 s.intake.outCls i) w
  | .BAS_STAT =>
    F.BAS_STAT_BGATED.show (b2n s.bGated) (F.BAS_STAT_DEADENT.show s.basin.dead.length (F.BAS_STAT_PINNED.show s.pinned w))
  | .BAS_CLSPIN => F.BAS_CLSPIN_PINNED.show (s.basin.lines.filter fun l => l.pinned == some i).length w
  | .RAS_SCRUBSTAT => s.scrubView w
  | .RAS_STAT =>
    F.RAS_STAT_FILLS.show s.basin.fills.length
      (F.RAS_STAT_REMAPS.show ((List.range 32).filter fun k => s.flag F.RAS_REMAP_VALID k).length
        (F.RAS_STAT_PENDING.show ((List.range 16).filter fun k => s.flag F.RAS_PEND_VALID k).length w))
  | .WEI_QSTAT => F.WEI_QSTAT_QLEN.show ((Store.get [] (s.weir (i / 8)).queues (i % 8)).filter fun f => !f.1).length w
  | .PWR_DSTAT => F.PWR_DSTAT_LEVEL.show (s.domLevel i) w
  | .CAL_STAT => F.CAL_STAT_ACTIVITIES.show (s.cal.acts.filter (·.started)).length w
  | _ => w

/-- What a read of copy i of register r returns, and s after it: RC fields are cleared (R15). -/
def State.readReg (s : State) (r : Reg) (i : Nat) : Nat × State :=
  let v := r.fields.foldl (fun a f => if f.accAt i = .WO then setBits a f.hi f.lo 0 else a) (s.viewReg r i)
  (v, s.setReg r i (r.fields.foldl (fun a f => if f.accAt i = .RC then setBits a f.hi f.lo 0 else a) (s.reg r i)))

/-! ## What a write changes -/

/-- s after a write of v to a register of a leg (17_calibration_and_training.md R470): running while the leg carries traffic or an activity; any write
clears VERIFIED. -/
def State.wLeg (s : State) (r : Reg) (ver : Field) (i leg v : Nat) : State :=
  (s.storeReg r i v (s.legBusy leg || s.rd F.CAL_LSTAT_ACT leg != 0)).wrB ver i false

/-- s with a write of the time registers refused (15_time_and_tide.md R422). -/
def State.timRefuse (s : State) (code idx : Nat) : State :=
  ((s.wr F.TIM_TCNT_ERR 0 code).wr F.TIM_TCNT_IDX 0 idx).emit Ev.TIM_CFG_REFUSED Un.inst code idx

/-- s after a write of TIM_TCTL (R413, R422). -/
def State.wTctl (s : State) (v : Nat) : State :=
  if F.TIM_TCTL_STALL.of (s.proposed .TIM_TCTL 0 v false) = 0 then s.timRefuse 4 0
  else
    let s1 := s.storeReg .TIM_TCTL 0 v false
    if F.TIM_TCTL_REBASE.of v = 1 then { s1 with time := { s1.time with rebase := true } } else s1

/-- POINT lies at the internal tide or behind it (R421). -/
def State.behindTide (s : State) (point : Nat) : Bool :=
  let d := (point + 2 ^ 32 - s.rd F.TIM_TIDE_TIDE 0) % 2 ^ 32
  d == 0 || decide (2 ^ 31 ≤ d)

/-- The first check of R422 that a value of TIM_EVT0 breaks, or 0. -/
def evt0Code (p : Nat) : Nat :=
  let a := F.TIM_EVT0_ACTION.of p
  let per := F.TIM_EVT0_PER.of p == 1
  firstCode [(F.TIM_EVT0_EN.of p == 1 && (a == 0 || decide (0x0B ≤ a)), 1), (per && F.TIM_EVT0_N.of p == 0, 2),
    (per && decide (F.TIM_EVT0_N.of p ≤ F.TIM_EVT0_RES.of p), 3)]

/-- s with EXPIRED of a one-shot entry that is enabled decided against the internal tide (R421). -/
def State.judgeEntry (s : State) (i : Nat) : State :=
  if s.flag F.TIM_EVT0_EN i && !s.flag F.TIM_EVT0_PER i && s.behindTide (s.rd F.TIM_EVT0_POINT i) then s.wrB F.TIM_EVT1_EXPIRED i true else s

/-- s after a write of TIM_EVT0[i] (R421, R422): FIRED and EXPIRED are cleared; with TSTATE NONE the entry is not judged. -/
def State.wEvt0 (s : State) (i v : Nat) : State :=
  match evt0Code (s.proposed .TIM_EVT0 i v false) with
  | 0 =>
    let s1 := ((s.storeReg .TIM_EVT0 i v false).wrB F.TIM_EVT1_FIRED i false).wrB F.TIM_EVT1_EXPIRED i false
    if s1.rd F.TIM_TIDE_TSTATE 0 = 0 then s1 else s1.judgeEntry i
  | c => s.timRefuse c i

/-- s with a write of the bring-up registers refused (18_bringup_reset_lowpower.md R499). -/
def State.glbRefuse (s : State) (code : Nat) : State := (s.wr F.GLB_BOOTSTAT_ERR 0 code).emit Ev.GLB_CFG_REFUSED Un.inst code 0

/-- s after a write of GLB_BOOTCFG. -/
def State.wBootcfg (s : State) (v : Nat) : State :=
  if F.GLB_BOOTCFG_COLDTEST.of v = 3 then s.glbRefuse 2 else s.storeReg .GLB_BOOTCFG 0 v false

/-- s after a write of GLB_RETIRED (03_address_map.md R84): each bit newly set retires its pseudo-channel. -/
def State.wRetired (s : State) (v : Nat) : State :=
  foldS (List.range 64) s fun t n => if v.testBit n && !t.fenced n then (t.abandonPc n 2).retirePc n else t

/-- s after an accepted write of v to copy i of register r; `host` is false for a tier record, which the check of 11_intake_and_basin.md R313 does not
judge. GLB_RESET, GLB_PSTATE, GLB_TIER and THM_TRIP are written by host software alone (State.hostReg). -/
def State.wReg (s : State) (r : Reg) (i v : Nat) (host : Bool) : State :=
  match r with
  | .GLB_RESET | .GLB_PSTATE | .GLB_TIER | .THM_TRIP => s
  | .AQD_CTL => s.wAqdCtl i v
  | .AQD_RING => s.wAqdRing v
  | .AQD_RTO => s.wAqdRto v
  | .BAS_CFG => s.wBasCfg v
  | .CAL_CFG => s.wCalCfg v
  | .CAL_CTL => s.wCalCtl v
  | .CAL_FSP => s.wCalFsp v
  | .CAL_ZQ => s.wLeg .CAL_ZQ F.CAL_ZQ_VERIFIED i i v
  | .CAL_VREF => s.wLeg .CAL_VREF F.CAL_VREF_VERIFIED i i v
  | .CAL_RDLY => s.wLeg .CAL_RDLY F.CAL_RDLY_VERIFIED i (i / 2) v
  | .CAL_WDLY => s.wLeg .CAL_WDLY F.CAL_WDLY_VERIFIED i (i / 2) v
  | .CAS_BUDGET => s.wCasBudget v
  | .DBL_RING => s.wDblRing i v
  | .DBL_CTL => s.wDblCtl i v
  | .DBL_PTR => s.storeTail i v
  | .FNT_FWCTL => s.wFntFwctl v
  | .FNT_PLCTL => s.wFntPlctl v
  | .FNT_SVCBASE => s.wFntSvcbase v
  | .GLB_BCW => s.wBcw i v
  | .GLB_BOOTCFG => s.wBootcfg v
  | .GLB_EVQ => s.wEvq i v
  | .GLB_EVQPTR => s.wEvqptr i v
  | .GLB_MAPCTL => s.wMapCtl v
  | .GLB_PREG => s.wPreg i v
  | .GLB_RETIRED => s.wRetired v
  | .GLB_SEDAGG => s.wSedagg v
  | .GLB_SEDCTL => s.wSedctl v
  | .ITK_CLS => s.wItkCls i v
  | .ITK_REQ => s.wItkReq i v host
  | .JET_CTL => s.wJetCtl i v
  | .PC_CTL => s.wPcCtl i v
  | .PWR_CAP => (s.wPwrCap v).applyMgr
  | .PWR_DCTL => s.wPwrDctl i v
  | .PWR_REG => s.wPwrReg i v
  | .PWR_TRI => s.wPwrTri i v
  | .RAS_CFG => s.wRasCfg v
  | .RAS_SCRUB => s.wScrub v
  | .SCH_REF => (s.wRef v).applyMgr
  | .SCH_SCHED => s.wSched v
  | .SCH_TMG0 => s.wTmg .SCH_TMG0 i v
  | .SCH_TMG1 => s.wTmg .SCH_TMG1 i v
  | .SCH_TMG2 => s.wTmg .SCH_TMG2 i v
  | .SLC_CFG => s.wSlcCfg i v
  | .SLC_CTL => s.wSlcCtl i v
  | .SLC_PREQ => s.wSlcPreq i v
  | .THM_CFG => s.wThmCfg v
  | .THM_SENS => s.wThmSens i v
  | .TIM_EVT0 => s.wEvt0 i v
  | .TIM_TCTL => s.wTctl v
  | .TIM_WALL => s.wTimWall v
  | .TXU_CFG => s.wTxuCfg v
  | .TXU_RECBASE => s.wTxuRecbase v
  | .WEI_POL => s.wWeiPol (i / 16) (i % 16) v
  | .WEI_Q => s.wWeiQ (i / 8) (i % 8) v
  | _ => s.storeReg r i v false

/-- The unit of copy i of register r runs, for its RWS fields (R16). -/
def State.runs (s : State) (r : Reg) (i : Nat) : Bool :=
  match r with
  | .GLB_PREG | .GLB_BCW => s.anyOpen
  | .DBL_RING | .DBL_CTL => !s.pageStopped i
  | .SLC_CFG => !s.slcStopped i
  | .TXU_RECBASE => s.pkgBusy
  | .SCH_TMG0 | .SCH_TMG1 | .SCH_TMG2 => s.tmgRuns i
  | .GLB_EVQ => s.flag F.GLB_EVQ_EN i
  | .CAL_ZQ | .CAL_VREF => s.legBusy i || s.rd F.CAL_LSTAT_ACT i != 0
  | .CAL_RDLY | .CAL_WDLY => s.legBusy (i / 2) || s.rd F.CAL_LSTAT_ACT (i / 2) != 0
  | _ => false

/-! ## Sizes and alignment (R11) -/

/-- Every field of copy i of register r is RW, RWS or RO, so that its halves may be accessed. (DEDUCED: notes/assumptions/33.md.) -/
def Reg.halves (r : Reg) (i : Nat) : Bool :=
  r.fields.all fun f => f.accAt i == .RW || f.accAt i == .RWS || f.accAt i == .RO

/-- The access has a size and alignment that R11 permits: 8 B aligned, or 4 B aligned where halves may be accessed. -/
def sizeOk (off bytes : Nat) (halves : Bool) : Bool := (bytes == 8 && off % 8 == 0) || (halves && bytes == 4 && off % 4 == 0)

/-- The value that a write of `bytes` bytes of v at window offset off would give a word that holds `old`. -/
def mergeHalf (old off bytes v : Nat) : Nat :=
  if bytes = 8 then v
  else if off % 8 = 0 then old - old % 2 ^ 32 + v % 2 ^ 32
  else old % 2 ^ 32 + (v % 2 ^ 32) * 2 ^ 32

/-- What a read of `bytes` bytes at window offset off returns of a word that holds w. -/
def halfOf (w off bytes : Nat) : Nat := if bytes = 8 then w else if off % 8 = 0 then w % 2 ^ 32 else w / 2 ^ 32

/-! ## Reads of the window (R11, R12, R96) -/

/-- The doorbell page at a window offset (03_address_map.md R97). -/
def pageAt (off : Nat) : Option Nat := if 0xF00000 ≤ off ∧ off < 0xFA1000 then some ((off - 0xF00000) / 0x1000) else none

/-- The page at a window offset belongs to a unit in an engine reset, so that it answers DECERR. -/
def State.pageDown (s : State) (off : Nat) : Bool := match pageAt off with
  | some p => s.unitResetting p
  | none => false

/-- The words of the window that are no registers. -/
inductive WinWord where
  /-- Word w of log entry i (20_events_and_sediment.md R551). -/
  | sed (i w : Nat)
  /-- The tier store's word at an offset (18_bringup_reset_lowpower.md R492). -/
  | tie (off : Nat)
  /-- Word w of the error record in slot i (12_data_integrity.md R362). -/
  | err (i w : Nat)
  /-- Word w of key slot k (19_cascade_and_services.md R522). -/
  | key (k w : Nat)
  /-- Word w of the host's request slot i, or of its response (R519). -/
  | mbox (i w : Nat)
  | resp (i w : Nat)
deriving DecidableEq, Repr

/-- The array word at an 8 B aligned window offset. (DEDUCED: notes/assumptions/33.md.) -/
def winAt (off : Nat) : Option WinWord :=
  if 0x700000 ≤ off ∧ off < 0x720000 then some (.sed ((off - 0x700000) / 32) (off / 8 % 4))
  else if 0x800000 ≤ off ∧ off < 0x840000 then some (.tie (off - 0x800000))
  else if 0x488000 ≤ off ∧ off < 0x48A000 then some (.err ((off - 0x488000) / 32) (off / 8 % 4))
  else if 0x904000 ≤ off ∧ off < 0x904200 ∧ off / 8 % 16 < 13 then some (.key ((off - 0x904000) / 0x80) (off / 8 % 16))
  else if 0x908000 ≤ off ∧ off < 0x908200 then some (.mbox ((off - 0x908000) / 0x40) (off / 8 % 8))
  else if 0x908200 ≤ off ∧ off < 0x908400 then some (.resp ((off - 0x908200) / 0x40) (off / 8 % 8))
  else none

/-- Halves of the word may be accessed: every one but the word with LOCK, a W1S bit. (DEDUCED: notes/assumptions/33.md.) -/
def WinWord.halves (x : WinWord) : Bool := match x with
  | .key _ w => w != 12
  | _ => true

/-- The value of an array word. (DEDUCED: notes/assumptions/33.md.) -/
def State.winWord (s : State) (x : WinWord) : Nat :=
  match x with
  | .sed i w => (s.logWords i).getD w 0
  | .tie off => ((Store.find s.tier off).getD 0).toNat
  | .err i w => match Store.find s.ras.ring i with
    | some e => e.words.getD w 0
    | none => 0
  | .key k w => Store.get 0 s.font.keys (k * 16 + w)
  | .mbox i w => s.mboxW i w
  | .resp i w => Store.get 0 s.font.resp (i * 8 + w)

/-- s after a read of an array word: an error record counts as read (12_data_integrity.md R362). -/
def State.winSeen (s : State) (x : WinWord) : State :=
  match x with
  | .err i _ => match Store.find s.ras.ring i with
    | some e => { s with ras := { s.ras with ring := Store.insert s.ras.ring i { e with read := true } } }
    | none => s
  | _ => s

/-- A read of `bytes` bytes at a window offset: its value and s after it, or none where it completes with DECERR. (DEDUCED: notes/assumptions/33.md.) -/
def State.winRead (s : State) (off bytes : Nat) : Option (Nat × State) :=
  if !s.answers off || s.pageDown off then none
  else
    let a := off - off % 8
    match regAt a, winAt a with
    | some (r, i), _ => if sizeOk off bytes (r.halves i) then
        let (v, t) := s.readReg r i
        some (halfOf v off bytes, t)
      else none
    | none, some x => if sizeOk off bytes x.halves then some (halfOf (s.winWord x) off bytes, s.winSeen x) else none
    | none, none => none

end Sys2Proof.Machine
end

