-- ==== Sys2Proof/Machine/Census.lean ====
section
/-! DEFINITION. Sys2Proof/Machine/Census.lean: taking a census snapshot, by a tide action or a service call (19_cascade_and_services.md R536). -/
namespace Sys2Proof.Machine

/-- Source word k of a snapshot set. -/
def State.sourceWord (s : State) (set k : Nat) : Nat := wordAt s.font.sets (32 * set + k)

/-- s with the value of source k of a set's snapshot known: none where it was missed. -/
def State.gotSource (s : State) (set k : Nat) (v : Option Nat) : State :=
  match Store.find s.font.snaps set with
  | some x => { s with font := { s.font with snaps := Store.insert s.font.snaps set { x with got := x.got ++ [(k, v)] } } }
  | none => s

/-- The census read of 8 bytes at local address a for a source. -/
def censusReq (set k a : Nat) : Req :=
  { origin := .census set k, kind := .rd, addr := a, size := 8, mask := 0, data := [], label := 0, reqNo := 0, priv := true, tx := none }

/-- s with the read of source k of a set issued: a register at once; a memory word at its ordering point, missed where there is none. (DEDUCED: notes/assumptions/41.md.) -/
def State.readSource (s : State) (set k : Nat) : State :=
  let w := s.sourceWord set k
  let a := bits w 36 0
  if !w.testBit 62 then
    match s.winRead a 8 with
    | some (v, t) => t.gotSource set k (some v)
    | none => s.gotSource set k none
  else if s.map.mode = 0 || decide (s.cap < a + 8) || s.fenced (s.gloc (a / 64)).pc then s.gotSource set k none
  else s.present (s.gloc (a / 64)).pc (censusReq set k a)

/-- s with a snapshot of one set begun, or skipped and counted while its previous one is in progress. -/
def State.snapSet (s : State) (set : Nat) : State :=
  match Store.find s.font.snaps set with
  | some _ => ({ s with font := { s.font with skipped := s.font.skipped + 1 } } : State).emit Ev.CENSUS_SKIPPED Un.inst set 0
  | none =>
    let srcs := (List.range 32).filter fun k => wordV (s.sourceWord set k)
    let tide := if s.rd F.TIM_TIDE_TSTATE 0 = 0 then 0 else s.rd F.TIM_TIDE_TIDE 0
    let x : Snap := { time := s.wall, tide := tide, srcs := srcs, got := [] }
    let s1 : State := { s with font := { s.font with snaps := Store.insert s.font.snaps set x } }
    foldS srcs s1 fun t k => t.readSource set k

/-- The census is configured (R520). (DEDUCED: notes/assumptions/41.md.) -/
def State.censusOn (s : State) : Bool := s.flag F.FNT_SVCBASE_VALID 0 && wordV (wordAt s.font.cfg 4)

/-- s with a snapshot taken of every set of a mask, in ascending order. (DEDUCED: notes/assumptions/41.md.) -/
def State.takeSnaps (s : State) (mask : Nat) : State := (foldS (onesOf 8 mask) s fun t k => t.snapSet k).censusDone

/-- s after a CENSUS_SNAP action: without the service, or without its configuration, nothing happens. (DEDUCED: notes/assumptions/41.md.) -/
def State.snapAction (s : State) (arg : Nat) : State := if s.serviceOn && s.censusOn then s.takeSnaps (arg % 256) else s

/-- CENSUS_SNAP as a service call (R517, R533): OK, or NOT_CONFIGURED. (DEDUCED: notes/assumptions/41.md.) -/
def execCensusSnapCall (mask : BitVec 8) (s : State) : Res :=
  let mine := match s.headCall with
    | some c => c.func == 0x200 && c.args.headD 0 % 256 == mask.toNat
    | none => false
  if !mine then .next s
  else if s.censusOn then .next ((s.takeSnaps mask.toNat).svcReply 0 0 0)
  else .next (s.svcReply 8 0 0)

end Sys2Proof.Machine
end

