-- ==== Sys2Proof/Machine/Vec.lean ====
section
/-! DEFINITION. Sys2Proof/Machine/Vec.lean: conversion, element-wise vector instructions, reductions and matrix products (07_jet_engines.md R192 to R203). -/
namespace Sys2Proof.Machine

/-- What an instruction of form D names: operands with their descriptors, further g registers. -/
def dUse (specs : List (BitVec 4)) (descs : List (BitVec 2)) (gs : List (BitVec 4)) : Use := movUse specs descs gs [] true

/-! ## Element-wise (R198, R199) -/

/-- The element-wise operations that compute a value. -/
inductive Ew where
  | add | sub | mul | fma | min | max | abs | neg | scale
deriving DecidableEq, Repr

/-- The operation has a second source. -/
def Ew.two (o : Ew) : Bool := [Ew.add, .sub, .mul, .fma, .min, .max].contains o

/-- The exact result of an operation on a, b and the destination's prior element d (the scalar for VSCALE comes as b); `down` is rounding mode 3. -/
def Ew.value (o : Ew) (down : Bool) (a b d : Val) : Val :=
  match o with
  | .add => Val.add down a b
  | .sub => Val.add down a b.neg
  | .mul | .scale => Val.mul a b
  | .fma => Val.add down (Val.mul a b) d
  | .min => Val.vmin a b
  | .max => Val.vmax a b
  | .abs => a.abs
  | .neg => a.neg

/-- The checks of element-wise instructions and CVT: the operands, RM where it counts, own faults. -/
def ewChecks (d : Opnd) (srcs : List Opnd) (modes own : List (Bool × Nat)) : Checks :=
  { opnds := d :: srcs, fmts := d :: srcs, fmts8 := [], modes := modes,
    own := (srcs.any fun a => !d.sameShape a, 0x49) :: own, apart := (srcs.filter fun a => !d.inPlace a).map fun a => (d, a) }

/-- An element-wise instruction that computes values. -/
def ewPlan (f : FormD) (x : Spout) (sp : Nat) (o : Ew) : Plan :=
  let d := x.opnd sp f.od f.dd
  let a := x.opnd sp f.oa f.da
  let c := x.opnd sp f.ob f.db
  let srcs := if o.two then [a, c] else [a]
  let k := codeValue fp64 (x.gv f.gx.toNat) false
  let rm := f.rm.toNat
  let work := fun (b : Bk) =>
    let r := b.emitAll d rm f.sat fun b n =>
      let i := n % d.n0
      let j := n / d.n0
      match b.elem a i j with
      | (b1, u) =>
        match (if o.two then b1.elem c i j else (b1, if o = .scale then k else .zero)) with
        | (b2, v) =>
          match (if o = .fma then b2.elem d i j else (b2, .zero)) with
          | (b3, w) =>
            let y := o.value (rm == 3) u v w
            (b3, y, y, nanMade [u, v, w] y)
    { r.1 with found := r.2 }
  { ck := ewChecks d srcs [rmBad f.rm] [], units := [uVEC], run := work, fin := fun b => [(40 + f.px.toNat, b2n b.found)], macs := 0 }

/-- A bitwise instruction: encodings of one format, no block scales. Its lane bit goes by the value of what is written, so that the encoding of −0 counts
as zero (R199; DESIGN CHOICE: notes/assumptions/22.md). -/
def bitPlan (f : FormD) (x : Spout) (sp : Nat) (op : Nat → Nat → Nat) : Plan :=
  let d := x.opnd sp f.od f.dd
  let a := x.opnd sp f.oa f.da
  let c := x.opnd sp f.ob f.db
  let own := [(d.bsm != 0 || a.bsm != 0 || c.bsm != 0, 0x43), (d.fmt != a.fmt || d.fmt != c.fmt, 0x4A)]
  let work := fun (b : Bk) =>
    (List.range d.count).foldl (fun b n =>
      let i := n % d.n0
      let j := n / d.n0
      match b.code a i j with
      | (b1, u) =>
        match b1.code c i j with
        | (b2, v) =>
          if !b2.good then b2
          else
            let y := op u v
            let b3 := b2.write d (d.bit i j) d.w y
            { b3 with found := b3.found || !(codeValue d.fmt y false).isZero, elems := b3.elems + 1 }) b
  { ck := ewChecks d [a, c] [rmBad f.rm] own, units := [uVEC], run := work, fin := fun b => [(40 + f.px.toNat, b2n b.found)], macs := 0 }

/-- A comparison: 1 or 0 in an int8 destination. -/
def cmpPlan (f : FormD) (x : Spout) (sp : Nat) (op : Val → Val → Bool) : Plan :=
  let d := x.opnd sp f.od f.dd
  let a := x.opnd sp f.oa f.da
  let c := x.opnd sp f.ob f.db
  let work := fun (b : Bk) =>
    let r := b.emitAll d f.rm.toNat f.sat fun b n =>
      let i := n % d.n0
      let j := n / d.n0
      match b.elem a i j with
      | (b1, u) =>
        match b1.elem c i j with
        | (b2, v) =>
          let y := Val.ofInt (if op u v then 1 else 0)
          (b2, y, y, 0)
    { r.1 with found := r.2 }
  { ck := ewChecks d [a, c] [rmBad f.rm] [(d.fmt != 12, 0x4A)], units := [uVEC], run := work, fin := fun b => [(40 + f.px.toNat, b2n b.found)], macs := 0 }

/-- The registers a two-source element-wise instruction names. -/
def use2 (f : FormD) : Use := dUse [f.od, f.oa, f.ob] [f.dd, f.da, f.db] []
/-- Those of a one-source one. -/
def use1 (f : FormD) : Use := dUse [f.od, f.oa] [f.dd, f.da] []

/-- VADD. -/
def execVadd (h : Hdr) (f : FormD) (s : State) : Res := .next (s.planExec h (.vadd h f) .vec (use2 f) fun x sp => ewPlan f x sp .add)
/-- VSUB. -/
def execVsub (h : Hdr) (f : FormD) (s : State) : Res := .next (s.planExec h (.vsub h f) .vec (use2 f) fun x sp => ewPlan f x sp .sub)
/-- VMUL. -/
def execVmul (h : Hdr) (f : FormD) (s : State) : Res := .next (s.planExec h (.vmul h f) .vec (use2 f) fun x sp => ewPlan f x sp .mul)
/-- VFMA. -/
def execVfma (h : Hdr) (f : FormD) (s : State) : Res := .next (s.planExec h (.vfma h f) .vec (use2 f) fun x sp => ewPlan f x sp .fma)
/-- VMIN. -/
def execVmin (h : Hdr) (f : FormD) (s : State) : Res := .next (s.planExec h (.vmin h f) .vec (use2 f) fun x sp => ewPlan f x sp .min)
/-- VMAX. -/
def execVmax (h : Hdr) (f : FormD) (s : State) : Res := .next (s.planExec h (.vmax h f) .vec (use2 f) fun x sp => ewPlan f x sp .max)
/-- VABS. -/
def execVabs (h : Hdr) (f : FormD) (s : State) : Res := .next (s.planExec h (.vabs h f) .vec (use1 f) fun x sp => ewPlan f x sp .abs)
/-- VNEG. -/
def execVneg (h : Hdr) (f : FormD) (s : State) : Res := .next (s.planExec h (.vneg h f) .vec (use1 f) fun x sp => ewPlan f x sp .neg)
/-- VSCALE. -/
def execVscale (h : Hdr) (f : FormD) (s : State) : Res :=
  .next (s.planExec h (.vscale h f) .vec (dUse [f.od, f.oa] [f.dd, f.da] [f.gx]) fun x sp => ewPlan f x sp .scale)
/-- VAND. -/
def execVand (h : Hdr) (f : FormD) (s : State) : Res :=
  .next (s.planExec h (.vand h f) .vec (use2 f) fun x sp => bitPlan f x sp (· &&& ·))
/-- VOR. -/
def execVor (h : Hdr) (f : FormD) (s : State) : Res := .next (s.planExec h (.vor h f) .vec (use2 f) fun x sp => bitPlan f x sp (· ||| ·))
/-- VXOR. -/
def execVxor (h : Hdr) (f : FormD) (s : State) : Res :=
  .next (s.planExec h (.vxor h f) .vec (use2 f) fun x sp => bitPlan f x sp (· ^^^ ·))
/-- VCMPEQ. -/
def execVcmpeq (h : Hdr) (f : FormD) (s : State) : Res :=
  .next (s.planExec h (.vcmpeq h f) .vec (use2 f) fun x sp => cmpPlan f x sp Val.eqv)
/-- VCMPLT. -/
def execVcmplt (h : Hdr) (f : FormD) (s : State) : Res :=
  .next (s.planExec h (.vcmplt h f) .vec (use2 f) fun x sp => cmpPlan f x sp Val.lt)

/-! ## Conversion (R202, R203) -/

/-- A conversion. -/
def cvtPlan (f : FormD) (x : Spout) (sp : Nat) : Plan :=
  let d := x.opnd sp f.od f.dd
  let a := x.opnd sp f.oa f.da
  { ck := { ewChecks d [a] [rmBad f.rm] [] with fmts := [d], fmts8 := [a] }, units := [uVEC],
    run := fun b => (b.emitAll d f.rm.toNat f.sat fun b n =>
      match b.elem a (n % d.n0) (n / d.n0) with
      | (b1, v) => (b1, v, v, 0)).1,
    fin := fun _ => [], macs := 0 }

/-- A conversion of partial records. -/
def cvtPrPlan (f : FormD) (x : Spout) (sp : Nat) : Plan :=
  let d := x.opnd sp f.od f.dd
  let a := x.opnd sp f.oa f.da
  let r := a.records
  { ck := { opnds := [d, r], fmts := [d], fmts8 := [], modes := [rmBad f.rm], own := [(!d.sameShape a, 0x49)], apart := [(d, r)] }, units := [uVEC],
    run := fun b => (b.emitAll d f.rm.toNat f.sat fun b n =>
      match b.record r n with
      | (b1, e) => let q := e.result; (b1, q.1, q.2.1, q.2.2)).1,
    fin := fun _ => [], macs := 0 }

/-- CVT. -/
def execCvt (h : Hdr) (f : FormD) (s : State) : Res :=
  .next (s.planExec h (.cvt h f) .cvt (use1 f) fun x sp => cvtPlan f x sp)

/-- CVT.PR. -/
def execCvtPr (h : Hdr) (f : FormD) (s : State) : Res :=
  .next (s.planExec h (.cvtPr h f) .cvt (use1 f) fun x sp => cvtPrPlan f x sp)

/-! ## Reductions (R200, R201) -/

/-- The registers that a reduction names. -/
def redUse (f : FormD) (two : Bool) : Use :=
  let gs := if f.ac = 3 then [f.gx] else []
  if two then dUse [f.od, f.oa, f.ob] [f.dd, f.da, f.db] gs else dUse [f.od, f.oa] [f.dd, f.da] gs

/-- The destination of an accumulating instruction: partial records under AC 2 and 3. (DEDUCED: notes/assumptions/24.md.) -/
def acDest (f : FormD) (d : Opnd) : Opnd := if 2 ≤ f.ac.toNat then d.records else d

/-- The format of a destination as it counts (05_number_formats.md R129): its FMT always, its block-scale mode only where it takes results; under AC 2
and 3 the model ignores BSM. (DESIGN CHOICE: notes/assumptions/24.md.) -/
def acFmt (f : FormD) (d : Opnd) : Opnd := if 2 ≤ f.ac.toNat then { d with bsm := 0 } else d

/-- The record at g[GX] under AC 3, in a list. (DEDUCED: notes/assumptions/24.md.) -/
def acStart (f : FormD) (x : Spout) : List Opnd := if f.ac = 3 then [recordAt (x.gv f.gx.toNat)] else []

/-- b with a start record read, or a cleared accumulator. -/
def Bk.start (b : Bk) (l : List Opnd) : Bk × Exa :=
  match l with
  | [] => (b, Exa.clear)
  | r :: _ => b.record r 0

/-- A sum of each row: `prods` gives the inputs and the products of row j. -/
def sumPlan (f : FormD) (x : Spout) (sp : Nat) (a c : Opnd) (two : Bool) (units : List Nat) (own : List (Bool × Nat))
    (prods : Bk → Nat → Bk × List Val × List Val) (macs : Nat) : Plan :=
  let dd := x.opnd sp f.od f.dd
  let d := acDest f dd
  let st := acStart f x
  let kind := accKind a c
  let srcs := if two then [a, c] else [a]
  let ck : Checks :=
    { opnds := d :: srcs ++ st, fmts := acFmt f dd :: (if two then [] else [a]), fmts8 := if two then [a, c] else [],
      modes := [rmBad f.rm, (f.ac != 0 && kind == 3, 0x46)],
      own := own ++ [(d.count != a.n1, 0x49)], apart := (srcs ++ st).map fun o => (d, o) }
  let work := fun (b : Bk) =>
    if f.ac = 0 then
      (b.emitAll d f.rm.toNat f.sat fun b n =>
        match prods b n with
        | (b1, ins, ps) => let r := accumulated kind ins ps; (b1, r.1, r.2.1, r.2.2)).1
    else if f.ac = 1 then
      (b.emitAll d f.rm.toNat f.sat fun b n =>
        match prods b n with
        | (b1, _, ps) =>
          let e := accumulatedX Exa.clear (addends kind two ps)
          let q := e.1.result
          (b1, q.1, q.2.1, q.2.2 ||| e.2)).1
    else
      (List.range d.count).foldl (fun b n =>
        match b.start st with
        | (b0, z) =>
          match prods b0 n with
          | (b1, _, ps) =>
            let e := accumulatedX z (addends kind two ps)
            ({ b1 with flags := b1.flags ||| e.2 } : Bk).putRecord d n e.1) b
  { ck := ck, units := units ++ if f.ac = 0 then [] else [uEXA], run := work,
    fin := fun _ => [], macs := macs }

/-- A sum of the elements of each row. -/
def rsumPlan (f : FormD) (x : Spout) (sp : Nat) : Plan :=
  let a := x.opnd sp f.oa f.da
  sumPlan f x sp a a false [uVEC] [] (fun b j => match b.row a j with | (b1, l) => (b1, l, l)) 0

/-- A sum of the squares of each row. -/
def rsumsqPlan (f : FormD) (x : Spout) (sp : Nat) : Plan :=
  let a := x.opnd sp f.oa f.da
  sumPlan f x sp a a false [uVEC] [] (fun b j => match b.row a j with | (b1, l) => (b1, l, l.map fun v => Val.mul v v)) 0

/-- RSUM. -/
def execRsum (h : Hdr) (f : FormD) (s : State) : Res :=
  .next (s.planExec h (.rsum h f) .vec (redUse f false) fun x sp => rsumPlan f x sp)

/-- RSUMSQ. -/
def execRsumsq (h : Hdr) (f : FormD) (s : State) : Res :=
  .next (s.planExec h (.rsumsq h f) .vec (redUse f false) fun x sp => rsumsqPlan f x sp)

/-- The format pair that the MAC array does not take (R193): int16, int32 or e8m0 anywhere, or fp64 with another format. -/
def macMix (a c : Opnd) : Bool := [10, 11, 14].contains a.fmt || [10, 11, 14].contains c.fmt || ((a.fmt == 0) != (c.fmt == 0))

/-- A dot product of each pair of rows. -/
def rdotPlan (f : FormD) (x : Spout) (sp : Nat) : Plan :=
  let a := x.opnd sp f.oa f.da
  let c := x.opnd sp f.ob f.db
  sumPlan f x sp a c true [uMAC] [(macMix a c, 0x4A), (!a.sameShape c, 0x49)] (fun b j =>
    match b.row a j with
    | (b1, l) =>
      match b1.row c j with
      | (b2, m) => (b2, l ++ m, (l.zip m).map fun p => Val.mul p.1 p.2)) (a.n0 * a.n1)

/-- RDOT. -/
def execRdot (h : Hdr) (f : FormD) (s : State) : Res :=
  .next (s.planExec h (.rdot h f) .vec (redUse f true) fun x sp => rdotPlan f x sp)

/-- The value of an empty row of RMIN in a destination format, and its negative for RMAX (R200). (DEDUCED: notes/assumptions/22.md.) -/
def emptyMin (code : Nat) (neg : Bool) : Val :=
  match floatFmt code with
  | some f => if f.inf then .inf neg else let (m, e) := f.maxMag; .fin neg m e
  | none => Val.ofInt (if neg then -(2 ^ (fmtBits code - 1) : Nat) else (2 ^ (fmtBits code - 1) : Nat) - 1)

/-- A reduction to one value of each row. -/
def pickPlan (f : FormD) (x : Spout) (sp : Nat) (own : Opnd → List (Bool × Nat)) (g : Opnd → List Val → Val) : Plan :=
  let d := x.opnd sp f.od f.dd
  let a := x.opnd sp f.oa f.da
  let ck : Checks :=
    { opnds := [d, a], fmts := [d, a], fmts8 := [], modes := [rmBad f.rm], own := own d ++ [(d.count != a.n1, 0x49)], apart := [(d, a)] }
  { ck := ck, units := [uVEC],
    run := fun b => (b.emitAll d f.rm.toNat f.sat fun b n =>
      match b.row a n with
      | (b1, l) => let v := g d l; (b1, v, v, 0)).1,
    fin := fun _ => [], macs := 0 }

/-- The least value of a row, and the greatest, in a destination's format. (DEDUCED: notes/assumptions/22.md.) -/
def rowMin (d : Opnd) (l : List Val) : Val :=
  match l with
  | [] => emptyMin d.fmt false
  | v :: r => r.foldl Val.vmin v
def rowMax (d : Opnd) (l : List Val) : Val :=
  match l with
  | [] => emptyMin d.fmt true
  | v :: r => r.foldl Val.vmax v

/-- RMIN. -/
def execRmin (h : Hdr) (f : FormD) (s : State) : Res :=
  .next (s.planExec h (.rmin h f) .vec (use1 f) fun x sp => pickPlan f x sp (fun _ => []) rowMin)

/-- RMAX. -/
def execRmax (h : Hdr) (f : FormD) (s : State) : Res :=
  .next (s.planExec h (.rmax h f) .vec (use1 f) fun x sp => pickPlan f x sp (fun _ => []) rowMax)

/-- The index of the first element that none of the list comes before under `lt`; of the first NaN if there is one; −1 for none. -/
def argBest (lt : Val → Val → Bool) (l : List Val) : Int :=
  match l.findIdx? Val.isNan with
  | some k => k
  | none =>
    match l with
    | [] => -1
    | v :: r => ((r.foldl (fun (acc : Nat × Val × Nat) w => if lt w acc.2.1 then (acc.2.2, w, acc.2.2 + 1) else (acc.1, acc.2.1, acc.2.2 + 1)) (0, v, 1)).1 : Nat)

/-- The index of one element of each row, an int32: of the best under an order. -/
def argPlan (f : FormD) (x : Spout) (sp : Nat) (lt : Val → Val → Bool) : Plan :=
  pickPlan f x sp (fun d => [(d.fmt != 10, 0x4A)]) fun _ l => Val.ofInt (argBest lt l)

/-- RARGMIN. -/
def execRargmin (h : Hdr) (f : FormD) (s : State) : Res :=
  .next (s.planExec h (.rargmin h f) .vec (use1 f) fun x sp => argPlan f x sp Val.below)

/-- RARGMAX. -/
def execRargmax (h : Hdr) (f : FormD) (s : State) : Res :=
  .next (s.planExec h (.rargmax h f) .vec (use1 f) fun x sp => argPlan f x sp fun a b => Val.below b a)

/-- The merge of a row of partial records into a start, with its flags. -/
def Bk.mergeRow (b : Bk) (r : Opnd) (j : Nat) (z : Exa) : Bk × Exa :=
  (List.range r.n0).foldl (fun (acc : Bk × Exa) i =>
    match acc.1.record r (j * r.n0 + i) with
    | (b1, e) =>
      if !b1.good then (b1, acc.2)
      else
        let m := mergeFlag acc.2 e
        ({ b1 with flags := b1.flags ||| m.2 }, m.1)) (b, z)

/-- A merge of partial records. -/
def rmergePlan (f : FormD) (x : Spout) (sp : Nat) : Plan :=
  let dd := x.opnd sp f.od f.dd
  let d := acDest f dd
  let r := (x.opnd sp f.oa f.da).records
  let st := acStart f x
  { ck :=
      { opnds := d :: r :: st, fmts := [acFmt f dd], fmts8 := [], modes := [rmBad f.rm, (f.ac == 0, 0x46)],
        own := [(d.count != r.n1, 0x49)], apart := (r :: st).map fun o => (d, o) },
    units := [uVEC, uEXA],
    run := fun b =>
      if f.ac = 1 then
        (b.emitAll d f.rm.toNat f.sat fun b n =>
          match b.mergeRow r n Exa.clear with
          | (b1, e) => let q := e.result; (b1, q.1, q.2.1, q.2.2)).1
      else
        (List.range d.count).foldl (fun b n =>
          match b.start st with
          | (b0, z) =>
            match b0.mergeRow r n z with
            | (b1, e) => b1.putRecord d n e) b,
    fin := fun _ => [], macs := 0 }

/-- RMERGE. -/
def execRmerge (h : Hdr) (f : FormD) (s : State) : Res :=
  .next (s.planExec h (.rmerge h f) .vec (redUse f false) fun x sp => rmergePlan f x sp)

/-! ## Matrix products (R192 to R195) -/

/-- A matrix product: `tr` for GEMVT, `lim` the largest batch, `tile` where B must be a tile. -/
def matPlan (f : FormD) (x : Spout) (sp : Nat) (tr : Bool) (lim : Nat) (tile : Bool) : Plan :=
  let dd := x.opnd sp f.od f.dd
  let a := x.opnd sp f.oa f.da
  let c := x.opnd sp f.ob f.db
  let k := if tr then a.n1 else a.n0
  let r := if tr then a.n0 else a.n1
  let n := c.n1
  let d := acDest f dd
  let st := acStart f x
  let kind := accKind a c
  let ck : Checks :=
    { opnds := [d, a, c] ++ st, fmts := [acFmt f dd], fmts8 := [a, c],
      modes := [rmBad f.rm, (f.ac != 0 && kind == 3, 0x46)],
      own := [(macMix a c, 0x4A), (n == 0, 0x4B), (decide (lim < n), 0x4C), (tile && !c.tile, 0x4D),
        (c.n0 != k || dd.n0 != r || dd.n1 != n, 0x49), (decide (2 ≤ f.ac.toNat) && r * n != 1, 0x4E)],
      apart := [(d, a), (d, c)] ++ st.map fun o => (d, o) }
  let prods := fun (b : Bk) (q : Nat) =>
    let row := q % r
    let v := q / r
    match b.elems' a ((List.range k).map fun t => if tr then (row, t) else (t, row)) with
    | (b1, l) =>
      match b1.row c v with
      | (b2, m) => (b2, l ++ m, (l.zip m).map fun p => Val.mul p.1 p.2)
  let work := fun (b : Bk) =>
    if f.ac = 0 then
      (b.emitAll d f.rm.toNat f.sat fun b q =>
        match prods b q with
        | (b1, ins, ps) => let r := accumulated kind ins ps; (b1, r.1, r.2.1, r.2.2)).1
    else if f.ac = 1 then
      (b.emitAll d f.rm.toNat f.sat fun b q =>
        match prods b q with
        | (b1, _, ps) =>
          let e := accumulatedX Exa.clear (addends kind true ps)
          let w := e.1.result
          (b1, w.1, w.2.1, w.2.2 ||| e.2)).1
    else
      match b.start st with
      | (b0, z) =>
        match prods b0 0 with
        | (b1, _, ps) =>
          let e := accumulatedX z (addends kind true ps)
          ({ b1 with flags := b1.flags ||| e.2 } : Bk).putRecord { d with n0 := 1, n1 := 1 } 0 e.1
  { ck := ck, units := uMAC :: if f.ac = 0 then [] else [uEXA], run := work,
    fin := fun _ => [], macs := k * r * n }

/-- GEMV. -/
def execGemv (h : Hdr) (f : FormD) (s : State) : Res :=
  .next (s.planExec h (.gemv h f) .mat (redUse f true) fun x sp => matPlan f x sp false 16 true)
/-- GEMVT. -/
def execGemvt (h : Hdr) (f : FormD) (s : State) : Res :=
  .next (s.planExec h (.gemvt h f) .mat (redUse f true) fun x sp => matPlan f x sp true 16 true)
/-- MM. -/
def execMm (h : Hdr) (f : FormD) (s : State) : Res :=
  .next (s.planExec h (.mm h f) .mat (redUse f true) fun x sp => matPlan f x sp false 64 false)

end Sys2Proof.Machine
end

