-- ==== Sys2Proof/Machine/Hash.lean ====
section
/-! DEFINITION. Sys2Proof/Machine/Hash.lean: hash, set and graph operations (07_jet_engines.md R204 to R211). -/
namespace Sys2Proof.Machine

/-! ## Hash tables (R204 to R207) -/

/-- Mixing of a key with the seed (R205), modulo 2^64. -/
def hashOf (x0 : Nat) : Nat :=
  let a := ((x0 ^^^ (x0 >>> 30)) * 0xBF58476D1CE4E5B9) % 2 ^ 64
  let b := ((a ^^^ (a >>> 27)) * 0x94D049BB133111EB) % 2 ^ 64
  b ^^^ (b >>> 31)

/-- The three table operations. -/
inductive HashOp where
  | probe | insert | delete
deriving DecidableEq, Repr

/-- What a bucket of a table holds of a key: its value where it is there, whether a slot is EMPTY, and whether one is free to take it. -/
structure Bucket where
  hit   : Option Nat
  empty : Bool
  free  : Bool
deriving DecidableEq, Repr

/-- The 64 bytes of a bucket looked through for a key, of w bytes (R204). -/
def bucketOf (w key : Nat) (d : Bytes) : Bucket :=
  let e := 2 ^ (8 * w) - 1
  let slots := List.range (32 / w)
  let keyAt := fun s => leNat (sliceB d (2 * w * s) w)
  { hit := (slots.find? fun s => keyAt s == key).map fun s => leNat (sliceB d (2 * w * s + w) w), empty := slots.any fun s => keyAt s == e,
    free := slots.any fun s => keyAt s == e || keyAt s == e - 1 }

/-- b with one indivisible step on bucket n of a table (R206): op 0 reads it, and 1 to 3 are those of a bucket request; what the bucket held before.
(DEDUCED: notes/assumptions/25.md.) -/
def Bk.bucket (b : Bk) (t : Opnd) (n op w key v : Nat) : Bk × Bucket :=
  let x := t.lin n
  if t.tile then
    match b.bytesAt t (x / 8) 64 with
    | (b1, d) => (if op = 0 then b1 else b1.putBytes t (x / 8) (bucketAfter op w key v d), bucketOf w key d)
  else
    match b.access (if op = 0 then .rd else .bucket op w key v) (t.at x / 8) 64 with
    | (b1, some d) => (b1, bucketOf w key d)
    | (b1, none) => (b1, { hit := none, empty := false, free := false })

/-- What a search has come to: the value of the key, the first bucket with a free slot where an insertion must return to, whether the key was stored,
and whether the search is over. -/
structure Probe where
  hit   : Option Nat
  room  : Option Nat
  done  : Bool
  ended : Bool
deriving DecidableEq, Repr

/-- The search of a key through L buckets from its home bucket (R206). An insertion takes a bucket with an EMPTY slot at once; after one whose
free slots are all TOMBSTONE it searches on before it returns there. -/
def Bk.probe (b : Bk) (o : HashOp) (t : Opnd) (w key v home L : Nat) : Bk × Probe :=
  (List.range L).foldl (fun (acc : Bk × Probe) n =>
    if acc.2.ended || !acc.1.good then acc
    else
      let k := (home + n) % t.count
      let op := match o with
        | .probe => 0
        | .insert => if acc.2.room.isSome then 0 else 3
        | .delete => 2
      match acc.1.bucket t k op w key v with
      | (b1, u) =>
        if !b1.good then (b1, acc.2)
        else if u.hit.isSome then (b1, { acc.2 with hit := u.hit, ended := true })
        else if u.empty then (b1, { acc.2 with done := op == 3, ended := true })
        else (b1, { acc.2 with room := if o = .insert && acc.2.room.isNone && u.free then some k else acc.2.room }))
    (b, { hit := none, room := none, done := false, ended := false })

/-- b with one key done: the element of D written and the lane bit (R206). A reserved key or value is never stored and never found. -/
def Bk.hashKey (b : Bk) (o : HashOp) (t : Opnd) (w key v home L : Nat) : Bk × Nat × Bool :=
  let empty := 2 ^ (8 * w) - 1
  let tomb := empty - 1
  let reserved := decide (tomb ≤ key) || (o == .insert && decide (tomb ≤ v))
  if reserved then (b, empty, false)
  else
    match b.probe o t w key v home L with
    | (b1, p) =>
      match o, p.hit with
      | .insert, some u => (b1, u, false)
      | _, some u => (b1, u, true)
      | .insert, none =>
        if p.done then (b1, tomb, true)
        else
          match p.room with
          | none => (b1, empty, false)
          | some k =>
            match b1.bucket t k 1 w key v with
            | (b2, u) =>
              match u.hit with
              | some q => (b2, q, false)
              | none => if u.free then (b2, tomb, true) else (b2, empty, false)
      | _, none => (b1, empty, false)

/-- A table operation over its keys. -/
def hashPlan (h : Hdr) (f : FormD) (x : Spout) (sp : Nat) (o : HashOp) : Plan :=
  let d := x.opnd sp f.od f.dd
  let a := x.opnd sp f.oa f.da
  let t0 := x.opnd sp f.ob f.db
  let t := { t0.withWidth 512 with bsm := 0 }
  let w := if t0.fmt = 10 then 4 else 8
  let q := t.count
  let seed := if h.x then h.ext.toNat else 0
  let L := min f.imm.toNat q
  let ck : Checks :=
    { opnds := [d, a, t], fmts := [d, a, t0], fmts8 := [], modes := [rmBad f.rm],
      own := [(!([0, 10].contains t0.fmt) || a.fmt != t0.fmt || d.fmt != t0.fmt, 0x53), (!d.sameShape a, 0x49), (q == 0 || f.imm == 0, 0x52),
        ((!t.tile && t.base % 64 != 0) || t.s1 % 64 != 0, 0x06)],
      apart := [(d, a), (d, t)] }
  let work := fun (b : Bk) =>
    (List.range d.count).foldl (fun b n =>
      let i := n % d.n0
      let j := n / d.n0
      match b.code a i j with
      | (b1, key) =>
        match (if o = .insert then b1.code d i j else (b1, 0)) with
        | (b2, v) =>
          if !b2.good then b2
          else
            match b2.hashKey o t w key v (hashOf (key ^^^ seed) % q) L with
            | (b3, r, lane) =>
              let b4 := b3.write d (d.bit i j) d.w r
              if !b3.good then b3
              else if b4.good then { b4 with found := b4.found || !lane, elems := b4.elems + 1 } else b4) b
  { ck := ck, units := [uHSH], run := work, fin := fun b => [(40 + f.px.toNat, b2n !b.found)], macs := 0 }

/-- HPROBE. -/
def execHprobe (h : Hdr) (f : FormD) (s : State) : Res :=
  .next (s.planExec h (.hprobe h f) .hsh (use2 f) fun x sp => hashPlan h f x sp .probe)
/-- HINSERT. (DEDUCED: notes/assumptions/25.md.) -/
def execHinsert (h : Hdr) (f : FormD) (s : State) : Res :=
  .next (s.planExec h (.hinsert h f) .hsh (use2 f) fun x sp => hashPlan h f x sp .insert)
/-- HDELETE. -/
def execHdelete (h : Hdr) (f : FormD) (s : State) : Res :=
  .next (s.planExec h (.hdelete h f) .hsh (use2 f) fun x sp => hashPlan h f x sp .delete)

/-! ## ISECT (R208) -/

/-- The merge of two sorted rows in hand: positions, the previous element of each, results counted. -/
structure Isect where
  i     : Nat
  j     : Nat
  lastA : Option Int
  lastB : Option Int
  n     : Nat
deriving DecidableEq, Repr

/-- A raw code as the element ISECT orders: signed int32, or an unsigned 64-bit pattern. -/
def isectVal (fmt c : Nat) : Int := if fmt = 10 then sx 32 c else c

/-- An element is out of order after the previous one of its row. -/
def outOfOrder (last : Option Int) (v : Int) : Bool := match last with | some p => decide (v < p) | none => false

/-- One step of the merge: both rows while both last, and then the rest of the longer, whose order counts too. -/
def Bk.isectStep (b : Bk) (d a c : Opnd) (m : Isect) : Bk × Isect :=
  let hasA := decide (m.i < a.n0)
  let hasB := decide (m.j < c.n0)
  if !b.good || !(hasA || hasB) then (b, m)
  else
    match (if hasA then b.code a m.i 0 else (b, 0)) with
    | (b1, ca) =>
      match (if hasB then b1.code c m.j 0 else (b1, 0)) with
      | (b2, cb) =>
        let u := isectVal a.fmt ca
        let v := isectVal a.fmt cb
        if !b2.good then (b2, m)
        else if hasA && outOfOrder m.lastA u || hasB && outOfOrder m.lastB v then (b2.halt 0x54 0, m)
        else if hasA && hasB && u == v then
          let room := decide (0 < d.n1 ∧ m.n < d.n0)
          let b3 := if room then b2.write d (d.bit m.n 0) d.w ca else b2
          let b4 := if room && b3.good then { b3 with elems := b3.elems + 1 } else b3
          (b4, { i := m.i + 1, j := m.j + 1, lastA := some u, lastB := some v, n := m.n + 1 })
        else if hasA && (!hasB || decide (u < v)) then (b2, { m with i := m.i + 1, lastA := some u })
        else (b2, { m with j := m.j + 1, lastB := some v })

/-- The merge of the first rows of two operands; one without elements ends it at once (R191). -/
def Bk.isect (b : Bk) (d a c : Opnd) : Bk × Isect :=
  (List.range (if a.n0 = 0 ∨ c.n0 = 0 then 0 else a.n0 + c.n0)).foldl (fun (acc : Bk × Isect) _ => acc.1.isectStep d a c acc.2)
    (b, { i := 0, j := 0, lastA := none, lastB := none, n := 0 })

/-- An intersection; it draws no random values, so the context's draw count carries the result count. -/
def isectPlan (f : FormD) (x : Spout) (sp : Nat) : Plan :=
  let d := x.opnd sp f.od f.dd
  let a := x.opnd sp f.oa f.da
  let c := x.opnd sp f.ob f.db
  { ck :=
      { opnds := [d, a, c], fmts := [d, a, c], fmts8 := [], modes := [rmBad f.rm],
        own := [(!([0, 10].contains a.fmt) || c.fmt != a.fmt || d.fmt != a.fmt, 0x4A), (a.n1 != 1 || c.n1 != 1, 0x49)], apart := [(d, a), (d, c)] },
    units := [uHSH],
    run := fun b => let r := b.isect d a c; { r.1 with draw := { r.1.draw with i := r.2.n } },
    fin := fun b => [(f.gx.toNat, b.draw.i)], macs := 0 }

/-- ISECT. (DEDUCED: notes/assumptions/25.md.) -/
def execIsect (h : Hdr) (f : FormD) (s : State) : Res :=
  .next (s.planExec h (.isect h f) .hsh (dUse [f.od, f.oa, f.ob] [f.dd, f.da, f.db] [f.gx]) fun x sp => isectPlan f x sp)

/-! ## TOPK (R209) -/

/-- a ranks above b: NaN above everything, then by value. -/
def ranksAbove (a b : Val) : Bool := if a.isNan then !b.isNan else !b.isNan && Val.lt b a

/-- A list in descending rank with a new element put after every one it does not rank above. -/
def rankInsert (p : Val × Nat) : List (Val × Nat) → List (Val × Nat)
  | [] => [p]
  | q :: l => if ranksAbove p.1 q.1 then p :: q :: l else q :: rankInsert p l

/-- The indices of a row's elements in descending order of value, ties to the lower index. -/
def ranked (l : List Val) : List Nat :=
  (((List.range l.length).foldl (fun acc k => rankInsert (l.getD k .zero, k) acc) []).map (·.2))

/-- The indices of the k best of each row. -/
def topkPlan (f : FormD) (x : Spout) (sp : Nat) : Plan :=
  let d := x.opnd sp f.od f.dd
  let a := x.opnd sp f.oa f.da
  let k := x.gv f.gx.toNat
  { ck :=
      { opnds := [d, a], fmts := [d, a], fmts8 := [], modes := [rmBad f.rm],
        own := [(d.fmt != 10, 0x4A), (d.n0 != k || d.n1 != a.n1, 0x49), (decide (a.n0 < k ∨ 65536 < k), 0x55)], apart := [(d, a)] },
    units := [uVEC],
    run := fun b =>
      if k = 0 then b
      else
        (List.range d.n1).foldl (fun b j =>
          match b.row a j with
          | (b1, l) =>
            let r := ranked l
            (List.range k).foldl (fun b i =>
              if !b.good then b
              else
                let b2 := b.write d (d.bit i j) d.w (r.getD i 0)
                if b2.good then { b2 with elems := b2.elems + 1 } else b2) b1) b,
    fin := fun _ => [], macs := 0 }

/-- TOPK. -/
def execTopk (h : Hdr) (f : FormD) (s : State) : Res :=
  .next (s.planExec h (.topk h f) .hsh (dUse [f.od, f.oa] [f.dd, f.da] [f.gx]) fun x sp => topkPlan f x sp)

/-! ## AMIN, AMAX, AADD (R210) -/

/-- An update instruction. (DEDUCED: notes/assumptions/25.md.) -/
def updPlan (f : FormD) (x : Spout) (sp : Nat) (o : Upd) : Plan :=
  let d := x.opnd sp f.od f.dd
  let a := x.opnd sp f.oa f.da
  let c := x.opnd sp f.ob f.db
  let rm := f.rm.toNat
  let ck : Checks :=
    { opnds := [d, a, c], fmts := [d, a, c], fmts8 := [], modes := [rmBad f.rm],
      own := [(!([0, 1, 10].contains d.fmt), 0x57), (c.fmt != 10, 0x4A), (!c.sameShape a, 0x49)], apart := [(d, a), (d, c)] }
  let work := fun (b : Bk) =>
    (List.range a.count).foldl (fun b n =>
      let i := n % a.n0
      let j := n / a.n0
      match b.elem a i j with
      | (b1, v) =>
        match b1.code c i j with
        | (b2, ix) =>
          let k := sx 32 ix
          if !b2.good then b2
          else if k < 0 ∨ (d.count : Int) ≤ k then b2.halt 0x56 0
          else
            let (r, dr) := b2.draw.next rm
            let b3 := { b2 with draw := dr }
            if v.isNan && o != .add then b3
            else
              let p := d.lin k.toNat
              let g := fun old => o.apply d.fmt rm f.sat r v old
              let done := fun (b : Bk) old => if b.good then { b with elems := b.elems + 1, flags := b.flags ||| (g old).2 } else b
              if d.tile then
                let old := b3.tileBits (d.at p) d.w
                done (b3.write d p d.w (g old).1) old
              else
                match b3.access (.num o d.fmt rm f.sat r v) (d.at p / 8) (d.w / 8) with
                | (b4, some old) => done b4 (leNat old)
                | (b4, none) => b4) b
  { ck := ck, units := [uHSH], run := work, fin := fun _ => [], macs := 0 }

/-- AMIN. -/
def execAmin (h : Hdr) (f : FormD) (s : State) : Res := .next (s.planExec h (.amin h f) .hsh (use2 f) fun x sp => updPlan f x sp .min)
/-- AMAX. -/
def execAmax (h : Hdr) (f : FormD) (s : State) : Res := .next (s.planExec h (.amax h f) .hsh (use2 f) fun x sp => updPlan f x sp .max)
/-- AADD. (DEDUCED: notes/assumptions/25.md.) -/
def execAadd (h : Hdr) (f : FormD) (s : State) : Res := .next (s.planExec h (.aadd h f) .hsh (use2 f) fun x sp => updPlan f x sp .add)

/-! ## HALO (R211) -/

/-- The points of a halo entry in order, or none where the entry is out of range: a field of n0 × n1, width w. -/
def haloPoints (n0 n1 w : Nat) (side start len zero : Int) : Option (List (Nat × Nat)) :=
  let edge := if side < 2 then n1 - 2 * w else n0 - 2 * w
  if side < 0 ∨ 3 < side ∨ zero ≠ 0 ∨ start < 0 ∨ len < 0 ∨ (edge : Int) < start + len then none
  else
    let st := start.toNat
    let ln := len.toNat
    let (i0, ni, j0, nj) :=
      match side.toNat with
      | 0 => (w, w, w + st, ln)
      | 1 => (n0 - 2 * w, w, w + st, ln)
      | 2 => (w + st, ln, w, w)
      | _ => (w + st, ln, n1 - 2 * w, w)
    some ((List.range nj).flatMap fun j => (List.range ni).map fun i => (i0 + i, j0 + j))

/-- The points of each entry of a halo list, packed. -/
def haloPlan (f : FormD) (x : Spout) (sp : Nat) : Plan :=
  let d := x.opnd sp f.od f.dd
  let a := x.opnd sp f.oa f.da
  let c := x.opnd sp f.ob f.db
  let w := f.imm.toNat
  let rm := f.rm.toNat
  { ck :=
      { opnds := [d, a, c], fmts := [d, a, c], fmts8 := [], modes := [rmBad f.rm],
        own := [(d.bsm != 0 || a.bsm != 0, 0x43), (c.fmt != 10, 0x4A), (w == 0, 0x58), (c.n0 != 4, 0x49),
          (decide (a.n0 < 3 * w ∨ a.n1 < 3 * w), 0x59)],
        apart := [(d, a), (d, c)] },
    units := [uVEC],
    run := fun b =>
      (List.range c.n1).foldl (fun b e =>
        if !b.good then b
        else
          let (b1, q) := (List.range 4).foldl (fun (acc : Bk × List Int) k => match acc.1.code c k e with | (b1, v) => (b1, acc.2 ++ [sx 32 v])) (b, [])
          if !b1.good then b1
          else
            match haloPoints a.n0 a.n1 w (q.getD 0 0) (q.getD 1 0) (q.getD 2 0) (q.getD 3 0) with
            | none => b1.halt 0x59 0
            | some ps =>
              if d.count < b1.elems + ps.length then b1.halt 0x59 0
              else
                ps.foldl (fun b p =>
                  match b.elem a p.1 p.2 with
                  | (b2, v) => (b2.emit d b2.elems rm f.sat [(v, v)]).1) b1) b,
    fin := fun _ => [], macs := 0 }

/-- HALO. (DEDUCED: notes/assumptions/25.md.) -/
def execHalo (h : Hdr) (f : FormD) (s : State) : Res :=
  .next (s.planExec h (.halo h f) .hsh (use2 f) fun x sp => haloPlan f x sp)

end Sys2Proof.Machine
end

