-- ==== Sys2Proof/Machine/Tier.lean ====
section
/-! DEFINITION. Sys2Proof/Machine/Tier.lean: the tier store, the application of the tiers and the overlay switch (18_bringup_reset_lowpower.md R492 to
R498). Tier 16 is the base tier, tiers 0 to 15 the overlays. -/
namespace Sys2Proof.Machine

/-! ## Reading a tier (R492, R493) -/

/-- The store's word at a TIE offset. -/
def State.tieWord (s : State) (off : Nat) : Nat := ((Store.find s.tier off).getD 0).toNat

/-- The first TIE offset of tier k. -/
def tierBase (k : Nat) : Nat := if k = 16 then 0 else 0x30000 + k * 0x1000

/-- The most records of tier k. -/
def tierLimit (k : Nat) : Nat := if k = 16 then 12287 else 255

/-- A record: operation, window offset, value, and whether bits [59:24] of its word 1 are 0. -/
structure TierRec where
  op    : Nat
  off   : Nat
  value : Nat
  clean : Bool
deriving DecidableEq, Repr

/-- COUNT of tier k. -/
def State.tierCount (s : State) (k : Nat) : Nat := bits (s.tieWord (tierBase k)) 31 16

/-- The records of tier k, in order. -/
def State.tierRecs (s : State) (k : Nat) : List TierRec :=
  (List.range (s.tierCount k)).map fun i =>
    let a := tierBase k + 16 * (i + 1)
    let w := s.tieWord (a + 8)
    { op := bits w 63 60, off := bits w 23 0, value := s.tieWord a, clean := bits w 59 24 == 0 }

/-- The CRC-32C of tier k's header word 0 and records, in address order. -/
def State.tierCrc (s : State) (k : Nat) : Nat :=
  let words := s.tieWord (tierBase k) :: (List.range (2 * s.tierCount k)).map fun i => s.tieWord (tierBase k + 16 + 8 * i)
  crc32c (words.flatMap fun w => toLE 8 w)

/-- The header of tier k matches its place. -/
def State.tierHeader (s : State) (k : Nat) : Bool :=
  let w := s.tieWord (tierBase k)
  bits w 63 48 == 0x7A71 && bits w 47 40 == 1 && bits w 39 36 == (if k = 16 then 0 else 1) && bits w 35 32 == (if k = 16 then 0 else k)
    && bits w 15 0 == 0 && decide (s.tieWord (tierBase k + 8) < 2 ^ 32)

/-- A record with OP 1 that targets a register with an RWS field. -/
def TierRec.rws (r : TierRec) : Bool :=
  r.op == 1 && match regAt r.off with
    | some (g, i) => g.fields.any fun f => f.accAt i == .RWS
    | none => false

/-- Why tier k is invalid, 0 where it is valid. (DEDUCED: notes/assumptions/32.md.) -/
def State.tierReason (s : State) (k : Nat) : Nat :=
  if !s.tierHeader k then 1
  else if tierLimit k < s.tierCount k then 2
  else if (s.tierRecs k).any fun r => decide (1 < r.op) || !r.clean then 3
  else if s.tierCrc k ≠ s.tieWord (tierBase k + 8) then 4
  else if k ≠ 16 && (s.tierRecs k).any TierRec.rws then 5
  else 0

/-- The use of tier k: whether it is valid, and s with TIER_INVALID recorded where it is not. (DEDUCED: notes/assumptions/32.md.) -/
def State.useTier (s : State) (k : Nat) : Bool × State :=
  match s.tierReason k with
  | 0 => (true, s)
  | c => (false, s.emit Ev.TIER_INVALID (Un.tier k) c 0)

/-- The offsets that tier k's records with OP 1 name. -/
def State.tierNames (s : State) (k : Nat) : List Nat := ((s.tierRecs k).filter fun r => r.op == 1).map (·.off)

/-- The value of tier k's last record with OP 1 for an offset. -/
def State.tierValue (s : State) (k off : Nat) : Option Nat :=
  ((s.tierRecs k).filter fun r => r.op == 1 && r.off == off).getLast?.map (·.value)

/-! ## Applying a record (R494) -/

/-- The events by which a register refuses or discards what is written to it. -/
def refusals : List Nat :=
  [Ev.RWS_DISCARD, Ev.MAP_REFUSED, Ev.GLB_CFG_REFUSED, Ev.CAS_CFG_REFUSED, Ev.TIM_CFG_REFUSED, Ev.PWR_CFG_REFUSED, Ev.THM_CFG_REFUSED,
   Ev.CAL_CFG_REFUSED, Ev.ITK_CFG_REFUSED, Ev.SCH_CFG_REFUSED, Ev.CFG_REFUSED, Ev.TX_CFG_REFUSED, Ev.RAS_CFG_REFUSED, Ev.AQD_CFG_REFUSED,
   Ev.WEI_CFG_REFUSED, Ev.BAS_CFG_REFUSED, Ev.SED_CFG_REFUSED, Ev.FNT_CFG_REFUSED]

/-- The register that a record may write at an offset, none where it is refused with TIER_TARGET. -/
def tierTarget (off : Nat) : Option (Reg × Nat) :=
  match regAt off with
  | some (r, i) =>
    if r.domain = .WARM ∧ r ≠ .GLB_RESET ∧ r ≠ .GLB_PSTATE ∧ r ≠ .SLC_PREQ ∧ r ≠ .CAL_FSP then some (r, i) else none
  | none => none

/-- A value with the bits of every field that is neither RW nor RWS taken as 0. -/
def tierMask (r : Reg) (i v : Nat) : Nat :=
  r.fields.foldl (fun a f => if f.accAt i = .RW ∨ f.accAt i = .RWS then a else setBits a f.hi f.lo 0) v

/-- s with record idx of tier k refused: 1 by TIER_TARGET, 2 by its register. (DEDUCED: notes/assumptions/32.md.) -/
def State.refuseRec (s : State) (k idx off code : Nat) : State :=
  ((((s.bump F.GLB_TIERSTAT_REFUSED 0 1).wr F.GLB_TIERSTAT_LASTTIER 0 k).wr F.GLB_TIERSTAT_LASTIDX 0 idx).wr F.GLB_TIERSTAT_LASTERR 0 code).emit
    Ev.TIER_RECORD_REFUSED (Un.tier k) idx off

/-- s after a value for an offset from record idx of tier k, and whether it was applied. (DEDUCED: notes/assumptions/32.md.) -/
def State.applyRec (s : State) (k idx off v : Nat) : State × Bool :=
  match tierTarget off with
  | none => (s.refuseRec k idx off 1, false)
  | some (r, i) =>
    let t := s.wReg r i (tierMask r i v) false
    if (t.events.arising.drop s.events.arising.length).any fun e => refusals.contains e.code then (t.refuseRec k idx off 2, false) else (t, true)

/-- s after every record of tier k, with the counts applied and refused added to (a, b). (DEDUCED: notes/assumptions/32.md.) -/
def State.applyTier (s : State) (k : Nat) (n : Nat × Nat) : State × Nat × Nat :=
  ((s.tierRecs k).foldl (fun (acc : Nat × State × Nat × Nat) r =>
    let (idx, t, a, b) := acc
    if r.op ≠ 1 then (idx + 1, t, a, b)
    else match t.applyRec k idx r.off r.value with
      | (u, true) => (idx + 1, u, a + 1, b)
      | (u, false) => (idx + 1, u, a, b + 1)) (0, s, n)).2

/-- The current overlay: 16 while the base tier alone is current. (DEDUCED: notes/assumptions/32.md.) -/
def State.curTier (s : State) : Nat := if s.flag F.GLB_TIER_BASEONLY 0 then 16 else s.rd F.GLB_TIER_CUR 0

/-- s with the base tier and then the current overlay applied (R495). (DEDUCED: notes/assumptions/32.md.) -/
def State.applyTiers (s : State) : State :=
  match s.useTier 16 with
  | (false, s1) => ((s1.wr F.GLB_TIERSTAT_BASE_OK 0 0).emit Ev.TIER_APPLIED Un.inst 0 0).applyMgr
  | (true, s1) =>
    let (s2, a, b) := (s1.wr F.GLB_TIERSTAT_BASE_OK 0 1).applyTier 16 (0, 0)
    let k := s2.curTier
    if k = 16 then (s2.emit Ev.TIER_APPLIED Un.inst a b).applyMgr
    else
      match s2.useTier k with
      | (false, s3) => ((s3.wr F.GLB_TIERSTAT_OVL_OK 0 0).emit Ev.TIER_APPLIED Un.inst a b).applyMgr
      | (true, s3) =>
        let s4 : State := { s3 with boot := { s3.boot with curSet := s3.tierNames k } }
        let (s5, c, d) := (s4.wr F.GLB_TIERSTAT_OVL_OK 0 1).applyTier k (a, b)
        (s5.emit Ev.TIER_APPLIED Un.inst c d).applyMgr

/-! ## The overlay switch (R496, R497) -/

/-- The index of tier k's last record for an offset. -/
def State.tierIdx (s : State) (k off : Nat) : Nat :=
  (((List.range (s.tierCount k)).zip (s.tierRecs k)).filter fun e => e.2.op == 1 && e.2.off == off).getLast?.map (·.1) |>.getD 0

/-- s with the staged value of one offset written: the new overlay's last record, else the base tier's, else the reset value. (DEDUCED: notes/assumptions/32.md.) -/
def State.stageOne (s : State) (k : Nat) (baseOk : Bool) (off : Nat) : State :=
  match (if k = 16 then none else s.tierValue k off) with
  | some v => (s.applyRec k (s.tierIdx k off) off v).1
  | none =>
    match (if baseOk then s.tierValue 16 off else none) with
    | some v => (s.applyRec 16 (s.tierIdx 16 off) off v).1
    | none =>
      match tierTarget off with
      | some (r, i) => s.wReg r i (tierMask r i (r.resetVal i)) false
      | none => s

/-- s switched to overlay k, or to the base tier alone for 16; refused where the overlay is invalid. (DEDUCED: notes/assumptions/32.md.) -/
def State.switchTo (s : State) (k : Nat) : State :=
  let (ok, s1) := if k = 16 then (true, s) else s.useTier k
  if !ok then s1.emit Ev.OVERLAY_REFUSED (Un.tier k) (s.tierReason k) 0
  else
    let old := s1.curTier
    let names := if k = 16 then [] else s1.tierNames k
    let offs := (names ++ s1.boot.curSet.filter fun o => !names.contains o).eraseDups
    let (baseOk, s2) := if offs.all names.contains then (false, s1) else
      match s1.useTier 16 with
      | (b, t) => (b, t.wrB F.GLB_TIERSTAT_BASE_OK 0 b)
    let s3 := foldS offs s2 fun t o => t.stageOne k baseOk o
    let s4 : State := { s3 with boot := { s3.boot with curSet := names } }
    let s5 := if k = 16 then s4.wrB F.GLB_TIER_BASEONLY 0 true
      else ((s4.wrB F.GLB_TIER_BASEONLY 0 false).wr F.GLB_TIER_CUR 0 k).wrB F.GLB_TIERSTAT_OVL_OK 0 true
    (s5.emit Ev.OVERLAY_SWITCHED Un.inst old k).applyMgr

/-- s with the switch that SWREQ asked for made, where one waits. -/
def State.switchPending (s : State) : State :=
  if s.flag F.GLB_TIERSTAT_PEND 0 then (s.wrB F.GLB_TIERSTAT_PEND 0 false).switchTo s.boot.swTo else s

/-- s after an OVERLAY action (15_time_and_tide.md R420): ARG [4] for the base tier alone. -/
def State.overlayAction (s : State) (arg : Nat) : State := s.switchTo (if arg.testBit 4 then 16 else arg % 16)

/-! ## GLB_TIER (R495, R496, R499) -/

/-- s after a write of GLB_TIER: NEXT and NBASE, then APPLY, then SWREQ, which is served at once while TSTATE is NONE. -/
def State.wTier (s : State) (v : Nat) : State :=
  let apply := F.GLB_TIER_APPLY.of v == 1
  let sw := F.GLB_TIER_SWREQ.of v == 1
  if (apply || sw) && s.flag F.GLB_TIERSTAT_BUSY 0 then s.glbRefuse 5
  else
    let s1 := s.storeReg .GLB_TIER 0 v false
    let s2 := if apply then s1.applyTiers else s1
    if !sw then s2
    else
      let k := if s2.flag F.GLB_TIER_NBASE 0 then 16 else s2.rd F.GLB_TIER_NEXT 0
      let s3 := ({ s2 with boot := { s2.boot with swTo := k } } : State).wrB F.GLB_TIERSTAT_PEND 0 true
      if s3.rd F.TIM_TIDE_TSTATE 0 = 0 then s3.switchPending else s3

/-- TIER_APPLY (R495): GLB_TIER written as it is with APPLY 1. (DEDUCED: notes/assumptions/32.md.) -/
def execTierApply (s : State) : Res := .next (s.hostWrite .GLB_TIER 0 fun t => t.wTier (t.reg .GLB_TIER 0 + 2 ^ 15))

/-- SWREQ (R496): GLB_TIER written as it is with SWREQ 1. (DEDUCED: notes/assumptions/32.md.) -/
def execSwreq (s : State) : Res := .next (s.hostWrite .GLB_TIER 0 fun t => t.wTier (t.reg .GLB_TIER 0 + 2 ^ 14))

/-- s after a write of a word of the tier store, with DECERR while BUSY (R492). -/
def State.tieWrite (s : State) (off v : Nat) : State :=
  if s.flag F.GLB_TIERSTAT_BUSY 0 then s.decerr
  else ({ s with tier := Store.put 0 s.tier off (BitVec.ofNat 64 v) } : State).ok

/-- TIER_STORE_WRITE (R492): a write of the word at window offset off. -/
def execTierStoreWrite (off : BitVec 24) (v : Word) (s : State) : Res :=
  let a := off.toNat
  .next (if s.answers 0x800000 && decide (0x800000 ≤ a ∧ a < 0x840000 ∧ a % 8 = 0) then s.tieWrite (a - 0x800000) v.toNat else s.decerr)

end Sys2Proof.Machine
end

