-- ==== Sys2Proof/Machine/Tide.lean ====
section
/-! DEFINITION. Sys2Proof/Machine/Tide.lean: the tide and its event table (15_time_and_tide.md R413 to R421): accepted values, holdover, spans, and the
actions, which wait while their units are stopped in SR or DEEP (18_bringup_reset_lowpower.md R490). -/
namespace Sys2Proof.Machine

/-! ## Actions (R420) -/

/-- s after an action: its code, its argument. -/
def State.doAction (s : State) (act arg : Nat) : State :=
  match act with
  | 1 =>
    let mask := bits arg 7 0
    let set := bits arg 15 8
    if mask = 0 then s
    else foldS ((List.range 2).filter fun p => arg.testBit (16 + p)) s fun t p =>
      t.updWeir p fun w => { w with waitG := w.waitG ++ [(mask, set)] }
  | 2 => if s.flag F.SCH_STAT_DEFER 0 then s else s.setDefer true
  | 3 => if s.flag F.SCH_STAT_DEFER 0 then s.setDefer false else s
  | 4 => { s with sched := { s.sched with scrubPrec := true } }
  | 5 => { s with sched := { s.sched with scrubPrec := false } }
  | 6 => ({ s with time := { s.time with calWin := true } } : State).kick
  | 7 => { s with time := { s.time with calWin := false } }
  | 8 => s.snapAction arg
  | 9 => s.overlayAction arg
  | 10 => if s.domOn 64 then s.plumeAction (bits arg 15 0) (s.rd F.TIM_TIDE_TIDE 0) else s
  | _ => s

/-- The units that actions target are stopped: SR, DEEP, or the exit from one (18_bringup_reset_lowpower.md R490). (DEDUCED: notes/assumptions/31.md.) -/
def State.away (s : State) : Bool := decide (3 ≤ s.rd F.GLB_PSTATE_CUR 0) || s.boot.leaving || s.phase != 8

/-- s with an action applied, or kept for the end of a power state; a tide action ends IDLE (R486). (DEDUCED: notes/assumptions/31.md.) -/
def State.fireAction (s : State) (act arg : Nat) : State :=
  let s1 := s.leaveIdle 4
  if s1.away then { s1 with boot := { s1.boot with waitTide := s1.boot.waitTide ++ [(act, arg)] } } else s1.doAction act arg

/-- s with what waited for the end of a power state carried out once it has ended and the tiers are applied: tide actions, and a set-point change
(18_bringup_reset_lowpower.md R485). (DESIGN CHOICE: notes/assumptions/2.md.) -/
def State.serveWaits (s : State) : State :=
  if s.away then s
  else
    let s1 := foldS s.boot.waitTide ({ s with boot := { s.boot with waitTide := [] } } : State) fun t e => t.doAction e.1 e.2
    if s1.cal.reqHeld && !s1.pstateBusy then ({ s1 with cal := { s1.cal with reqHeld := false } } : State).beginFsp else s1

/-! ## Spans (R418, R419) -/

/-- The distance from tide a to the last occurrence of a periodic entry in (a, a + len], none without one. -/
def lastPeriodic (a len n res point : Nat) : Option Nat :=
  let k := max n 1
  let p := point % 1024
  let b := (a + len) % 2 ^ 32
  let before := if p ≤ b % 1024 then b / 1024 + 1 else b / 1024
  let top := if res < before then before - 1 else 2 ^ 22 - 1
  let st := top - (top + k - res % k) % k
  let d := (1024 * st + p + 2 ^ 32 - a % 2 ^ 32) % 2 ^ 32
  if 0 < d ∧ d ≤ len then some d else none

/-- The distance from tide a to the last occurrence of entry i in (a, a + len], none without one. -/
def State.lastOcc (s : State) (i a len : Nat) : Option Nat :=
  let point := s.rd F.TIM_EVT0_POINT i
  if s.flag F.TIM_EVT0_PER i then lastPeriodic a len (s.rd F.TIM_EVT0_N i) (s.rd F.TIM_EVT0_RES i) point
  else
    let d := (point + 2 ^ 32 - a % 2 ^ 32) % 2 ^ 32
    if 0 < d ∧ d ≤ len then some d else none

/-- A firing put behind those that come no later. -/
def insertFiring (e : Nat × Nat) : List (Nat × Nat) → List (Nat × Nat)
  | [] => [e]
  | h :: t => if e.1 < h.1 then e :: h :: t else h :: insertFiring e t

/-- The entries that fire in (a, a + len], by distance of the last occurrence and then by index: (distance, entry). -/
def State.firings (s : State) (a len : Nat) : List (Nat × Nat) :=
  (List.range 256).foldl (fun l i => match (if s.evtLive i then s.lastOcc i a len else none) with
    | some d => insertFiring (d, i) l
    | none => l) []

/-- The table fires: in phase 8 (18_bringup_reset_lowpower.md R476, R481 step 1). -/
def State.tableRuns (s : State) : Bool := s.phase == 8

/-- s after the span (a, a + len], the internal tide standing at its end: a switch that waits for a step boundary (18_bringup_reset_lowpower.md R496),
the GO of a plume that waits for its tide, then the entries. (DEDUCED: notes/assumptions/31.md.) -/
def State.span (s : State) (a len : Nat) : State :=
  if len = 0 || !s.tableRuns then s
  else
    let fired := s.firings a len
    let acts := fired.map fun e => (s.rd F.TIM_EVT0_ACTION e.2, s.rd F.TIM_EVT1_ARG e.2)
    let s1 := foldS fired s fun t e => if t.flag F.TIM_EVT0_PER e.2 then t else t.wrB F.TIM_EVT1_FIRED e.2 true
    let s2 := if 1024 ≤ a % 1024 + len then s1.switchPending else s1
    let s3 := if s2.domOn 64 then s2.plumeSpan a len else s2
    foldS acts s3 fun t e => t.fireAction e.1 e.2

/-! ## The internal tide (R413 to R417) -/

/-- s with the internal tide moved forward to v, and the span that this makes. (DEDUCED: notes/assumptions/31.md.) -/
def State.moveTide (s : State) (v : Nat) : State :=
  let a := s.rd F.TIM_TIDE_TIDE 0
  (s.wr F.TIM_TIDE_TIDE 0 v).span a ((v + 2 ^ 32 - a) % 2 ^ 32)

/-- s with v as the value that set the internal tide: T_last and wall_last. -/
def State.setLast (s : State) (v : Nat) : State :=
  { s with time := { s.time with tLast := v, wallLast := s.wall } }

/-- The values that the rate is measured over (R414). -/
def rateSet (l : List (Nat × Nat)) (wall : Nat) : List (Nat × Nat) :=
  let recent := l.filter fun e => decide (wall ≤ e.2 + 1000000)
  if recent.length < 2 then l.drop (l.length - 2) else recent

/-- s with an advancing value v added to those of the rate, and the rate measured (R414). A rate that RATE cannot hold, and one over no time, is not
stated (DESIGN CHOICE: notes/assumptions/9.md). -/
def State.measureRate (s : State) (v : Nat) : State :=
  let l0 := s.time.samples ++ [(v, s.wall)]
  let l := l0.drop (l0.length - 64)
  let s1 : State := { s with time := { s.time with samples := l } }
  let m := rateSet l s.wall
  match m.head?, m.getLast? with
  | some x, some y =>
    if m.length < 2 then s1
    else
      let adv := (y.1 + 2 ^ 32 - x.1) % 2 ^ 32
      let ns := y.2 - x.2
      let rate := adv * 65536000 / ns
      let shown := if ns = 0 ∨ 2 ^ 32 ≤ rate then (Config.unstated 2 (adv * 2 ^ 32 + ns)).toNat % 2 ^ 32 else rate
      let s2 : State := { s1 with time := { s1.time with rho := if ns = 0 then (shown, 65536000) else (adv, ns) } }
      (s2.wr F.TIM_TRATE_RATE 0 shown).wrB F.TIM_TIDE_RATEV 0 true
  | _, _ => s1

/-- s with an advancing value v accepted (R413, R414, R416). (DEDUCED: notes/assumptions/31.md.) -/
def State.advanceTide (s : State) (v : Nat) : State :=
  let s1 := (((s.wr F.TIM_TCNT_LASTREAL 0 v).setLast v).measureRate v)
  let d := (v + 2 ^ 32 - s1.rd F.TIM_TIDE_TIDE 0) % 2 ^ 32
  let ahead := decide (d < 2 ^ 31)
  let s2 := if s1.rd F.TIM_TIDE_TSTATE 0 = 2 then (s1.wr F.TIM_TIDE_TSTATE 0 1).emit Ev.TIDE_RESUMED Un.inst (if ahead then d else 0) 0 else s1
  if ahead then s2.moveTide v else s2

/-- s with a backward value discarded (R413): TIDE_BACKWARD at most once in 1 ms. (DEDUCED: notes/assumptions/31.md.) -/
def State.backTide (s : State) (v : Nat) : State :=
  let s1 := s.bump F.TIM_TCNT_BACKWARD 0 1
  let due := match s1.time.lastBack with
    | some w => decide (w + 1000000 ≤ s1.wall)
    | none => true
  if due then ({ s1 with time := { s1.time with lastBack := some s1.wall } } : State).emit Ev.TIDE_BACKWARD Un.inst v 0 else s1

/-- s with v as the first accepted value (R417, R421): it fires nothing, and decides EXPIRED of the entries. (DEDUCED: notes/assumptions/31.md.) -/
def State.firstTide (s : State) (v : Nat) : State :=
  let s1 := ((s.wr F.TIM_TIDE_TIDE 0 v).wr F.TIM_TIDE_TSTATE 0 1).setLast v
  foldS (List.range 256) s1 fun t i => t.judgeEntry i

/-- s with v taken as the new tide under REBASE (R413). (DEDUCED: notes/assumptions/31.md.) -/
def State.takeRebase (s : State) (v : Nat) : State :=
  let old := s.rd F.TIM_TIDE_TIDE 0
  let s1 : State := { s with time := { s.time with rebase := false, samples := [] } }
  if s1.rd F.TIM_TIDE_TSTATE 0 = 0 then (s1.firstTide v).emit Ev.TIDE_REBASE Un.inst old v
  else (((s1.wr F.TIM_TIDE_TIDE 0 v).wr F.TIM_TIDE_TSTATE 0 1).setLast v).emit Ev.TIDE_REBASE Un.inst old v

/-- s with a value that R54 accepts. Before phase 8 the tide stays NONE (18_bringup_reset_lowpower.md R476), but for the drain of a warm reset. (DEDUCED: notes/assumptions/31.md.) -/
def State.tideValue (s : State) (v : Nat) : State :=
  if s.phase ≠ 8 ∧ s.phase ≠ 9 then s
  else if s.time.rebase then s.takeRebase v
  else if s.rd F.TIM_TIDE_TSTATE 0 = 0 then s.firstTide v
  else
    let d := (v + 2 ^ 32 - s.time.tLast) % 2 ^ 32
    if d = 0 then s else if d < 2 ^ 31 then s.advanceTide v else s.backTide v

/-- TIDE_VALUE_ACCEPT (R413; 02_ports.md R54), with the level at which TIDE_VLD stands after the two samples (R72); nothing is sampled in phase 0
(R56). (DESIGN CHOICE: notes/assumptions/55.md.) -/
def execTideValueAccept (v : TideSample) (s : State) : Res :=
  .next (if s.phase = 0 then s else ((s.wrB F.GLB_PINSTAT_TIDE_VLD 0 v.vld).tideValue v.value.toNat).serveWaits)

/-- TIDE_VALUE_DISCARD (02_ports.md R54): a value that changes between two samples with TIDE_VLD high is not accepted, and the count of R72 rises;
nothing is sampled in phase 0 (R56). (DESIGN CHOICE: notes/assumptions/55.md.) -/
def execTideValueDiscard (s : State) : Res :=
  .next (if s.phase = 0 then s else (s.wrB F.GLB_PINSTAT_TIDE_VLD 0 true).bump F.GLB_PINSTAT_TIDE_DISC 0 1)

/-- TIDE_STALL (R415): no advance for STALL µs. -/
def execTideStall (s : State) : Res :=
  if s.rd F.TIM_TIDE_TSTATE 0 = 1 then
    .next (((s.wr F.TIM_TIDE_TSTATE 0 2).bump F.TIM_TCNT_HOLDOVERS 0 1).emit Ev.TIDE_HOLDOVER Un.inst s.time.tLast (s.rd F.TIM_TRATE_RATE 0))
  else .next s

/-- s after a holdover step (R415): in HOLDMODE 0 with a measured rate the tide is extrapolated, and never moves backward (R416). -/
def State.holdStep (s : State) : State :=
  let (adv, ns) := s.time.rho
  if s.rd F.TIM_TIDE_TSTATE 0 ≠ 2 ∨ s.flag F.TIM_TCTL_HOLDMODE 0 ∨ !s.flag F.TIM_TIDE_RATEV 0 then s
  else
    let v := (s.time.tLast + adv * (s.wall - s.time.wallLast) / ns) % 2 ^ 32
    let d := (v + 2 ^ 32 - s.rd F.TIM_TIDE_TIDE 0) % 2 ^ 32
    if d < 2 ^ 31 then s.moveTide v else s

/-- TIDE_HOLDOVER_STEP (R415). -/
def execTideHoldoverStep (s : State) : Res := .next s.holdStep.serveWaits

/-! ## Registers -/

/-- REBASE (R413): TIM_TCTL written as it is with REBASE 1. -/
def execRebase (s : State) : Res := .next (s.hostWrite .TIM_TCTL 0 fun t => t.wTctl (t.reg .TIM_TCTL 0 ||| 4))

/-- TIM_EVT0_WRITE (R421, R422). -/
def execTimEvt0Write (i : Fin 256) (v : Word) (s : State) : Res := .next (s.hostWrite .TIM_EVT0 i.val fun t => t.wEvt0 i.val v.toNat)

/-! ## The actions as rows -/

/-- s after an action of the table that fires: nothing but in phase 8. -/
def State.tideRow (s : State) (act arg : Nat) : State := if s.tableRuns then (s.fireAction act arg).serveWaits else s

/-- WEIR_GATE (14_weir_shaping.md R398). -/
def execWeirGate (arg : BitVec 32) (s : State) : Res := .next (s.tideRow 1 arg.toNat)
/-- DEFER_OPEN (10_rills.md R296). -/
def execDeferOpen (s : State) : Res := .next (s.tideRow 2 0)
/-- DEFER_CLOSE (R296). -/
def execDeferClose (s : State) : Res := .next (s.tideRow 3 0)
/-- SCRUB_OPEN (R420). -/
def execScrubOpen (s : State) : Res := .next (s.tideRow 4 0)
/-- SCRUB_CLOSE (R420). -/
def execScrubClose (s : State) : Res := .next (s.tideRow 5 0)
/-- CAL_OPEN (17_calibration_and_training.md R463). -/
def execCalOpen (s : State) : Res := .next (s.tideRow 6 0)
/-- CAL_CLOSE (R463). -/
def execCalClose (s : State) : Res := .next (s.tideRow 7 0)
/-- CENSUS_SNAP (19_cascade_and_services.md R536). (DEDUCED: notes/assumptions/41.md.) -/
def execCensusSnap (arg : BitVec 32) (s : State) : Res := .next (s.tideRow 8 arg.toNat)
/-- OVERLAY (18_bringup_reset_lowpower.md R496). -/
def execOverlay (arg : BitVec 32) (s : State) : Res := .next (s.tideRow 9 arg.toNat)
/-- PLUME_GO (19_cascade_and_services.md R530). (DEDUCED: notes/assumptions/31.md.) -/
def execPlumeGo (arg : BitVec 32) (s : State) : Res := .next (s.tideRow 10 arg.toNat)

end Sys2Proof.Machine
end

