-- ==== Sys2Proof/Machine/Reset.lean ====
section
/-! DEFINITION. Sys2Proof/Machine/Reset.lean: the resets (18_bringup_reset_lowpower.md R480 to R485, R489): power-on, cold and warm reset, the thermal
restart, the waking of phase 3 and the restore of phase 7; and the compute-part reset (02_ports.md R49, R67). -/
namespace Sys2Proof.Machine

/-! ## What a warm reset leaves (R481 step 6, R489) -/

/-- A pseudo-channel after a reset: its generator and its place in the scrub pass go on (10_rills.md R299; 12_data_integrity.md R356). -/
def PcState.reset (p : PcState) : PcState :=
  { PcState.init with seed := p.seed, acts := p.acts, scrubPage := p.scrubPage, passStart := p.passStart }

/-- The intake after a reset: the responses that have been returned still transfer, and the beats that wait still wait. -/
def Intake.reset (k : Intake) : Intake :=
  { c := [], h := [], held := [], outCls := [], tags := k.tags.map fun e => (e.1, e.2.map fun t => (t.1, 0)), tagWait := k.tagWait,
    resp := k.resp, negFail := k.negFail, negDone := [] }

/-- s with the registers of the domains that a warm reset resets at their reset values, and the levels they show as they stand: domains,
pseudo-channels, spares in TAKEOVER, failed regulators. (DESIGN CHOICE: notes/assumptions/34.md.) -/
def State.resetRegisters (s : State) : State :=
  let s1 := s.resetDomains [.WARM, .CHAN, .ENG, .FPORT]
  let s2 := foldS (List.range 66) s1 fun t d => t.setDom d (s.domSt d)
  let s3 := foldS (List.range 64) s2 fun t n => t.wr F.PC_STAT_STATE n (if s.fenced n then 5 else if s.pcSt n = 3 then 3 else 0)
  let s4 := foldS s3.map.takeover s3 fun t e => t.setSpare e.1 3 e.2
  let s5 := foldS (List.range 128) s4 fun t l => t.wr F.CAL_LSTAT_ACT l 0
  foldS (List.range 8) s5 fun t k => t.showTriad k

/-- s with each triad slewing to the set point it now has (16_power_and_thermal.md R427). -/
def State.slewFrom (s : State) (old : State) : State :=
  foldS (List.range 8) s fun t k =>
    let a := old.rd F.PWR_TRI_SETMV k
    let b := t.rd F.PWR_TRI_SETMV k
    if a = b then t
    else ({ t with power := { t.power with slew := Store.put 0 t.power.slew k (t.time.ticks + 100 * ((a - b) + (b - a))) } } : State).command (.setPoint k b)

/-- s after step 6 of R481 under a cause (GLB_BOOTSTAT): WARM, CHAN, ENG and FPORT registers and the state behind them reset, the set point FSP0. (DESIGN CHOICE: notes/assumptions/34.md.) -/
def State.resetWarm (s : State) (cause : Nat) : State :=
  let s0 := (s.dropLines (fun _ => true) 3).clearSpouts
  let s1 := s0.resetRegisters.slewFrom s
  let b := s1.basin
  let x := s1.txu
  let p := s1.power
  let f := s1.font
  let e := s1.events
  let s2 : State :=
    { s1 with
      pcs := s1.pcs.map fun q => (q.1, q.2.reset)
      sched := State.reset.sched
      intake := s1.intake.reset
      basin := { State.reset.basin with valid := b.valid }
      txu := { State.reset.txu with decisions := x.decisions, records := x.records }
      aqd := []
      ring := { State.reset.ring with nonce := s1.ring.nonce, nextTag := s1.ring.nextTag }
      weirs := []
      time := { s1.time with samples := [], rebase := false, tLast := 0, wallLast := 0, calWin := false, rho := (0, 0), lastBack := none }
      power := { p with late := [], sensBad := [], warned := [], quorum := false, hot := [], lvls := [], stackRun := 0 }
      cal := { State.reset.cal with edges := s1.cal.edges, driftT := s1.cal.driftT }
      font := { f with calls := [], answer := none, mboxBusy := [], snaps := [], plume := State.reset.font.plume }
      events := { e with lostRun := [], lostAll := [], fatal := [], aggLeft := [], aggGot := [], aggRound := 0, aggRetry := false } }
  let s3 : State := { s2 with boot := { s2.boot with entry := none, entering := false, recover := false } }
  (s3.wr F.GLB_BOOTSTAT_CAUSE 0 cause).negotiate

/-! ## Self-test, tiers, restore (R481 steps 7 to 11) -/

/-- s after the self-test of the checkers (12_data_integrity.md R361), whose outcome the surroundings give: a failing spare in TAKEOVER loses its
pseudo-channel, a failing rill that drives its own is replaced. -/
def State.selfTest (s : State) : State :=
  match s.boot.env with
  | none => s.wr F.RAS_STSPARE_DONE 0 1
  | some e =>
    let s1 := (((((s.wr F.RAS_STRILL_FAIL 0 e.failRill.toNat).wr F.RAS_STSPARE_SPFAIL 0 e.failSpare.toNat).wrB F.RAS_STSPARE_WINFAIL 0 e.failWin).wrB
      F.RAS_STSPARE_SRAMFAIL 0 e.failSram).wr F.RAS_STSPARE_DONE 0 1)
    let bad := e.failRill != 0 || e.failSpare != 0 || e.failWin || e.failSram
    let s2 := if bad then s1.emit Ev.SELFTEST_FAIL Un.inst (s1.reg .RAS_STRILL 0) (s1.reg .RAS_STSPARE 0) else s1
    let s3 := foldS (List.range 8) s2 fun t m => if e.failSpare.getLsbD m && t.spareUse m == 3 then t.retirePc (t.sparePc m) else t
    foldS (List.range 64) s3 fun t n => if e.failRill.getLsbD n && !t.served n 3 then t.rillFails n else t

/-- s with the switched domains that are OFF and asked for ON waiting to wake. -/
def State.wakeAsked (s : State) : State :=
  foldS (List.range 66) s fun t d => if t.domSt d = 0 && t.flag F.PWR_DCTL_ON d then t.wantWake d else t

/-- s in phase 7 of a restore: the map of the record in force with the windows of the registers (03_address_map.md R85, R92), and recovery due. -/
def State.restoreMap (s : State) : State :=
  let s1 := s.setPhase 7
  let old := s1.map
  let s2 := if old.mode = 0 then s1 else ({ s1 with map := { old with windows := s1.bcwSet } } : State).windowChange old
  let s3 := s2.showMap.updDeliv.evalRecbase
  ({ s3 with boot := { s3.boot with recover := true } } : State).tryReady

/-- s after steps 6 to 11 of R481 for an instance whose domains are powered. -/
def State.restart (s : State) (cause : Nat) : State :=
  (((s.resetWarm cause).setPhase 3).selfTest.applyTiers.wakeAsked).restoreMap

/-- s with phase 3 over once every domain is ON or DARK (R473): self-test, tiers, and then the stack, or the restore of a restart. -/
def State.afterWake (s : State) : State :=
  if s.phase = 3 && s.power.shut == 0 && (List.range 66).all fun d => s.domSt d == 2 || s.domSt d == 4 then
    let s1 := s.selfTest.applyTiers
    if s1.cause ≤ 1 then s1.enterStack
    else if s1.boot.lostData then ({ s1 with boot := { s1.boot with recover := true } } : State).trainStack
    else s1.restoreMap
  else s

/-- WAKE_RAMP_END (16_power_and_thermal.md R438). -/
def execWakeRampEnd (d : Dom66) (voltageOk : Bool) (s : State) : Res := .next (s.rampEnd d.val voltageOk).afterWake

/-- DOMAIN_DARK_DONE (16_power_and_thermal.md R432). -/
def execDomainDarkDone (d : Dom66) (s : State) : Res := .next (s.domainDark d.val).afterWake

/-! ## Warm reset (R481) -/

/-- s with a warm reset begun (steps 1 to 4). -/
def State.startWarm (s : State) : State :=
  let s1 := ((s.emit Ev.WARM_RESET Un.inst 0 0).wr F.GLB_BOOTSTAT_CAUSE 0 2).setPhase 9
  let s2 : State := { s1 with boot := { s1.boot with entry := none, entering := false, leaving := false, recover := false } }
  let s3 := (s2.plumeAbort 7).shutDown 1
  let s4 := foldS (List.range 8) s3 fun t p => if t.fpSt p = 3 then t.portDown p else t.wr F.ITK_FPSTAT_STATE p 0
  let s5 := s4.takeWaits
  if s5.allRefreshed then s5.restart 2 else s5

/-! ## Thermal restart (R483; 16_power_and_thermal.md R449, R450) -/

/-- s with memory contents lost, and what lies in memory with them. (DESIGN CHOICE: notes/assumptions/4.md.) (DESIGN CHOICE: notes/assumptions/34.md.) -/
def State.loseMemory (s : State) : State :=
  let s1 := foldS (List.range 64) s fun t n => if t.pcSt n = 3 then t.wr F.PC_STAT_STATE n 0 else t
  { s1 with mem := [], basin := { s1.basin with valid := [] }, txu := { s1.txu with records := [], decisions := [] },
            font := { s1.font with pages := [] } }

/-- s with the restart after a trip begun: an interrupted sequence starts again with its own cause (R485). (DESIGN CHOICE: notes/assumptions/34.md.) -/
def State.restartTrip (s : State) : State :=
  let cause := s.boot.resume.getD 3
  let lost := s.power.lost
  let s1 := s.emit Ev.THERM_RESTART Un.inst 0 0
  let s2 := if lost then s1.loseMemory else s1
  let s3 : State :=
    { s2 with power := { s2.power with shut := 0, lost := false, cool := false },
              boot := { s2.boot with resume := none, lostData := lost, leaving := false } }
  ((s3.resetWarm cause).setPhase 3).wakeAsked.afterWake

/-- Every effective reading is at least 25 °C below the SHUT in force at the trip. -/
def State.allCool (s : State) : Bool := (List.range 16).all fun n => decide (s.effOfSensor n + 25 ≤ (s.power.shutAt : Int))

/-- THERMAL_RESTART (R450): the readings have stayed 25 °C below for 10 s; a restart held under RLIM waits for its release. A region shutdown does not
restart (16_power_and_thermal.md R434). (DESIGN CHOICE: notes/assumptions/34.md.) -/
def execThermalRestart (s : State) : Res :=
  if s.power.shut = 2 && s.power.region.isNone && s.allCool then
    if s.flag F.THM_TRIP_HELD 0 then .next { s with power := { s.power with cool := true } } else .next s.restartTrip
  else .next s

/-- s after a write of THM_TRIP (R450): RESTART releases a held restart, which begins once the temperature condition holds. -/
def State.wThmTrip (s : State) (v : Nat) : State :=
  if F.THM_TRIP_RESTART.of v = 1 && s.flag F.THM_TRIP_HELD 0 then
    let s1 := s.wr F.THM_TRIP_HELD 0 0
    if s1.power.shut = 2 && s1.power.region.isNone && s1.power.cool then s1.restartTrip else s1
  else s

/-- RESTART_RELEASE (R450). -/
def execRestartRelease (s : State) : Res := .next (s.hostWrite .THM_TRIP 0 fun t => t.wThmTrip (2 ^ 63))

/-! ## Power-on and cold reset (R473, R480, R482; 02_ports.md R56, R65, R66) -/

/-- s with the straps, the fuse record and the retirements of the array shown (R480; 02_ports.md R66). -/
def State.latch (s : State) (e : PinLevels) : State :=
  let f := e.fuse.toNat
  let s1 := (s.wrB F.GLB_ID_MGR_STRAP 0 e.mgrSel).wr F.GLB_ID_INSTANCE 0 e.instId.val
  let s2 := foldS [F.GLB_FUSE_TV, F.GLB_FUSE_TPC, F.GLB_FUSE_RV1, F.GLB_FUSE_RV0, F.GLB_FUSE_RPC1, F.GLB_FUSE_RPC0] s1 fun t g => t.wr g 0 (g.of f)
  let ret := (if F.GLB_FUSE_RV0.of f = 1 then 2 ^ F.GLB_FUSE_RPC0.of f else 0) ||| (if F.GLB_FUSE_RV1.of f = 1 then 2 ^ F.GLB_FUSE_RPC1.of f else 0)
  let s3 := s2.setReg .GLB_RETIRED 0 (s2.reg .GLB_RETIRED 0 ||| ret)
  let s4 := foldS (List.range 64) s3 fun t n => if t.fenced n then t.wr F.PC_STAT_STATE n 5 else t
  let s5 := foldS s4.map.takeover s4 fun t k => t.setSpare k.1 3 k.2
  if F.GLB_FUSE_TV.of f = 1 then s5.takeover (F.GLB_FUSE_TPC.of f) else s5

/-- s through phase 1 into phase 2: COLD_RESET after a cold reset, the latched facts, and HELLO with a nonce drawn (19_cascade_and_services.md R506). (DESIGN CHOICE: notes/assumptions/34.md.) -/
def State.bringUp (s : State) : State :=
  match s.boot.env with
  | none => s
  | some e =>
    let s1 := s.setPhase 1
    let s2 := if s1.cause = 1 then s1.emit Ev.COLD_RESET Un.inst s1.boot.coldCause 0 else s1
    let (k, s3) := (s2.latch e).draw
    let s4 := (s3.updCas fun c => { c with nonce := (Config.jitter k).toNat, drawn := true }).sayHello
    s4.setPhase 2

/-- s with bring-up begun where REFCLK is there, RST_N is high and phase 0 holds. -/
def State.tryBringUp (s : State) : State := if s.phase = 0 && s.boot.refclk && s.boot.rstN then s.bringUp else s

/-- The generators of the rills seeded with draws (10_rills.md R299). (DESIGN CHOICE: notes/assumptions/6.md.) -/
def State.seedRills (s : State) : State :=
  foldS (List.range 64) s fun t n =>
    let (k, t1) := t.draw
    t1.updPc n fun p => { p with seed := k }

/-- POWER_ON_RESET (R473): the always-on supply becomes valid; everything is cleared. -/
def execPowerOnReset (pins : PinLevels) (s : State) : Res :=
  let s0 : State := { State.reset with free := s.free, pending := s.pending }
  let s1 : State := { s0 with boot := { s0.boot with env := some pins, refclk := pins.refclk, rstN := pins.rstN, compute := pins.compute } }
  .next (s1.seedRills.setPhase 0).tryBringUp

/-- What a cold reset leaves: the AON registers, unverified where R465 of 17_calibration_and_training.md says so, the always-on arrays, the sediment log,
and the pins. (DESIGN CHOICE: notes/assumptions/34.md.) -/
def State.coldState (s : State) : State :=
  let s1 := s.resetDomains [.COLD, .WARM, .CHAN, .ENG, .FPORT]
  let pcs := s.pcs.map fun q => (q.1, { PcState.init with seed := q.2.seed, acts := q.2.acts, passStart := s.time.ticks })
  let b := s.boot
  let s2 : State :=
    { State.reset with
      regs := s1.regs, tier := s.tier, pcs := pcs, free := s.free, pending := s.pending
      map := { State.reset.map with regions := s.map.regions, takeover := s.map.takeover }
      ras := { State.reset.ras with slots := s.ras.slots }
      time := { State.reset.time with ticks := s.time.ticks }
      cal := { State.reset.cal with edges := s.cal.edges }
      boot := { State.reset.boot with refclk := b.refclk, rstN := b.rstN, compute := b.compute, env := b.env, wrapper := b.wrapper, curSet := b.curSet }
      font := { State.reset.font with keys := s.font.keys }
      events := { State.reset.events with log := s.events.log, postLeft := s.events.postLeft } }
  foldS (List.range 128) s2 fun t l =>
    let t1 := ((t.wr F.CAL_LSTAT_ACT l 0).wrB F.CAL_ZQ_VERIFIED l false).wrB F.CAL_VREF_VERIFIED l false
    foldS [2 * l, 2 * l + 1] t1 fun u k => (u.wrB F.CAL_RDLY_VERIFIED k false).wrB F.CAL_WDLY_VERIFIED k false

/-- s held in cold reset, in phase 0, under a cause (0 RST_N, 1 REFCLK); a power-on reset or a cold reset still in phase 0 keeps its own. (DESIGN CHOICE: notes/assumptions/34.md.) -/
def State.cold (s : State) (cause : Nat) : State :=
  if s.phase = 0 then s
  else
    let s1 := s.coldState
    let s2 : State := { s1 with boot := { s1.boot with coldCause := cause } }
    (s2.wr F.GLB_BOOTSTAT_CAUSE 0 1).setPhase 0

/-- s with RST_N low. (DESIGN CHOICE: notes/assumptions/7.md.) -/
def State.rstLow (s : State) : State := ({ s with boot := { s.boot with rstN := false } } : State).cold 0

/-- COLD_RESET (R482; 02_ports.md R65): RST_N has been low for lowNs; from 30 ns to 10 µs it is not defined whether that is a cold reset. (DESIGN CHOICE: notes/assumptions/34.md.) -/
def execColdReset (lowNs : Nat) (s : State) : Res :=
  if s.boot.env.isNone || decide (lowNs < 30) then .next s
  else if 10000 ≤ lowNs then .next s.rstLow
  else
    let (k, t) := s.draw
    .next (if Config.shortPulse k then t.rstLow else t)

/-- RST_N_RISE (R473; 02_ports.md R66): the straps and pins are taken, and bring-up starts. -/
def execRstNRise (pins : PinLevels) (s : State) : Res :=
  if s.boot.rstN || s.boot.env.isNone then .next s
  else
    .next ({ s with boot := { s.boot with env := some pins, refclk := pins.refclk, rstN := true, compute := pins.compute } } : State).tryBringUp

/-- REFCLK_LOSS (02_ports.md R56). -/
def execRefclkLoss (s : State) : Res :=
  if s.boot.refclk then .next (({ s with boot := { s.boot with refclk := false } } : State).cold 1) else .next s

/-- s at the end of the cold reset that a lock ends: MGR_SEL and INST_ID may have changed since the last latch (R66); after POR the straps stand as
they were latched at its end. The row carries no pins, so the two straps are free values. (DESIGN CHOICE: notes/assumptions/55.md.) -/
def State.restrap (s : State) : State :=
  if s.phase = 0 ∧ s.cause = 1 then
    let k := s.draw.1
    { s.draw.2 with boot := { s.boot with env := s.boot.env.map fun e => { e with mgrSel := Config.strapMgr k, instId := (Config.strapInst k).toFin } } }
  else s

/-- REFCLK_LOCK (R56): bring-up starts as after POR, or the cold reset sequence with the straps of its end; RST_N keeps its level. Outside phase 0
the lock only ends the loss. -/
def execRefclkLock (s : State) : Res :=
  let t := s.restrap
  .next ({ t with boot := { t.boot with refclk := true } } : State).tryBringUp

/-! ## Compute-part reset (02_ports.md R49, R67; 04_zynsa_model.md R128; 09_transactions.md R270) -/

/-- s with a compute-part reset begun: ports quiesce, ACTIVE transactions that a fabric request joined abort with COMPUTE_RESET, and the spouts of
compute tasks halt. -/
def State.startCompute (s : State) : State :=
  let s1 := foldS (List.range 64) s fun t k =>
    if (t.slot k).st = TxSt.active && (t.slot k).fabric then t.txAbort k 0x10 0 none else t
  let s2 := s1.haltCompute.quiescePorts
  (foldS (List.range 8) s2 fun t p => if t.fpSt p = 1 then t.wr F.ITK_FPSTAT_STATE p 0 else t).takeWaits

/-- A compute-part reset has nothing to do: in phase 0, in a warm reset, and during a thermal trip (R67; 18_bringup_reset_lowpower.md R485). -/
def State.computeIdle (s : State) : Bool := s.phase == 0 || s.phase == 9 || s.power.shut != 0

/-- COMPUTE_RESET_ASSERT. -/
def execComputeResetAssert (s : State) : Res :=
  let s1 : State := { s with boot := { s.boot with compute := true } }
  .next (if s.boot.compute || s.computeIdle then s1 else s1.startCompute)

/-- COMPUTE_RESET_DEASSERT: ports that are DOWN renegotiate, their registers reset. -/
def execComputeResetDeassert (s : State) : Res :=
  let s1 : State := { s with boot := { s.boot with compute := false } }
  .next (if !s.boot.compute || s.computeIdle || !s.domOn 63 then s1
    else foldS (List.range 8) s1 fun t p => if t.fpSt p = 0 then (t.resetRegs [.ITK_FPSTAT] p).toNegotiate p else t)

end Sys2Proof.Machine
end

