-- ==== Sys2Proof/Machine/Pstate.lean ====
section
/-! DEFINITION. Sys2Proof/Machine/Pstate.lean: the power states (18_bringup_reset_lowpower.md R486 to R488), self-refresh of one pseudo-channel (10_rills.md
R304, R305), and the write of WARM, which depends on the power state (R481, R485). CUR: 0 ACTIVE, 1 IDLE, 2 PARK, 3 SR, 4 DEEP. -/
namespace Sys2Proof.Machine

/-- CUR of GLB_PSTATE. -/
def State.cur (s : State) : Nat := s.rd F.GLB_PSTATE_CUR 0

/-- s in a power state, recorded. (DEDUCED: notes/assumptions/35.md.) -/
def State.enterPs (s : State) (k : Nat) : State := (s.wr F.GLB_PSTATE_CUR 0 k).emit Ev.PSTATE_ENTER Un.inst k 0

/-- s with the exit from a power state recorded, under a cause. -/
def State.exitPs (s : State) (cause : Nat) : State := (s.wr F.GLB_PSTATE_WAKE 0 cause).emit Ev.PSTATE_EXIT Un.inst cause 0

/-! ## Entry into SR and DEEP (R487, R488) -/

/-- No command, transaction, request, bus-error stop or set-point change is in progress (R487). (DEDUCED: notes/assumptions/35.md.) -/
def State.quiesced (s : State) : Bool :=
  s.phase == 8 && s.power.shut == 0 && ((List.range 161).all fun n => s.spoutQuiet n)
    && ((List.range 64).all fun t => (s.slot t).st == .free || (s.slot t).st == .closed)
    && ((List.range 8).all fun p => (s.tagsOf p).isEmpty) && s.rd F.SLC_GERR_STOPPED 0 == 0 && !s.calHeld

/-- s with the entry proper begun: QUAL falls; for DEEP every owed fill write is carried out (R488). (DEDUCED: notes/assumptions/35.md.) -/
def State.beginEntry (s : State) (k : Nat) : State :=
  let s1 : State := ({ s with boot := { s.boot with entering := true } } : State).aqOff
  if k = 4 then s1.flushFills else s1

/-- s in SR, or on in DEEP: the bitmap home, what the basin and the tile stores held gone, every switched domain gated (R488, R490). (DEDUCED: notes/assumptions/35.md.) -/
def State.finishEntry (s : State) (k : Nat) : State :=
  let s1 : State := { s with boot := { s.boot with entry := none, entering := false } }
  if k = 3 then s1.enterPs 3
  else
    let s2 := s1.flushFills.saveBitmap.dropLines (fun _ => true) 3
    let s3 : State := { s2 with basin := { State.reset.basin with valid := s2.basin.valid }, tiles := [] }
    (foldS (List.range 66) s3 fun t d => t.gateDomain d).enterPs 4

/-- s with the entry asked for taken as far as it goes: begun once the instance is quiet, finished once every pseudo-channel is in self-refresh. (DEDUCED: notes/assumptions/35.md.) -/
def State.entryStep (s : State) : State :=
  match s.boot.entry with
  | none => s
  | some k =>
    if !s.boot.entering && !s.quiesced then s
    else
      let s1 := if s.boot.entering then s else s.beginEntry k
      if s1.allRefreshed then s1.finishEntry k else s1

/-- s with an entry given up (R487): PSTATE_BUSY, REQ back at the current state, and what waited released. -/
def State.giveUp (s : State) : State :=
  let req := if s.cur ≤ 1 then 0 else s.cur - 1
  let s1 := (s.glbRefuse 4).wr F.GLB_PSTATE_REQ 0 req
  (({ s1 with boot := { s1.boot with entry := none } } : State).takeWaits.lateRequests).serveWaits

/-- PSTATE_ENTRY_TIMEOUT (R487): 1 ms has passed since the write of REQ; an entry that has begun goes on. -/
def execPstateEntryTimeout (s : State) : Res :=
  if s.boot.entry.isNone || s.boot.entering then .next s
  else if s.quiesced then .next s.entryStep
  else .next s.giveUp

/-! ## Exits (R488) -/

/-- s with the exit from SR begun: the clocks run, and the pseudo-channels leave self-refresh under R305. (DEDUCED: notes/assumptions/35.md.) -/
def State.exitSr (s : State) (cause : Nat) : State :=
  let s1 := (s.wr F.GLB_PSTATE_CUR 0 0).exitPs cause
  let s2 : State := { s1 with boot := { s1.boot with leaving := true, recover := true } }
  let s3 := if s2.rd F.GLB_PSTATE_REQ 0 = 1 then s2.enterPs 2 else s2
  s3.tryReady

/-- s with the exit from DEEP begun: steps 6 to 12 of R481, with the domains woken as in phase 3. (DEDUCED: notes/assumptions/35.md.) -/
def State.exitDeep (s : State) (cause : Nat) : State :=
  let s1 := (s.exitPs cause).plumeAbort 7
  let s2 := s1.resetWarm 4
  let s3 : State := { s2 with boot := { s2.boot with leaving := true, lostData := false } }
  ((s3.wr F.GLB_PSTATE_WAKE 0 cause).setPhase 3).wakeAsked.afterWake

/-- s with PARK left for REQ 0. (DEDUCED: notes/assumptions/35.md.) -/
def State.leavePark (s : State) : State :=
  (foldS (List.range 64) ((s.wr F.GLB_PSTATE_CUR 0 0).exitPs 5) fun t n => if t.pcSt n = 2 then t.unparkPc n else t).serveWaits

/-- PSTATE_WAKE (R486): 1 a fabric beat, 2 a doorbell, 3 a cascade message, 4 a tide action; a tide action does not end SR or DEEP. -/
def execPstateWake (cause : Fin 6) (s : State) : Res :=
  let c := cause.val
  if s.phase ≠ 8 || s.power.shut ≠ 0 || s.boot.leaving || s.boot.entry.isSome || c = 0 || c = 5 then .next s
  else if s.cur = 1 then .next (s.leaveIdle c)
  else if s.cur = 3 && decide (c ≤ 3) then .next (s.exitSr c)
  else if s.cur = 4 && decide (c ≤ 3) then .next (s.exitDeep c)
  else .next s

/-- IDLE_ENTER (R486): IDLENS ns without a request queued or held, every spout stopped, and no slot in use. -/
def execIdleEnter (s : State) : Res :=
  let quiet := ((List.range 161).all fun n => s.spSt n == 0 || s.spSt n == 5 || s.spSt n == 6)
    && ((List.range 64).all fun t => (s.slot t).st == .free || (s.slot t).st == .closed)
    && ((List.range 8).all fun p => (s.tagsOf p).isEmpty && (Store.get [] s.intake.tagWait p).isEmpty)
    && (s.intake.held.all fun e => e.2.isEmpty)
    && ((List.range 64).all fun n => (s.pc n).queue.isEmpty && (s.pc n).waiting.isEmpty && (s.pc n).merges.isEmpty && (s.pc n).flights.isEmpty)
  if s.phase = 8 && s.power.shut == 0 && s.cur == 0 && s.rd F.GLB_PSTATE_REQ 0 == 0 && s.rd F.GLB_PSTATE_IDLENS 0 != 0 && s.boot.entry.isNone
      && !s.boot.leaving && quiet then .next (s.enterPs 1)
  else .next s

/-! ## Requests (R487, R499) -/

/-- s after a write of GLB_PSTATE. A state cannot be asked for while an entry or an exit is in progress, nor out of phase 8, nor in a trip. (DEDUCED: notes/assumptions/35.md.) -/
def State.wPstate (s : State) (v : Nat) : State :=
  let r := F.GLB_PSTATE_REQ.of (s.proposed .GLB_PSTATE 0 v false)
  if 4 ≤ r then s.glbRefuse 3
  else if s.boot.entry.isSome || s.boot.leaving || s.phase ≠ 8 || s.power.shut ≠ 0 then s.glbRefuse 4
  else
    let s1 := s.storeReg .GLB_PSTATE 0 v false
    match r with
    | 0 => if s.cur = 2 then s1.leavePark else if s.cur = 3 then s1.exitSr 5 else if s.cur = 4 then s1.exitDeep 5 else s1
    | 1 => if s.cur ≤ 1 then (s1.leaveIdle 5).enterPs 2 else s1
    | _ =>
      if s.cur ≤ r then
        let s2 := s1.leaveIdle 5
        ({ s2 with boot := { s2.boot with entry := some (r + 1) } } : State).entryStep
      else s1

/-- PSTATE_REQUEST. (DEDUCED: notes/assumptions/35.md.) -/
def execPstateRequest (v : Word) (s : State) : Res := .next (s.hostWrite .GLB_PSTATE 0 fun t => t.wPstate v.toNat)

/-! ## Self-refresh of one pseudo-channel (10_rills.md R304, R305) -/

/-- The sequence in hand asks for self-refresh: the drain of a warm reset, a trip, or an entry into SR or DEEP once the instance is quiet. -/
def State.wantsRefresh (s : State) : Bool :=
  s.phase == 9 || s.power.shut == 1 || (s.boot.entry.isSome && (s.boot.entering || s.quiesced))

/-- s with the sequence that waits for self-refresh taken on where every pseudo-channel is there. -/
def State.refreshed (s : State) : State :=
  if !s.allRefreshed then s
  else if s.power.shut = 1 then s.tripStep
  else if s.phase = 9 then s.restart 2
  else s.entryStep

/-- SELF_REFRESH_ENTER (R304). -/
def execSelfRefreshEnter (pc : Pc) (s : State) : Res :=
  let n := pc.val
  if s.wantsRefresh && (s.pcSt n == 1 || s.pcSt n == 2) then
    let s1 := match s.boot.entry with
      | some k => if s.boot.entering || s.phase == 9 || s.power.shut == 1 then s else s.beginEntry k
      | none => s
    .next (s1.intoSelfRefresh n).refreshed
  else .next s

/-- SELF_REFRESH_EXIT (R305): of a pseudo-channel in self-refresh or in a channel reset, unless a power state, a drain, a trip or a set-point change keeps it
there; the outcomes are those of the short sweeps of R467. -/
def execSelfRefreshExit (pc : Pc) (firstPass secondPass : Bool) (s : State) : Res :=
  let n := pc.val
  let st := s.pcSt n
  let kept := s.phase == 9 || s.phase == 3 || s.power.shut != 0 || s.boot.entry.isSome || decide (3 ≤ s.cur)
    || (s.flag F.CAL_STAT_SWITCH 0 && !s.cal.padLock)
  if (st = 3 ∨ st = 4) ∧ kept = false then
    let s1 := s.outOfSelfRefresh n firstPass secondPass
    let s2 := if s1.pcSt n = 3 ∨ s1.pcSt n = 4 then s1.wr F.PC_STAT_STATE n 0 else s1
    let s3 := if st = 4 then s2.emit Ev.CRESET_DONE (Un.pc n) 0 0 else s2
    .next s3.tryReady.serveWaits
  else .next s

/-! ## WARM (R481, R485) -/

/-- s after a write of GLB_RESET: WARM is refused but in phase 8; in SR the drain is already done; in DEEP the exit is the warm reset. (DEDUCED: notes/assumptions/35.md.) -/
def State.wReset (s : State) (v : Nat) : State :=
  if F.GLB_RESET_WARM.of v = 0 then s
  else if s.phase ≠ 8 || s.power.shut ≠ 0 then s.glbRefuse 1
  else if s.cur = 4 then s.exitDeep 0
  else if s.cur = 3 then (((s.emit Ev.WARM_RESET Un.inst 0 0).plumeAbort 7).flushFills.saveBitmap.exitPs 0).restart 2
  else s.startWarm

/-- WARM_RESET (R481): a write of 1 to WARM. (DESIGN CHOICE: notes/assumptions/34.md.) -/
def execWarmReset (s : State) : Res := .next (s.hostWrite .GLB_RESET 0 fun t => t.wReset 1)

end Sys2Proof.Machine
end

