-- ==== Sys2Proof/Machine/Clock.lean ====
section
/-! DEFINITION. Sys2Proof/Machine/Clock.lean: what passes with one cycle of the always-on clock: the wall counter advances
(15_time_and_tide.md R407, R409, R410). -/
namespace Sys2Proof.Machine

/-- The rate correction in force, in ppb (R409, R410): the slew for its second, no correction in FREE, and otherwise −yf. (DESIGN CHOICE: notes/assumptions/2.md.) -/
def State.rateNow (s : State) : Int :=
  if 10 * s.time.ticks < s.time.slewEnd then s.time.slew else if s.rd F.TIM_WSTAT_WSTATE 0 = 0 then 0 else -s.time.yf

/-- One always-on cycle of 10 ns. (DESIGN CHOICE: notes/assumptions/2.md.) -/
def State.clockCycle (s : State) : State :=
  let f := s.time.frac + 10 * s.rateNow
  let ns := (10 + f / 1000000000).toNat
  let s1 : State := { s with time := { s.time with ticks := s.time.ticks + 1, frac := f % 1000000000 } }
  s1.wr F.TIM_WALL_NS 0 (s.wall + ns)

end Sys2Proof.Machine
end

