-- ==== Sys2Proof/Machine/Top.lean ====
section
/-! DEFINITION. Sys2Proof/Machine/Top.lean: register accesses through the control port and by the font (00_scope.md R11 to R16; 04_zynsa_model.md R106, R110;
06_zynsa_encoding.md R184), the test wrapper (02_ports.md R70), and what happens at an always-on cycle. -/
namespace Sys2Proof.Machine

/-! ## Register accesses -/

/-- s after an accepted write of v by host software or the font to copy i of register r. (DEDUCED: notes/assumptions/33.md.) -/
def State.hostReg (s : State) (r : Reg) (i v : Nat) : State :=
  match r with
  | .GLB_RESET => s.wReset v
  | .GLB_PSTATE => s.wPstate v
  | .GLB_TIER => s.wTier v
  | .THM_TRIP => s.wThmTrip v
  | _ => s.wReg r i v true

/-- A task access reaches DBL_PTR of a page of a compute task only (04_zynsa_model.md R110). -/
def State.taskMay (s : State) (r : Option (Reg × Nat)) : Bool :=
  match r with
  | some (.DBL_PTR, n) => s.flag F.DBL_CTL_OWNER n
  | _ => false

/-- s after a write of `bytes` bytes of v at offset off to an array word (03_address_map.md R96): read-only words ignore it. -/
def State.winWrite (s : State) (x : WinWord) (off bytes v : Nat) : State :=
  let w := mergeHalf (s.winWord x) off bytes v
  match x with
  | .tie o => s.tieWrite o w
  | .key k n => s.keyWrite k n w
  | .mbox i n =>
    if n = 0 then s.mboxSubmit i w
    else ({ s with font := { s.font with mbox := Store.put 0 s.font.mbox (i * 8 + n) w } } : State).ok
  | _ => s.ok

/-- s after a write of `bytes` bytes of v at window offset off; DECERR changes nothing. (DEDUCED: notes/assumptions/33.md.) -/
def State.regWrite (s : State) (off bytes v : Nat) (host : Bool) : State :=
  let a := off - off % 8
  if !host && !s.taskMay (regAt a) then s.decerr
  else
    match regAt a, winAt a with
    | some (.DBL_PTR, n), _ =>
      if !sizeOk off bytes true then s.decerr
      else if off % 8 = 0 then
        match execTailWrite (Fin.ofNat 161 n) (BitVec.ofNat 64 v) bytes host s with
        | .next t => t
        | _ => s
      else if s.answers off && !s.pageDown off then s.ok else s.decerr
    | some (r, i), _ =>
      if s.answers off && !s.pageDown off && sizeOk off bytes (r.halves i) then (s.hostReg r i (mergeHalf (s.reg r i) off bytes v)).ok else s.decerr
    | none, some x => if s.answers off && sizeOk off bytes x.halves then s.winWrite x off bytes v else s.decerr
    | none, none => s.decerr

/-- REGISTER_WRITE (R11 to R16). -/
def execRegisterWrite (off : BitVec 24) (bytes : Nat) (host : Bool) (v : Word) (s : State) : Res :=
  .next (s.regWrite off.toNat bytes v.toNat host)

/-- REGISTER_READ (R11, R12, R15). (DEDUCED: notes/assumptions/33.md.) -/
def execRegisterRead (off : BitVec 24) (bytes : Nat) (host : Bool) (s : State) : Res :=
  let o := off.toNat
  if !host && !s.taskMay (regAt (o - o % 8)) then .next s.decerr
  else
    match s.winRead o bytes with
    | some (v, t) => .next (t.answer v)
    | none => .next s.decerr

/-- The window offset that a font register instruction names, or the fault it raises: ADDR_ALIGN, ADDR_SCOPE (06_zynsa_encoding.md R184), in this
order. (DEDUCED: notes/assumptions/48.md.) -/
def State.fontOff (s : State) (a : Nat) : Except Nat Nat :=
  if a % 8 ≠ 0 then .error 0x06
  else
    match s.decodeAddr a with
    | .regWin off => .ok off
    | _ => .error 0x07

/-- RDREG (R184). -/
def execRdreg (h : Hdr) (gd : BitVec 4) (aa : BitVec 3) (s : State) : Res :=
  let n := h.sp.val
  .next (s.issue1 h (.rdreg h gd aa) .prv { Use.none with names := [gd.toNat, 16 + aa.toNat] } fun t =>
    let a := (t.sp n).av aa.toNat
    match t.fontOff a with
    | .error c => t.fault n c a 0
    | .ok off =>
      match t.winRead off 8 with
      | none => t.fault n 0x08 a 0
      | some (v, u) => (u.updSp n fun x => x.setG gd.toNat v).done h)

/-- WRREG (R184; 09_transactions.md R269): the write has its effect once the instruction has issued; the control port's answer is not touched. (DEDUCED: notes/assumptions/33.md.) -/
def execWrreg (h : Hdr) (gs : BitVec 4) (aa : BitVec 3) (s : State) : Res :=
  let n := h.sp.val
  .next (s.issue1 h (.wrreg h gs aa) .prv { Use.none with names := [gs.toNat, 16 + aa.toNat] } fun t =>
    let x := t.sp n
    let a := x.av aa.toNat
    if x.tx.isSome then t.txBars n 0x0C
    else
      match t.fontOff a with
      | .error c => t.fault n c a 0
      | .ok off =>
        let u := (t.done h).regWrite off 8 (x.gv gs.toNat) true
        if u.ctl.decerr then t.fault n 0x08 a 0 else { u with ctl := t.ctl })

/-! ## The test wrapper (02_ports.md R70): 0 WS_BYPASS, 1 WS_IDREAD, 2 WS_EXTEST, 3 WS_INTEST -/

/-- s with a wrapper instruction selected: 0 WS_BYPASS, 1 WS_IDREAD, which shifts out GLB_ID on WSO, 2 WS_EXTEST, 3 WS_INTEST, whose boundary and
internal scan the manual does not give. (DESIGN CHOICE: notes/assumptions/34.md.) -/
def State.setWrapper (s : State) (k : Nat) : State :=
  { s with boot := { s.boot with wrapper := k, wso := if k = 1 then some (s.reg .GLB_ID 0) else none } }

/-- WRAPPER_INSTRUCTION_LOAD: while RST_N is deasserted, only WS_BYPASS and WS_IDREAD are accepted. (DESIGN CHOICE: notes/assumptions/34.md.) -/
def execWrapperInstructionLoad (insn : BitVec 8) (s : State) : Res :=
  let k := insn.toNat
  if k ≤ 1 then .next (s.setWrapper k)
  else if s.boot.rstN then .next ((s.setWrapper 0).emit Ev.WRAPPER_REFUSED Un.inst k 0)
  else .next (s.setWrapper (if k ≤ 3 then k else 0))

/-- WRSTN_ASSERT. -/
def execWrstnAssert (s : State) : Res := .next (s.setWrapper 0)

/-! ## The always-on cycle -/

/-- s after one always-on cycle: the wall counter, and what waited for the end of a power state. In phase 0 every unit is stopped (02_ports.md R56;
18_bringup_reset_lowpower.md R482). (DESIGN CHOICE: notes/assumptions/2.md.) -/
def State.idle (s : State) : State := if s.phase = 0 then s else s.clockCycle.serveWaits

end Sys2Proof.Machine
end

