-- ==== Sys2Proof/Machine/Run.lean ====
section
/-! DEFINITION. Sys2Proof/Machine/Run.lean: what lets a waiting instruction of a spout go on: the responses of its requests (04_zynsa_model.md R122,
R123), the grants of jet resources and staging slots (07_jet_engines.md R186, 08_sluice_channels.md R234), pauses and bursts (08_sluice_channels.md
R238 to R241). -/
namespace Sys2Proof.Machine

/-- The meaning of a spout's instruction; other commands answer s itself. -/
def instrMeaning (i : Instr) (s : State) : Res :=
  match i with
  | .nop h => Sys2Proof.Machine.execNop h s
  | .halt h => Sys2Proof.Machine.execHalt h s
  | .fence h mask => Sys2Proof.Machine.execFence h mask s
  | .sync h => Sys2Proof.Machine.execSync h s
  | .loop h imm len gs cs => Sys2Proof.Machine.execLoop h imm len gs cs s
  | .endloop h => Sys2Proof.Machine.execEndloop h s
  | .br h off => Sys2Proof.Machine.execBr h off s
  | .brA h aa => Sys2Proof.Machine.execBrA h aa s
  | .brC h f => Sys2Proof.Machine.execBrC h f s
  | .wait h f => Sys2Proof.Machine.execWait h f s
  | .signal h f => Sys2Proof.Machine.execSignal h f s
  | .ldi h rd imm => Sys2Proof.Machine.execLdi h rd imm s
  | .movr h rd rs imm => Sys2Proof.Machine.execMovr h rd rs imm s
  | .ldd h dd aa disp => Sys2Proof.Machine.execLdd h dd aa disp s
  | .ldr h rd aa disp => Sys2Proof.Machine.execLdr h rd aa disp s
  | .str h rs aa disp => Sys2Proof.Machine.execStr h rs aa disp s
  | .plog h pd pa pb tt => Sys2Proof.Machine.execPlog h pd pa pb tt s
  | .move h d => Sys2Proof.Machine.execMove h d s
  | .gather h d => Sys2Proof.Machine.execGather h d s
  | .scatter h d => Sys2Proof.Machine.execScatter h d s
  | .fill h d => Sys2Proof.Machine.execFill h d s
  | .cmp h d => Sys2Proof.Machine.execCmp h d s
  | .pack h d => Sys2Proof.Machine.execPack h d s
  | .cvt h d => Sys2Proof.Machine.execCvt h d s
  | .cvtPr h d => Sys2Proof.Machine.execCvtPr h d s
  | .vadd h d => Sys2Proof.Machine.execVadd h d s
  | .vsub h d => Sys2Proof.Machine.execVsub h d s
  | .vmul h d => Sys2Proof.Machine.execVmul h d s
  | .vfma h d => Sys2Proof.Machine.execVfma h d s
  | .vmin h d => Sys2Proof.Machine.execVmin h d s
  | .vmax h d => Sys2Proof.Machine.execVmax h d s
  | .vabs h d => Sys2Proof.Machine.execVabs h d s
  | .vneg h d => Sys2Proof.Machine.execVneg h d s
  | .vscale h d => Sys2Proof.Machine.execVscale h d s
  | .vand h d => Sys2Proof.Machine.execVand h d s
  | .vor h d => Sys2Proof.Machine.execVor h d s
  | .vxor h d => Sys2Proof.Machine.execVxor h d s
  | .vcmpeq h d => Sys2Proof.Machine.execVcmpeq h d s
  | .vcmplt h d => Sys2Proof.Machine.execVcmplt h d s
  | .rsum h d => Sys2Proof.Machine.execRsum h d s
  | .rsumsq h d => Sys2Proof.Machine.execRsumsq h d s
  | .rdot h d => Sys2Proof.Machine.execRdot h d s
  | .rmin h d => Sys2Proof.Machine.execRmin h d s
  | .rmax h d => Sys2Proof.Machine.execRmax h d s
  | .rargmin h d => Sys2Proof.Machine.execRargmin h d s
  | .rargmax h d => Sys2Proof.Machine.execRargmax h d s
  | .rmerge h d => Sys2Proof.Machine.execRmerge h d s
  | .gemv h d => Sys2Proof.Machine.execGemv h d s
  | .gemvt h d => Sys2Proof.Machine.execGemvt h d s
  | .mm h d => Sys2Proof.Machine.execMm h d s
  | .hprobe h d => Sys2Proof.Machine.execHprobe h d s
  | .hinsert h d => Sys2Proof.Machine.execHinsert h d s
  | .hdelete h d => Sys2Proof.Machine.execHdelete h d s
  | .isect h d => Sys2Proof.Machine.execIsect h d s
  | .topk h d => Sys2Proof.Machine.execTopk h d s
  | .amin h d => Sys2Proof.Machine.execAmin h d s
  | .amax h d => Sys2Proof.Machine.execAmax h d s
  | .aadd h d => Sys2Proof.Machine.execAadd h d s
  | .halo h d => Sys2Proof.Machine.execHalo h d s
  | .add h f => Sys2Proof.Machine.execAdd h f s
  | .sub h f => Sys2Proof.Machine.execSub h f s
  | .mul h f => Sys2Proof.Machine.execMul h f s
  | .mulhu h f => Sys2Proof.Machine.execMulhu h f s
  | .and h f => Sys2Proof.Machine.execAnd h f s
  | .or h f => Sys2Proof.Machine.execOr h f s
  | .xor h f => Sys2Proof.Machine.execXor h f s
  | .shl h f => Sys2Proof.Machine.execShl h f s
  | .shr h f => Sys2Proof.Machine.execShr h f s
  | .sra h f => Sys2Proof.Machine.execSra h f s
  | .min h f => Sys2Proof.Machine.execMin h f s
  | .max h f => Sys2Proof.Machine.execMax h f s
  | .minu h f => Sys2Proof.Machine.execMinu h f s
  | .maxu h f => Sys2Proof.Machine.execMaxu h f s
  | .faddD h f => Sys2Proof.Machine.execFaddD h f s
  | .fsubD h f => Sys2Proof.Machine.execFsubD h f s
  | .fmulD h f => Sys2Proof.Machine.execFmulD h f s
  | .fdivD h f => Sys2Proof.Machine.execFdivD h f s
  | .fsqrtD h f => Sys2Proof.Machine.execFsqrtD h f s
  | .cvtDi h f => Sys2Proof.Machine.execCvtDi h f s
  | .cvtId h f => Sys2Proof.Machine.execCvtId h f s
  | .tbegin h gd xi hoff => Sys2Proof.Machine.execTbegin h gd xi hoff s
  | .tcommit h gd => Sys2Proof.Machine.execTcommit h gd s
  | .tabort h code => Sys2Proof.Machine.execTabort h code s
  | .tstat h gd => Sys2Proof.Machine.execTstat h gd s
  | .dead h aa gl => Sys2Proof.Machine.execDead h aa gl s
  | .pin h aa gl => Sys2Proof.Machine.execPin h aa gl s
  | .unpin h aa gl => Sys2Proof.Machine.execUnpin h aa gl s
  | .prefetch h aa gl dst => Sys2Proof.Machine.execPrefetch h aa gl dst s
  | .svcCall h func ga gd => Sys2Proof.Machine.execSvcCall h func ga gd s
  | .svcPost h func ga => Sys2Proof.Machine.execSvcPost h func ga s
  | .rdreg h gd aa => Sys2Proof.Machine.execRdreg h gd aa s
  | .wrreg h gs aa => Sys2Proof.Machine.execWrreg h gs aa s
  | .seed h page gs => Sys2Proof.Machine.execSeed h page gs s
  | _ => .next s

/-- s with a waiting instruction of a spout tried again. (DEDUCED: notes/assumptions/48.md.) -/
def State.runInsn (s : State) (i : Instr) : State :=
  match instrMeaning i s with
  | .next t => t
  | _ => s

/-- s with the instruction of a spout that waits for data or for its words tried again. (DEDUCED: notes/assumptions/48.md.) -/
def State.retry (s : State) (n : Nat) : State :=
  match (s.sp n).waiting with
  | .deps i => s.runInsn i
  | .word h maj min =>
    match execIllegalOpcode h maj min s with
    | .next t => t
    | _ => s
  | _ => s

/-- The spout has a command that takes responses: RUN, WAIT or PAUSED. -/
def State.inCommand (s : State) (n : Nat) : Bool := [2, 3, 4].contains (s.spSt n)

/-! ## Responses -/

/-- s with the spout going on after a response: SYNC over, a data instruction with what has come, or an instruction that waited for it. (DEDUCED:
notes/assumptions/47.md.) -/
def State.goOn (s : State) (n : Nat) : State :=
  let s1 := s.trySync n
  match (if s1.spSt n = 2 then (s1.sp n).prog else none) with
  | some p => s1.runInsn p.insn
  | none => s1.retry n

/-- s with a failing response to request o of spout n (R123; 08_sluice_channels.md R244): POISON, a dead read, DECERR. A request of an aborted
transaction, and a read of a `PIN`, raise nothing (09_transactions.md R259). (DEDUCED: notes/assumptions/47.md.) -/
def State.badResponse (s : State) (n : Nat) (o : Out) (code : Nat) : State :=
  let s1 := s.updSp n fun y => y.drop o
  let pin := match o.need with
    | .pin _ => true
    | _ => false
  if code = 4 || pin then s1.goOn n
  else s.respFault n o (faultOf code) o.addr

/-- MEMORY_RESPONSE (R123): the response to request idx of a spout is taken; a failing one of a read that a data instruction waits for goes with the
data, to be met in element order (08_sluice_channels.md R220). One for a command that has ended changes nothing more. (DESIGN CHOICE:
notes/assumptions/12.md.) (DEDUCED: notes/assumptions/47.md.) -/
def execMemoryResponse (page : Sp) (idx : Nat) (s : State) : Res :=
  let n := page.val
  let x := s.sp n
  match x.outs.find? fun o => decide (o.idx = idx) && o.isData && o.need != .record with
  | none => .next s
  | some o =>
    match o.resp with
    | none => .next s
    | some (code, d) =>
      if n < 32 && (s.rd F.SLC_GSTOP_STOPMASK 0).testBit n && !o.write then .next s
      else if !s.inCommand n || !([none, some 0].contains x.finish) then .next (s.updSp n fun y => y.drop o)
      else if (code = 1 || code = 2) && !o.write && s.notAlone n then .next (s.busRead n o)
      else if o.need = .poll && code = 0 then .next ((s.updSp n fun y => y.drop o).polled n d)
      else if code = 0 || o.isBulk then .next ((s.updSp n fun y => (y.drop o).deliver o code d).goOn n)
      else .next (s.badResponse n o code)

/-- PROGRAM_LINE_RETURN (R122): the line of an address is held and the instruction that waited for it goes on, or its fetch fails with FETCH_ERROR. -/
def execProgramLineReturn (page : Sp) (addr : PkgAddr) (s : State) : Res :=
  let n := page.val
  let a := addr.toNat / 256 * 256
  let x := s.sp n
  match x.outs.find? fun o => o.need == .line a with
  | none => .next s
  | some o =>
    match o.resp with
    | none => .next s
    | some (code, d) =>
      if n < 32 && (s.rd F.SLC_GSTOP_STOPMASK 0).testBit n then .next s
      else
        let s1 := s.updSp n fun y => y.drop o
        if !s.inCommand n || x.finish.isSome then .next s1
        else if code = 0 then .next ((s1.updSp n fun y => y.hold a d).goOn n)
        else if (code = 1 || code = 2) && s.notAlone n then .next (s.busRead n o)
        else .next (s1.fault n 0x0B a 0)

/-! ## Grants -/

/-- The units of a jet that an instruction of a spout waits for. -/
def JetState.wanted (j : JetState) (w : Nat × Instr) : List Nat := (List.range 5).filter fun u => (Store.get [] j.waiting u).contains w

/-- RESOURCE_GRANT (R186): the oldest instruction that waits for a unit of jet e starts where every unit it needs is free and it is the oldest that
waits for each; it takes them together. (DEDUCED: notes/assumptions/47.md.) -/
def execResourceGrant (e : Jet) (unit : Fin 5) (s : State) : Res :=
  let j := s.jet e.val
  match (Store.get [] j.waiting unit.val).head? with
  | none => .next s
  | some w =>
    let us := j.wanted w
    let s1 := (s.updJet e.val fun j =>
      { j with holder := us.foldl (fun h u => Store.put none h u (some w.1)) j.holder,
               waiting := us.foldl (fun m u => Store.put [] m u ((Store.get [] m u).drop 1)) j.waiting }).updSp w.1 fun x => { x with waiting := .none }
    if us.all (fun u => (Store.get [] j.waiting u).head? == some w) && j.freeFor w.1 us && s1.issuable w.1 false then .next (s1.runInsn w.2) else .next s

/-- STAGING_SLOT_GRANT (R234): the first that asked takes the free slot, and stages its source; a pausing channel keeps the slot for later. (DEDUCED: notes/assumptions/47.md.) -/
def execStagingSlotGrant (s : State) : Res :=
  match s.sluice.waiters, s.freeStaging with
  | n :: rest, some k =>
    let s1 : State := { s with sluice := { s.sluice with waiters := rest } }
    .next ((s1.takeStaging n k).startStaged n)
  | _, _ => .next s

/-! ## Pauses and bursts -/

/-- A channel has nothing that must end before it pauses (R238): no instruction but a MOV-class one whose reads have all returned, or one that has not
issued, its words still on their way. (DEDUCED: notes/assumptions/47.md.) -/
def State.canPause (s : State) (c : Nat) : Bool :=
  let x := s.sp c
  s.spSt c == 2 && x.finish.isNone && !s.sluice.draining && x.settled && !(x.outs.any Out.isBulk) &&
    (match x.waiting with
      | .none | .word _ _ _ => true
      | .grant i | .deps i => (s.movOf i).isSome || !x.holds x.pc
      | _ => false)

/-- PAUSE_COMPLETE (R238): what can be written is written; once every issued write is accepted the channel enters PAUSED, and data of elements not yet
written is discarded. (DEDUCED: notes/assumptions/47.md.) -/
def execPauseComplete (c : Chan) (s0 : State) : Res :=
  let n := c.val
  if s0.flag F.SLC_CTL_PAUSE n && s0.canPause n then
    let s := s0.contMov n false
    if s.canPause n then
      let s1 := s.updSp n fun x => { x with prog := x.prog.map fun p => { p with fetched := [] } }
      let byReq := s.paced n && (s.sp n).prog.isSome && !(s.chan n).seenReq
      .next ((s1.wr F.SLC_STAT_PCAUSE n (if byReq then 3 else 1)).setSpSt n 4)
    else .next s
  else .next s0

/-- PAUSE_RELEASE (R239): neither cause holds and the channel returns to RUN, at its first incomplete element, or at the handler of a transaction that
was aborted meanwhile (09_transactions.md R259). (DEDUCED: notes/assumptions/47.md.) -/
def execPauseRelease (c : Chan) (s : State) : Res :=
  let n := c.val
  if s.spSt n != 4 || s.flag F.SLC_CTL_PAUSE n || (s.paced n && !(s.chan n).seenReq) then .next s
  else
    let s1 := (s.wr F.SLC_STAT_PCAUSE n 0).setSpSt n 2
    let x := s.sp n
    if x.txAbort.isSome then .next ((s1.releaseUnits n).boundary n)
    else
      match x.waiting, x.prog with
      | .grant _, _ => .next (s1.startStaged n)
      | _, some _ => .next ((s1.updSp n fun y => { y with waiting := .none }).contMov n true)
      | _, none => .next (s1.goOn n)

/-- BURST_SAMPLE (R241): after the last write of a burst the channel samples REQ and starts the next burst or pauses. (DESIGN CHOICE: notes/assumptions/16.md.) -/
def execBurstSample (c : Chan) (s : State) : Res :=
  let n := c.val
  let x := s.sp n
  match x.prog with
  | some p =>
    if s.spSt n == 2 && s.paced n && !s.flag F.SLC_CTL_PAUSE n && !s.sluice.draining && x.waiting == .none && x.finish.isNone && p.closed.isNone
        && p.elems == p.limit && x.settled && !(x.outs.any Out.isBulk) then .next (s.contMov n true)
    else .next s
  | none => .next s

end Sys2Proof.Machine
end

