-- ==== Sys2Proof/Machine/Dispatch.lean ====
section
/-! DEFINITION. Sys2Proof/Machine/Dispatch.lean: one arm for each command; an arm is one call of that command's meaning. -/
namespace Sys2Proof.Machine

/-- The effect of command i on everything but the queue. -/
def exec (i : Instr) (s : State) : Host.Outcome State Fault Refusal :=
  match i with
  | .registerWrite off bytes host v => Sys2Proof.Machine.execRegisterWrite off bytes host v s
  | .powerOnReset pins => Sys2Proof.Machine.execPowerOnReset pins s
  | .coldReset lowNs => Sys2Proof.Machine.execColdReset lowNs s
  | .refclkLoss => Sys2Proof.Machine.execRefclkLoss s
  | .refclkLock => Sys2Proof.Machine.execRefclkLock s
  | .startTimeout => Sys2Proof.Machine.execStartTimeout s
  | .bringUpTestDone pc f => Sys2Proof.Machine.execBringUpTestDone pc f s
  | .privilegedFillDone => Sys2Proof.Machine.execPrivilegedFillDone s
  | .warmReset => Sys2Proof.Machine.execWarmReset s
  | .thermalRestart => Sys2Proof.Machine.execThermalRestart s
  | .restartRelease => Sys2Proof.Machine.execRestartRelease s
  | .computeResetAssert => Sys2Proof.Machine.execComputeResetAssert s
  | .quiesceDrainDone p => Sys2Proof.Machine.execQuiesceDrainDone p s
  | .computeResetDeassert => Sys2Proof.Machine.execComputeResetDeassert s
  | .negotiationComplete p => Sys2Proof.Machine.execNegotiationComplete p s
  | .negotiationRetry p => Sys2Proof.Machine.execNegotiationRetry p s
  | .fabricRequest p host b => Sys2Proof.Machine.execFabricRequest p host b s
  | .intakeAdmit src => Sys2Proof.Machine.execIntakeAdmit src s
  | .orderingPointAccept pc => Sys2Proof.Machine.execOrderingPointAccept pc s
  | .rillCommandIssue pc ready => Sys2Proof.Machine.execRillCommandIssue pc ready s
  | .agePromote pc entry => Sys2Proof.Machine.execAgePromote pc entry s
  | .readDataReturn pc flips => Sys2Proof.Machine.execReadDataReturn pc flips s
  | .mergeReadReturn pc flips => Sys2Proof.Machine.execMergeReadReturn pc flips s
  | .verifyReadReturn pc flips => Sys2Proof.Machine.execVerifyReadReturn pc flips s
  | .scrubPage pc flips => Sys2Proof.Machine.execScrubPage pc flips s
  | .ceWindowEnd pc => Sys2Proof.Machine.execCeWindowEnd pc s
  | .refreshAccrual pc bank => Sys2Proof.Machine.execRefreshAccrual pc bank s
  | .stackTempRead reading => Sys2Proof.Machine.execStackTempRead reading s
  | .deferExpire => Sys2Proof.Machine.execDeferExpire s
  | .spareHandover m => Sys2Proof.Machine.execSpareHandover m s
  | .rillCheckMismatch pc => Sys2Proof.Machine.execRillCheckMismatch pc s
  | .parkEnter pc => Sys2Proof.Machine.execParkEnter pc s
  | .selfRefreshEnter pc => Sys2Proof.Machine.execSelfRefreshEnter pc s
  | .selfRefreshExit pc firstPass secondPass => Sys2Proof.Machine.execSelfRefreshExit pc firstPass secondPass s
  | .creset pc => Sys2Proof.Machine.execCreset pc s
  | .schTmgWrite idx f v => Sys2Proof.Machine.execSchTmgWrite idx f v s
  | .pcRetire pc => Sys2Proof.Machine.execPcRetire pc s
  | .remap => Sys2Proof.Machine.execRemap s
  | .pregWrite idx v => Sys2Proof.Machine.execPregWrite idx v s
  | .bcwWrite idx v => Sys2Proof.Machine.execBcwWrite idx v s
  | .itkReqWrite j v => Sys2Proof.Machine.execItkReqWrite j v s
  | .intakeRefill => Sys2Proof.Machine.execIntakeRefill s
  | .pinWindowEnd => Sys2Proof.Machine.execPinWindowEnd s
  | .deadclr => Sys2Proof.Machine.execDeadclr s
  | .tailWrite page v bytes host => Sys2Proof.Machine.execTailWrite page v bytes host s
  | .dblRingWrite page v => Sys2Proof.Machine.execDblRingWrite page v s
  | .spoutEnable page v => Sys2Proof.Machine.execSpoutEnable page v s
  | .spoutStop page => Sys2Proof.Machine.execSpoutStop page s
  | .spoutResume page => Sys2Proof.Machine.execSpoutResume page s
  | .commandFetch page => Sys2Proof.Machine.execCommandFetch page s
  | .commandEntryReturn page => Sys2Proof.Machine.execCommandEntryReturn page s
  | .programLineReturn page addr => Sys2Proof.Machine.execProgramLineReturn page addr s
  | .memoryResponse page idx => Sys2Proof.Machine.execMemoryResponse page idx s
  | .commandComplete page => Sys2Proof.Machine.execCommandComplete page s
  | .resourceGrant e unit => Sys2Proof.Machine.execResourceGrant e unit s
  | .nop h => Sys2Proof.Machine.execNop h s
  | .halt h => Sys2Proof.Machine.execHalt h s
  | .fence h mask => Sys2Proof.Machine.execFence h mask s
  | .sync h => Sys2Proof.Machine.execSync h s
  | .syncTimeout page => Sys2Proof.Machine.execSyncTimeout page s
  | .loop h imm len gs cs => Sys2Proof.Machine.execLoop h imm len gs cs s
  | .endloop h => Sys2Proof.Machine.execEndloop h s
  | .br h off => Sys2Proof.Machine.execBr h off s
  | .brA h aa => Sys2Proof.Machine.execBrA h aa s
  | .brC h f => Sys2Proof.Machine.execBrC h f s
  | .wait h f => Sys2Proof.Machine.execWait h f s
  | .waitEvaluate page => Sys2Proof.Machine.execWaitEvaluate page s
  | .waitTimeout page => Sys2Proof.Machine.execWaitTimeout page s
  | .signal h f => Sys2Proof.Machine.execSignal h f s
  | .ldi h rd imm => Sys2Proof.Machine.execLdi h rd imm s
  | .movr h rd rs imm => Sys2Proof.Machine.execMovr h rd rs imm s
  | .ldd h dd aa disp => Sys2Proof.Machine.execLdd h dd aa disp s
  | .ldr h rd aa disp => Sys2Proof.Machine.execLdr h rd aa disp s
  | .str h rs aa disp => Sys2Proof.Machine.execStr h rs aa disp s
  | .plog h pd pa pb tt => Sys2Proof.Machine.execPlog h pd pa pb tt s
  | .move h d => Sys2Proof.Machine.execMove h d s
  | .gather h d => Sys2Proof.Machine.execGather h d s
  | .scatter h d => Sys2Proof.Machine.execScatter h d s
  | .fill h d => Sys2Proof.Machine.execFill h d s
  | .cmp h d => Sys2Proof.Machine.execCmp h d s
  | .pack h d => Sys2Proof.Machine.execPack h d s
  | .stagingSlotGrant => Sys2Proof.Machine.execStagingSlotGrant s
  | .cvt h d => Sys2Proof.Machine.execCvt h d s
  | .cvtPr h d => Sys2Proof.Machine.execCvtPr h d s
  | .vadd h d => Sys2Proof.Machine.execVadd h d s
  | .vsub h d => Sys2Proof.Machine.execVsub h d s
  | .vmul h d => Sys2Proof.Machine.execVmul h d s
  | .vfma h d => Sys2Proof.Machine.execVfma h d s
  | .vmin h d => Sys2Proof.Machine.execVmin h d s
  | .vmax h d => Sys2Proof.Machine.execVmax h d s
  | .vabs h d => Sys2Proof.Machine.execVabs h d s
  | .vneg h d => Sys2Proof.Machine.execVneg h d s
  | .vscale h d => Sys2Proof.Machine.execVscale h d s
  | .vand h d => Sys2Proof.Machine.execVand h d s
  | .vor h d => Sys2Proof.Machine.execVor h d s
  | .vxor h d => Sys2Proof.Machine.execVxor h d s
  | .vcmpeq h d => Sys2Proof.Machine.execVcmpeq h d s
  | .vcmplt h d => Sys2Proof.Machine.execVcmplt h d s
  | .rsum h d => Sys2Proof.Machine.execRsum h d s
  | .rsumsq h d => Sys2Proof.Machine.execRsumsq h d s
  | .rdot h d => Sys2Proof.Machine.execRdot h d s
  | .rmin h d => Sys2Proof.Machine.execRmin h d s
  | .rmax h d => Sys2Proof.Machine.execRmax h d s
  | .rargmin h d => Sys2Proof.Machine.execRargmin h d s
  | .rargmax h d => Sys2Proof.Machine.execRargmax h d s
  | .rmerge h d => Sys2Proof.Machine.execRmerge h d s
  | .gemv h d => Sys2Proof.Machine.execGemv h d s
  | .gemvt h d => Sys2Proof.Machine.execGemvt h d s
  | .mm h d => Sys2Proof.Machine.execMm h d s
  | .hprobe h d => Sys2Proof.Machine.execHprobe h d s
  | .hinsert h d => Sys2Proof.Machine.execHinsert h d s
  | .hdelete h d => Sys2Proof.Machine.execHdelete h d s
  | .isect h d => Sys2Proof.Machine.execIsect h d s
  | .topk h d => Sys2Proof.Machine.execTopk h d s
  | .amin h d => Sys2Proof.Machine.execAmin h d s
  | .amax h d => Sys2Proof.Machine.execAmax h d s
  | .aadd h d => Sys2Proof.Machine.execAadd h d s
  | .halo h d => Sys2Proof.Machine.execHalo h d s
  | .add h f => Sys2Proof.Machine.execAdd h f s
  | .sub h f => Sys2Proof.Machine.execSub h f s
  | .mul h f => Sys2Proof.Machine.execMul h f s
  | .mulhu h f => Sys2Proof.Machine.execMulhu h f s
  | .and h f => Sys2Proof.Machine.execAnd h f s
  | .or h f => Sys2Proof.Machine.execOr h f s
  | .xor h f => Sys2Proof.Machine.execXor h f s
  | .shl h f => Sys2Proof.Machine.execShl h f s
  | .shr h f => Sys2Proof.Machine.execShr h f s
  | .sra h f => Sys2Proof.Machine.execSra h f s
  | .min h f => Sys2Proof.Machine.execMin h f s
  | .max h f => Sys2Proof.Machine.execMax h f s
  | .minu h f => Sys2Proof.Machine.execMinu h f s
  | .maxu h f => Sys2Proof.Machine.execMaxu h f s
  | .faddD h f => Sys2Proof.Machine.execFaddD h f s
  | .fsubD h f => Sys2Proof.Machine.execFsubD h f s
  | .fmulD h f => Sys2Proof.Machine.execFmulD h f s
  | .fdivD h f => Sys2Proof.Machine.execFdivD h f s
  | .fsqrtD h f => Sys2Proof.Machine.execFsqrtD h f s
  | .cvtDi h f => Sys2Proof.Machine.execCvtDi h f s
  | .cvtId h f => Sys2Proof.Machine.execCvtId h f s
  | .tbegin h gd xi hoff => Sys2Proof.Machine.execTbegin h gd xi hoff s
  | .tcommit h gd => Sys2Proof.Machine.execTcommit h gd s
  | .tabort h code => Sys2Proof.Machine.execTabort h code s
  | .tstat h gd => Sys2Proof.Machine.execTstat h gd s
  | .logApplyDone t => Sys2Proof.Machine.execLogApplyDone t s
  | .slotFreeTimer t => Sys2Proof.Machine.execSlotFreeTimer t s
  | .txLifetimeExpire t => Sys2Proof.Machine.execTxLifetimeExpire t s
  | .prepareRecordDone x => Sys2Proof.Machine.execPrepareRecordDone x s
  | .voteTimeout x => Sys2Proof.Machine.execVoteTimeout x s
  | .indoubtQuery x => Sys2Proof.Machine.execIndoubtQuery x s
  | .txIndoubt x => Sys2Proof.Machine.execTxIndoubt x s
  | .txuRecbaseWrite v => Sys2Proof.Machine.execTxuRecbaseWrite v s
  | .xtOpen c sp label valid => Sys2Proof.Machine.execXtOpen c sp label valid s
  | .xtGrant c x owner sp label stamp => Sys2Proof.Machine.execXtGrant c x owner sp label stamp s
  | .xtReady c x => Sys2Proof.Machine.execXtReady c x s
  | .xtDeny c sp code => Sys2Proof.Machine.execXtDeny c sp code s
  | .xtCommitreq c x => Sys2Proof.Machine.execXtCommitreq c x s
  | .xtPrepare c x => Sys2Proof.Machine.execXtPrepare c x s
  | .xtVote c x yes empty word => Sys2Proof.Machine.execXtVote c x yes empty word s
  | .xtCommit c x => Sys2Proof.Machine.execXtCommit c x s
  | .xtAbort c x word => Sys2Proof.Machine.execXtAbort c x word s
  | .xtAbortreq c x word => Sys2Proof.Machine.execXtAbortreq c x word s
  | .xtDone c x => Sys2Proof.Machine.execXtDone c x s
  | .xtEpoch c => Sys2Proof.Machine.execXtEpoch c s
  | .xtQuery c x answer state => Sys2Proof.Machine.execXtQuery c x answer state s
  | .dead h aa gl => Sys2Proof.Machine.execDead h aa gl s
  | .pin h aa gl => Sys2Proof.Machine.execPin h aa gl s
  | .pinFillDone page => Sys2Proof.Machine.execPinFillDone page s
  | .unpin h aa gl => Sys2Proof.Machine.execUnpin h aa gl s
  | .prefetch h aa gl dst => Sys2Proof.Machine.execPrefetch h aa gl dst s
  | .svcCall h func ga gd => Sys2Proof.Machine.execSvcCall h func ga gd s
  | .svcPost h func ga => Sys2Proof.Machine.execSvcPost h func ga s
  | .svcAnswer => Sys2Proof.Machine.execSvcAnswer s
  | .rdreg h gd aa => Sys2Proof.Machine.execRdreg h gd aa s
  | .wrreg h gs aa => Sys2Proof.Machine.execWrreg h gs aa s
  | .seed h page gs => Sys2Proof.Machine.execSeed h page gs s
  | .jetEngineReset e => Sys2Proof.Machine.execJetEngineReset e s
  | .jetResetDone e => Sys2Proof.Machine.execJetResetDone e s
  | .slcEngineReset c => Sys2Proof.Machine.execSlcEngineReset c s
  | .slcResetDone c => Sys2Proof.Machine.execSlcResetDone c s
  | .slcPause c v => Sys2Proof.Machine.execSlcPause c v s
  | .pauseComplete c => Sys2Proof.Machine.execPauseComplete c s
  | .pauseRelease c => Sys2Proof.Machine.execPauseRelease c s
  | .slcPreqWrite c req => Sys2Proof.Machine.execSlcPreqWrite c req s
  | .burstSample c => Sys2Proof.Machine.execBurstSample c s
  | .busError addr check => Sys2Proof.Machine.execBusError addr check s
  | .sluiceReadTimeout addr => Sys2Proof.Machine.execSluiceReadTimeout addr s
  | .busStopDrainDone => Sys2Proof.Machine.execBusStopDrainDone s
  | .slcCont c => Sys2Proof.Machine.execSlcCont c s
  | .slcAbandon c => Sys2Proof.Machine.execSlcAbandon c s
  | .slcCfgWrite c v => Sys2Proof.Machine.execSlcCfgWrite c v s
  | .linkPowerUp p => Sys2Proof.Machine.execLinkPowerUp p s
  | .detectDone p sense => Sys2Proof.Machine.execDetectDone p sense s
  | .detectRetry p sense => Sys2Proof.Machine.execDetectRetry p sense s
  | .loopMeasureDone errsE errsW => Sys2Proof.Machine.execLoopMeasureDone errsE errsW s
  | .qualifyWindowPass p => Sys2Proof.Machine.execQualifyWindowPass p s
  | .uncorrectableCodeword p => Sys2Proof.Machine.execUncorrectableCodeword p s
  | .requal => Sys2Proof.Machine.execRequal s
  | .trainingDone p errs partner node nonce => Sys2Proof.Machine.execTrainingDone p errs partner node nonce s
  | .trainTimeout p => Sys2Proof.Machine.execTrainTimeout p s
  | .failedRetry p => Sys2Proof.Machine.execFailedRetry p s
  | .linkLoss p => Sys2Proof.Machine.execLinkLoss p s
  | .laneDegrade p l => Sys2Proof.Machine.execLaneDegrade p l s
  | .laneRetry p passed => Sys2Proof.Machine.execLaneRetry p passed s
  | .aqdRetrain p => Sys2Proof.Machine.execAqdRetrain p s
  | .aqdDisable p v => Sys2Proof.Machine.execAqdDisable p v s
  | .frameRd p f => Sys2Proof.Machine.execFrameRd p f s
  | .frameWr p f => Sys2Proof.Machine.execFrameWr p f s
  | .frameWrp p f => Sys2Proof.Machine.execFrameWrp p f s
  | .frameAtom p f => Sys2Proof.Machine.execFrameAtom p f s
  | .frameResp p f => Sys2Proof.Machine.execFrameResp p f s
  | .frameRsf p f => Sys2Proof.Machine.execFrameRsf p f s
  | .frameLctl p f => Sys2Proof.Machine.execFrameLctl p f s
  | .frameTrn p f => Sys2Proof.Machine.execFrameTrn p f s
  | .replay p => Sys2Proof.Machine.execReplay p s
  | .lackTimer p => Sys2Proof.Machine.execLackTimer p s
  | .rsfSend => Sys2Proof.Machine.execRsfSend s
  | .routeAgeOut node p => Sys2Proof.Machine.execRouteAgeOut node p s
  | .remoteTimeout rtag => Sys2Proof.Machine.execRemoteTimeout rtag s
  | .nodeWrite v => Sys2Proof.Machine.execNodeWrite v s
  | .weirRefill p => Sys2Proof.Machine.execWeirRefill p s
  | .weirFrameSelect p => Sys2Proof.Machine.execWeirFrameSelect p s
  | .weiQWrite p q v => Sys2Proof.Machine.execWeiQWrite p q v s
  | .weiClsqWrite p v => Sys2Proof.Machine.execWeiClsqWrite p v s
  | .weiGateWrite p v => Sys2Proof.Machine.execWeiGateWrite p v s
  | .ppsEdge sub highNs => Sys2Proof.Machine.execPpsEdge sub highNs s
  | .wallHoldover => Sys2Proof.Machine.execWallHoldover s
  | .timWallWrite v => Sys2Proof.Machine.execTimWallWrite v s
  | .tideValueAccept v => Sys2Proof.Machine.execTideValueAccept v s
  | .tideStall => Sys2Proof.Machine.execTideStall s
  | .tideHoldoverStep => Sys2Proof.Machine.execTideHoldoverStep s
  | .rebase => Sys2Proof.Machine.execRebase s
  | .timEvt0Write idx v => Sys2Proof.Machine.execTimEvt0Write idx v s
  | .weirGate arg => Sys2Proof.Machine.execWeirGate arg s
  | .deferOpen => Sys2Proof.Machine.execDeferOpen s
  | .deferClose => Sys2Proof.Machine.execDeferClose s
  | .scrubOpen => Sys2Proof.Machine.execScrubOpen s
  | .scrubClose => Sys2Proof.Machine.execScrubClose s
  | .calOpen => Sys2Proof.Machine.execCalOpen s
  | .calClose => Sys2Proof.Machine.execCalClose s
  | .censusSnap arg => Sys2Proof.Machine.execCensusSnap arg s
  | .overlay arg => Sys2Proof.Machine.execOverlay arg s
  | .plumeGo arg => Sys2Proof.Machine.execPlumeGo arg s
  | .domainOffRequest d v => Sys2Proof.Machine.execDomainOffRequest d v s
  | .domainOnRequest d v => Sys2Proof.Machine.execDomainOnRequest d v s
  | .wakeRampStart d => Sys2Proof.Machine.execWakeRampStart d s
  | .wakeRampEnd d voltageOk => Sys2Proof.Machine.execWakeRampEnd d voltageOk s
  | .telemetryFrame r f => Sys2Proof.Machine.execTelemetryFrame r f s
  | .telemetryMissing r => Sys2Proof.Machine.execTelemetryMissing r s
  | .capLevelDown t => Sys2Proof.Machine.execCapLevelDown t s
  | .darkenStart t => Sys2Proof.Machine.execDarkenStart t s
  | .domainDarkDone d => Sys2Proof.Machine.execDomainDarkDone d s
  | .reenable r => Sys2Proof.Machine.execReenable r s
  | .setmvWrite t v => Sys2Proof.Machine.execSetmvWrite t v s
  | .sensorSample raw => Sys2Proof.Machine.execSensorSample raw s
  | .thermalLevelTimer clk => Sys2Proof.Machine.execThermalLevelTimer clk s
  | .powerCapStep pavg => Sys2Proof.Machine.execPowerCapStep pavg s
  | .tripGateTimeout => Sys2Proof.Machine.execTripGateTimeout s
  | .sensorReturn n => Sys2Proof.Machine.execSensorReturn n s
  | .calMeasurementDone leg refv refz codes => Sys2Proof.Machine.execCalMeasurementDone leg refv refz codes s
  | .trimApply leg => Sys2Proof.Machine.execTrimApply leg s
  | .trainingPointDone leg lanes => Sys2Proof.Machine.execTrainingPointDone leg lanes s
  | .sweepDone leg => Sys2Proof.Machine.execSweepDone leg s
  | .driftCheckDue pc => Sys2Proof.Machine.execDriftCheckDue pc s
  | .driftCheckSkip pc => Sys2Proof.Machine.execDriftCheckSkip pc s
  | .zqRecalDue leg => Sys2Proof.Machine.execZqRecalDue leg s
  | .calWindowWaitExpire leg => Sys2Proof.Machine.execCalWindowWaitExpire leg s
  | .calStarved pc => Sys2Proof.Machine.execCalStarved pc s
  | .recal v => Sys2Proof.Machine.execRecal v s
  | .retrain v => Sys2Proof.Machine.execRetrain v s
  | .fspRateWrite v => Sys2Proof.Machine.execFspRateWrite v s
  | .fspReq v => Sys2Proof.Machine.execFspReq v s
  | .fspHoldEnd => Sys2Proof.Machine.execFspHoldEnd s
  | .fspPadLock => Sys2Proof.Machine.execFspPadLock s
  | .pstateRequest v => Sys2Proof.Machine.execPstateRequest v s
  | .pstateEntryTimeout => Sys2Proof.Machine.execPstateEntryTimeout s
  | .idleEnter => Sys2Proof.Machine.execIdleEnter s
  | .pstateWake cause => Sys2Proof.Machine.execPstateWake cause s
  | .tierStoreWrite off v => Sys2Proof.Machine.execTierStoreWrite off v s
  | .tierApply => Sys2Proof.Machine.execTierApply s
  | .swreq => Sys2Proof.Machine.execSwreq s
  | .hello c m => Sys2Proof.Machine.execHello c m s
  | .helloResend => Sys2Proof.Machine.execHelloResend s
  | .electionTimeout => Sys2Proof.Machine.execElectionTimeout s
  | .role c mgr epoch members => Sys2Proof.Machine.execRole c mgr epoch members s
  | .start c phase => Sys2Proof.Machine.execStart c phase s
  | .startSend => Sys2Proof.Machine.execStartSend s
  | .time c wall wstate => Sys2Proof.Machine.execTime c wall wstate s
  | .timeSend => Sys2Proof.Machine.execTimeSend s
  | .casLinkDown => Sys2Proof.Machine.execCasLinkDown s
  | .mgrLost => Sys2Proof.Machine.execMgrLost s
  | .setcfg c item v => Sys2Proof.Machine.execSetcfg c item v s
  | .telem c pavg ladder maxt levels => Sys2Proof.Machine.execTelem c pavg ladder maxt levels s
  | .telemSend => Sys2Proof.Machine.execTelemSend s
  | .capAllocate => Sys2Proof.Machine.execCapAllocate s
  | .ringrpt c rstate size => Sys2Proof.Machine.execRingrpt c rstate size s
  | .poolAlloc sexp => Sys2Proof.Machine.execPoolAlloc sexp s
  | .poolAddref handle => Sys2Proof.Machine.execPoolAddref handle s
  | .poolRelease handle => Sys2Proof.Machine.execPoolRelease handle s
  | .poolPublish handle => Sys2Proof.Machine.execPoolPublish handle s
  | .poolLookup hash sexp => Sys2Proof.Machine.execPoolLookup hash sexp s
  | .poolEvict handle node acked => Sys2Proof.Machine.execPoolEvict handle node acked s
  | .poolFetch handle data => Sys2Proof.Machine.execPoolFetch handle data s
  | .poolAddr handle => Sys2Proof.Machine.execPoolAddr handle s
  | .censusSnapCall mask => Sys2Proof.Machine.execCensusSnapCall mask s
  | .mailboxSubmit slot word => Sys2Proof.Machine.execMailboxSubmit slot word s
  | .bmcMessage words => Sys2Proof.Machine.execBmcMessage words s
  | .status => Sys2Proof.Machine.execStatus s
  | .assayRepair pc repairs sweepOk => Sys2Proof.Machine.execAssayRepair pc repairs sweepOk s
  | .assayTest pc f => Sys2Proof.Machine.execAssayTest pc f s
  | .svcConfigRead v => Sys2Proof.Machine.execSvcConfigRead v s
  | .keySlotWrite slot word v => Sys2Proof.Machine.execKeySlotWrite slot word v s
  | .fwLoad v => Sys2Proof.Machine.execFwLoad v s
  | .plumeStart v => Sys2Proof.Machine.execPlumeStart v s
  | .plumeCancel v => Sys2Proof.Machine.execPlumeCancel v s
  | .plAnnounce c hdr => Sys2Proof.Machine.execPlAnnounce c hdr s
  | .plData c image packet crc data => Sys2Proof.Machine.execPlData c image packet crc data s
  | .plRoll c image round => Sys2Proof.Machine.execPlRoll c image round s
  | .plMiss c st total ranges => Sys2Proof.Machine.execPlMiss c st total ranges s
  | .rollwaitExpire => Sys2Proof.Machine.execRollwaitExpire s
  | .plArm c image excluded => Sys2Proof.Machine.execPlArm c image excluded s
  | .armwaitExpire => Sys2Proof.Machine.execArmwaitExpire s
  | .plReady c code cores jets => Sys2Proof.Machine.execPlReady c code cores jets s
  | .plGo c image now tgo map => Sys2Proof.Machine.execPlGo c image now tgo map s
  | .plCancel c image => Sys2Proof.Machine.execPlCancel c image s
  | .eventCollect => Sys2Proof.Machine.execEventCollect s
  | .eventQueueWrite q => Sys2Proof.Machine.execEventQueueWrite q s
  | .consWrite q v => Sys2Proof.Machine.execConsWrite q v s
  | .glbEvqWrite q v => Sys2Proof.Machine.execGlbEvqWrite q v s
  | .freeze => Sys2Proof.Machine.execFreeze s
  | .rearm clear => Sys2Proof.Machine.execRearm clear s
  | .sedAggStart v => Sys2Proof.Machine.execSedAggStart v s
  | .sed c sub packet data => Sys2Proof.Machine.execSed c sub packet data s
  | .sedWorkerTimeout => Sys2Proof.Machine.execSedWorkerTimeout s
  | .wrapperInstructionLoad insn => Sys2Proof.Machine.execWrapperInstructionLoad insn s
  | .registerRead off bytes host => Sys2Proof.Machine.execRegisterRead off bytes host s
  | .rstNRise pins => Sys2Proof.Machine.execRstNRise pins s
  | .responseBeatTransfer p => Sys2Proof.Machine.execResponseBeatTransfer p s
  | .frameCheckFail p => Sys2Proof.Machine.execFrameCheckFail p s
  | .tideValueDiscard => Sys2Proof.Machine.execTideValueDiscard s
  | .censusReadMissed pc => Sys2Proof.Machine.execCensusReadMissed pc s
  | .plReadyTimeout k => Sys2Proof.Machine.execPlReadyTimeout k s
  | .cascadeForward c typ crcOk bufferFull len => Sys2Proof.Machine.execCascadeForward c typ crcOk bufferFull len s
  | .wrstnAssert => Sys2Proof.Machine.execWrstnAssert s
  | .illegalOpcode h maj min => Sys2Proof.Machine.execIllegalOpcode h maj min s

end Sys2Proof.Machine
end

