-- ==== Sys2Proof/Machine/Step.lean ====
section
/-! DEFINITION. Sys2Proof/Machine/Step.lean: the step: the command at the front of the queue runs with the queue's rest; on an empty queue
one cycle of the always-on clock passes (notes/assumptions/2.md). -/
namespace Sys2Proof.Machine

/-- One step. (DESIGN CHOICE: notes/assumptions/2.md.) -/
def step (s : State) : Host.Outcome State Fault Refusal :=
  match s.pending with
  | c :: rest => exec c { s with pending := rest }
  | [] => .next s.idle

/-- s with the command that a word of the opcode table spells put at the front of its queue. (DESIGN CHOICE: notes/assumptions/29.md.) -/
def State.withFetchWord (s : State) (nbits w : Nat) : State :=
  match Sys2Proof.decodeTableWord nbits w with
  | some c => { s with pending := c :: s.pending }
  | none => s

end Sys2Proof.Machine
end

