-- ==== Sys2Proof/WellFormed.lean ====
section
/-! DEFINITION. Sys2Proof/WellFormed.lean: the operands that a command can have beyond what their types say. The meanings answer for every operand;
these checks say which of them an interface of the spec can carry. -/
namespace Sys2Proof

/-- An instruction word without an extension word brings none (06_zynsa_encoding.md R160). -/
def Hdr.wf (h : Hdr) : Bool := h.x || h.ext == 0

/-- A control-port access is of 4 or 8 bytes (00_scope.md R11). -/
def sizeWf (bytes : Nat) : Bool := bytes == 4 || bytes == 8

/-- Each error of a stack read changes at least one bit of a byte. -/
def flipsWf (fl : List (Nat × Byte)) : Bool := fl.all fun f => f.2 != 0

/-- A frame's payload is within the largest of the frame table, 288 bytes (13_aqueduct_ring.md R376). -/
def Frame.wf (f : Frame) : Bool := decide (f.payload.length ≤ 288)

/-- No word of a spout's program with these opcodes is an instruction (06_zynsa_encoding.md R167). -/
def unassigned (maj min : Nat) : Bool := (decodeInsn 0 (maj * 2 ^ 58 + min * 2 ^ 48) 0).isNone

/-- Every command's check. -/
def Instr.wf (i : Instr) : Bool :=
  match i with
  | .registerWrite _ bytes _ _ | .registerRead _ bytes _ | .tailWrite _ _ bytes _ => sizeWf bytes
  | .readDataReturn _ fl | .mergeReadReturn _ fl | .verifyReadReturn _ fl => flipsWf fl
  | .scrubPage _ fl => fl.all fun f => f.2.2 != 0
  | .frameRd _ f | .frameWr _ f | .frameWrp _ f | .frameAtom _ f | .frameResp _ f | .frameRsf _ f | .frameLctl _ f | .frameTrn _ f => f.wf
  | .loopMeasureDone e w => e.length == 4 && w.length == 4
  | .trainingDone _ errs _ _ _ => errs.length == 4
  | .sensorSample raw => raw.length == 16
  | .calMeasurementDone _ _ _ codes => codes.length == 7
  | .plAnnounce _ hdr => hdr.length == 128
  | .telemetryFrame _ f => f.phases.length == 6
  | .illegalOpcode h maj mn => h.wf && unassigned maj.toNat mn.toNat
  | .nop h => h.wf
  | .halt h => h.wf
  | .fence h _ => h.wf
  | .sync h => h.wf
  | .loop h _ _ _ _ => h.wf
  | .endloop h => h.wf
  | .br h _ => h.wf
  | .brA h _ => h.wf
  | .brC h _ => h.wf
  | .wait h _ => h.wf
  | .signal h _ => h.wf
  | .ldi h _ _ => h.wf
  | .movr h _ _ _ => h.wf
  | .ldd h _ _ _ => h.wf
  | .ldr h _ _ _ => h.wf
  | .str h _ _ _ => h.wf
  | .plog h _ _ _ _ => h.wf
  | .move h _ => h.wf
  | .gather h _ => h.wf
  | .scatter h _ => h.wf
  | .fill h _ => h.wf
  | .cmp h _ => h.wf
  | .pack h _ => h.wf
  | .cvt h _ => h.wf
  | .cvtPr h _ => h.wf
  | .vadd h _ => h.wf
  | .vsub h _ => h.wf
  | .vmul h _ => h.wf
  | .vfma h _ => h.wf
  | .vmin h _ => h.wf
  | .vmax h _ => h.wf
  | .vabs h _ => h.wf
  | .vneg h _ => h.wf
  | .vscale h _ => h.wf
  | .vand h _ => h.wf
  | .vor h _ => h.wf
  | .vxor h _ => h.wf
  | .vcmpeq h _ => h.wf
  | .vcmplt h _ => h.wf
  | .rsum h _ => h.wf
  | .rsumsq h _ => h.wf
  | .rdot h _ => h.wf
  | .rmin h _ => h.wf
  | .rmax h _ => h.wf
  | .rargmin h _ => h.wf
  | .rargmax h _ => h.wf
  | .rmerge h _ => h.wf
  | .gemv h _ => h.wf
  | .gemvt h _ => h.wf
  | .mm h _ => h.wf
  | .hprobe h _ => h.wf
  | .hinsert h _ => h.wf
  | .hdelete h _ => h.wf
  | .isect h _ => h.wf
  | .topk h _ => h.wf
  | .amin h _ => h.wf
  | .amax h _ => h.wf
  | .aadd h _ => h.wf
  | .halo h _ => h.wf
  | .add h _ => h.wf
  | .sub h _ => h.wf
  | .mul h _ => h.wf
  | .mulhu h _ => h.wf
  | .and h _ => h.wf
  | .or h _ => h.wf
  | .xor h _ => h.wf
  | .shl h _ => h.wf
  | .shr h _ => h.wf
  | .sra h _ => h.wf
  | .min h _ => h.wf
  | .max h _ => h.wf
  | .minu h _ => h.wf
  | .maxu h _ => h.wf
  | .faddD h _ => h.wf
  | .fsubD h _ => h.wf
  | .fmulD h _ => h.wf
  | .fdivD h _ => h.wf
  | .fsqrtD h _ => h.wf
  | .cvtDi h _ => h.wf
  | .cvtId h _ => h.wf
  | .tbegin h _ _ _ => h.wf
  | .tcommit h _ => h.wf
  | .tabort h _ => h.wf
  | .tstat h _ => h.wf
  | .dead h _ _ => h.wf
  | .pin h _ _ => h.wf
  | .unpin h _ _ => h.wf
  | .prefetch h _ _ _ => h.wf
  | .svcCall h _ _ _ => h.wf
  | .svcPost h _ _ => h.wf
  | .rdreg h _ _ => h.wf
  | .wrreg h _ _ => h.wf
  | .seed h _ _ => h.wf
  | _ => true

end Sys2Proof
end

