-- ==== Sys2Proof/Safety.lean ====
section
/-! DEFINITION. Sys2Proof/Safety.lean: what counts as a safe run, and the terms the statements use: when an instruction of a spout executes normally, and
what a command leaves unchanged. The block takes no exception and no command stops it (00_scope.md R5). -/
namespace Sys2Proof.Machine

/-- The state keeps its form: stack memory, tile stores and the tier store are in canonical form, and every command that waits is well-formed. -/
def State.wf (s : State) : Bool :=
  Memory.wf s.mem && Memory.wf s.tiles && Store.canon (fun _ => 0#64) s.tier && s.pending.all Instr.wf

/-- The next k steps all answer a next state. -/
def runsSafely : Nat → State → Bool
  | 0, _ => true
  | k + 1, s =>
    match step s with
    | .next t => runsSafely k t
    | _ => false

/-! ## A spout that can issue -/

/-- Spout n is in RUN at an instruction boundary, nothing waits, its unit is powered, no trip or warm reset runs, and for a channel no pause and no
bus-error stop is in the way; no stop and no abort waits for the boundary. -/
def State.running (s : State) (n : Nat) : Prop :=
  s.spSt n = 2 ∧ (s.sp n).prog = none ∧ (s.sp n).finish = none ∧ (s.sp n).waiting = .none ∧ (s.sp n).stopReq = none ∧ (s.sp n).txAbort = none ∧
  s.domOn (domOfSpout n) = true ∧ s.power.shut = 0 ∧ s.phase ≠ 9 ∧ (n < 32 → s.sluice.draining = false ∧ s.flag F.SLC_CTL_PAUSE n = false)

/-- An instruction of class c that names `u` issues and is not skipped: its words are held, and the steps of its decoding and what it waits for pass
(06_zynsa_encoding.md R161, R177; 04_zynsa_model.md R117, R120, R122). -/
def State.issues (s : State) (h : Hdr) (c : Cls) (u : Use) : Prop :=
  s.running h.sp.val ∧ (s.sp h.sp.val).hasWords h = true ∧ (c = .prv → (s.sp h.sp.val).cmd.priv = 2) ∧ c.allowed (spKind h.sp.val) = true ∧ h.ps ≠ 8 ∧
  u.illegal h.sp.val (s.sp h.sp.val) = false ∧ (s.sp h.sp.val).pred h.ps = true ∧ u.ready (s.sp h.sp.val) = true

/-- The state in which an instruction that executes normally does its work: it waits for nothing. -/
def State.begun (s : State) (h : Hdr) : State := s.updSp h.sp.val fun y => { y with waiting := .none }

/-- s with spout n's data instruction q completed: its generator and flags stay, its units are given up, its register results are written, and the
spout goes on to the next instruction (04_zynsa_model.md R118; 07_jet_engines.md R186). -/
def State.ended (s : State) (n : Nat) (q : InProg) : State :=
  let s1 := (s.updSp n fun y => { y with gen := BitVec.ofNat 64 q.gen }).setFlags n q.flags
  ((s1.releaseUnits n).updSp n fun y => { y.setRegs q.results with prog := none, outs := y.outs.filter fun o => !o.isBulk }).goto n q.next

/-- Every write of spout n has been accepted (04_zynsa_model.md R118). -/
def State.landed (s : State) (n : Nat) : Prop := ((s.sp n).outs.any fun o => o.short.isSome) = false

/-- Spout n is in RUN in its data instruction i, which sends no event of its own at its end. -/
def State.inHand (s : State) (n : Nat) (i : Instr) (p : InProg) : Prop :=
  s.spSt n = 2 ∧ (s.sp n).prog = some p ∧ p.insn = i ∧ p.half = false ∧ p.full = false

/-- Arithmetic work that stands at p in s has all it reads in hand, meets no fault, and its writes have been accepted: it leaves t (07_jet_engines.md R195,
R197). -/
def State.workDone (s : State) (n : Nat) (w : Work) (p : InProg) (t : State) : Prop :=
  let b := (w.run (s.bk n p)).close
  b.missing = [] ∧ b.want = none ∧ b.stop = none ∧ b.s.landed n ∧
  let q := { p with elems := b.elems, wbuf := none, fetched := [], upds := [], results := w.fin b, gen := b.draw.g, flags := b.flags, closed := some none }
  t = ((b.s.countMacs (jetOf n) w.macs).updSp n fun y => { y with prog := some q }).ended n q

/-- A planned instruction i of the arithmetic classes runs to its end in s, and leaves t: it issues, its checks pass, its units are its own, and its work
lacks nothing (07_jet_engines.md R186, R190, R197); or it is in progress and all it reads is in hand; or only its last write was still to be
accepted. -/
def State.runsPlan (s : State) (h : Hdr) (i : Instr) (c : Cls) (u : Use) (plan : Spout → Nat → Plan) (t : State) : Prop :=
  let n := h.sp.val
  let w := plan (s.sp n) n
  (s.issues h c u ∧ (s.begun h).arChecks n w.ck = none ∧ ∃ s1, (s.begun h).acquire n w.units = some s1 ∧
    (s1.updSp n fun y => { y with prog := some (s1.begin h i) }).workDone n w.toWork (s1.begin h i) t ∧
    ((s1.sp n).outs.any Out.isBulk) = false) ∨
  (32 ≤ n ∧ ∃ p, s.inHand n i p ∧
    ((p.closed = none ∧ ((s.sp n).outs.any Out.isBulk) = false ∧ s.workDone n w.toWork p t) ∨ (p.closed = some none ∧ s.landed n ∧ t = s.ended n p)))

/-- The elements of a MOV-class instruction from p on are all in hand and meet no fault, and their writes have been accepted: it leaves t
(08_sluice_channels.md R220, R231). -/
def State.movEnds (s : State) (n : Nat) (m : Mov) (p : InProg) (t : State) : Prop :=
  let b := s.movElems n m p
  let q := { p.last m b.close with closed := some none }
  b.stop = none ∧ (b.found = true ∨ m.count ≤ b.elems) ∧
  let s1 := (b.close.s.notePoison n (b.marked.length - p.marked.length)).updSp n fun y => { y with prog := some q }
  s1.landed n ∧ t = (s1.noteProgress n).ended n q

/-- A MOV-class instruction i runs to its end in s, and leaves t (08_sluice_channels.md R220, R231, R563): it issues, stages nothing and sends no events,
has no fault before issue, its move unit is its own, and its elements are in hand; or it is in progress, staged where it stages, and the rest
of its elements is in hand; or only its last write was still to be accepted. -/
def State.runsMov (s : State) (h : Hdr) (i : Instr) (u : Use) (t : State) : Prop :=
  let n := h.sp.val
  let s0 := s.begun h
  (s.issues h .mov u ∧ (n < 32 → s.flag F.SLC_CFG_PACED n = false ∧ s.flag F.SLC_CFG_HALFIE n = false ∧ s.flag F.SLC_CFG_FULLIE n = false) ∧
    ∃ m s1, s0.movOf i = some (h, m) ∧ m.fault = none ∧ m.stage = [] ∧
      ((s.sp n).tx = none ∨ ∀ o ∈ m.mems, (o.isMem && s.isRemote o.base) = false) ∧ s0.acquire n [uMOV] = some s1 ∧
      let p := s0.movBegin h i m
      let s2 := (s1.movClear n).inProgress n p
      ∃ m2, s2.movOf i = some (h, m2) ∧ m2.stage = [] ∧ s2.movEnds n m2 { p with limit := m2.count } t) ∨
  (∃ p, s.inHand n i p ∧
    ((p.closed = none ∧ ∃ m, s.movOf i = some (h, m) ∧ (m.stage = [] ∨ p.stagedAll = true) ∧
        (s.paced n = false ∨ p.elems < p.limit ∧ p.limit = m.count) ∧ s.movEnds n m { p with limit := m.count } t) ∨
      (p.closed = some none ∧ s.landed n ∧ t = s.ended n p)))

/-- s without its spouts. -/
def State.noSpouts (s : State) : State := { s with spouts := [] }

/-- From s to t nothing changes but spout n, which is y. -/
def onlySpout (s t : State) (n : Nat) (y : Spout) : Prop :=
  t.sp n = y ∧ (∀ m, m ≠ n → t.sp m = s.sp m) ∧ t.noSpouts = s.noSpouts

/-- The address after an instruction (06_zynsa_encoding.md R160). -/
def after (h : Hdr) (pc : Nat) : Nat := (pc + if h.x then 16 else 8) % 2 ^ 48

/-- A spout that has completed an instruction: its PC is at the next one, and one more of its command is complete. -/
def Spout.past (x : Spout) (h : Hdr) : Spout := { x with pc := after h x.pc, seq := x.seq + 1 }

end Sys2Proof.Machine
end

