-- ==== Sys2Proof/Certificates/Slice0/Obligations.lean ====
section
/-! DEFINITION. Sys2Proof/Certificates/Slice0/Obligations.lean: the statements about the model, for the provers. A statement that begins with 'From' rests on
the rules it names without stating every sentence of them; one that begins with a rule states that rule. -/
open Sys2Proof Sys2Proof.Machine

/-! ## The queue -/

/-- A step takes the command at the front of the queue and runs it with the rest (the model's form of a step). -/
def Obligations.StepRunsTheFrontCommand : Prop :=
  ∀ (s : State) (c : Instr) (rest : List Instr), s.pending = c :: rest → step s = exec c { s with pending := rest }

/-- From R5: no command stops the machine: whatever the state, each command answers a next state, and so does each step. -/
def Obligations.EveryCommandCompletes : Prop :=
  (∀ (i : Instr) (s : State), ∃ t, exec i s = .next t) ∧ ∀ s : State, ∃ t, step s = .next t

/-- A step on an empty queue lets one always-on cycle pass: it answers the state after the cycle with what waited for it served, its tick count up by one and
its queue still empty; in phase 0, where every unit is stopped, it changes nothing (the model's choice, notes/assumptions/2.md). -/
def Obligations.EmptyQueueIdles : Prop :=
  ∀ s : State, s.pending = [] →
    (s.phase = 0 → step s = .next s) ∧
    (s.phase ≠ 0 → step s = .next (s.clockCycle.serveWaits) ∧ s.clockCycle.time.ticks = s.time.ticks + 1 ∧ s.clockCycle.pending = [])

/-! ## Zynsa: control instructions -/

/-- From R169, R170 and R177: `NOP`, `LDI`, `MOVR`, `PLOG` and `FENCE` complete and change nothing but their spout: the register they name, and the PC by 8 B or
16 B. `LDI` takes the sign-extended IMM or the extension word; `MOVR` adds the sign-extended IMM; `PLOG` reads its truth table at the two predicates;
`FENCE` keeps its mask for the later requests unless the mask is 0. -/
def Obligations.RegisterSetupCompletes : Prop :=
  ∀ (s : State) (h : Hdr),
    let x := s.sp h.sp.val
    (s.issues h .ctl Use.none → ∃ t, exec (.nop h) s = .next t ∧ onlySpout s t h.sp.val (x.past h)) ∧
    (∀ rd imm, s.issues h .ctl { Use.none with sels := [BitVec.toNat rd] } →
      ∃ t, exec (.ldi h rd imm) s = .next t ∧
        onlySpout s t h.sp.val ((x.setSel rd.toNat (if h.x then h.ext.toNat else (imm.signExtend 64).toNat)).past h)) ∧
    (∀ rd rs imm, s.issues h .ctl { Use.none with sels := [BitVec.toNat rd, BitVec.toNat rs] } →
      ∃ t, exec (.movr h rd rs imm) s = .next t ∧
        onlySpout s t h.sp.val ((x.setSel rd.toNat ((BitVec.ofNat 64 (x.sel rs.toNat) + imm.signExtend 64).toNat)).past h)) ∧
    (∀ pd pa pb tt, s.issues h .ctl Use.none →
      ∃ t, exec (.plog h pd pa pb tt) s = .next t ∧
        onlySpout s t h.sp.val
          ((x.setP pd.toNat (tt.getLsbD (2 * (if x.pv pa.toNat then 1 else 0) + (if x.pv pb.toNat then 1 else 0)))).past h)) ∧
    (∀ mask : BitVec 4, s.issues h .ctl Use.none →
      ∃ t, exec (.fence h mask) s = .next t ∧
        onlySpout s t h.sp.val (({ x with fences := if mask = 0 then x.fences else x.fences ++ [(mask.toNat, x.nextIdx)] } : Spout).past h))

/-- From R171, R173 and R174: a taken branch goes to its target and drops the innermost loops whose range does not hold it; `BR.C` branches, and writes PD under
PW, as its condition says of g[GA] and the comparand. `LOOP` raises LOOP_DEPTH under four active loops, then LOOP_RANGE where its count has more than 32
bits, then LOOP_MATCH where the word it names is no `ENDLOOP`; with a count that is not 0 it pushes its entry and clears its k register; with 0 it goes on
after the `ENDLOOP`. While the line of the word that it names is not held, it asks for the line and waits. -/
def Obligations.BranchesAndLoopsBegin : Prop :=
  (∀ (s : State) (h : Hdr),
      let x := s.sp h.sp.val
      (∀ off : BitVec 32, s.issues h .ctl Use.none →
        let target := addrAdd x.pc (8 * off.toInt)
        ∃ t, exec (.br h off) s = .next t ∧ onlySpout s t h.sp.val { x with pc := target, seq := x.seq + 1, loops := popLoops target x.loops }) ∧
      (∀ aa : BitVec 3, s.issues h .ctl { Use.none with names := [16 + aa.toNat] } → x.av aa.toNat % 8 = 0 → s.isLocal (x.av aa.toNat) = true →
        ∃ t, exec (.brA h aa) s = .next t ∧ onlySpout s t h.sp.val { x with pc := x.av aa.toNat, seq := x.seq + 1, loops := popLoops (x.av aa.toNat) x.loops }) ∧
      (∀ f : BrcF, s.issues h .ctl { Use.none with names := f.ga.toNat :: if f.immb then [] else [f.gb.toNat] } →
        let b := if !f.immb then x.gv f.gb.toNat else if h.x then h.ext.toNat else (f.imm.signExtend 64).toNat
        let r := brCond f.cond.toNat (x.gv f.ga.toNat) b
        let y := if f.pw then x.setP f.pd.toNat r else x
        let target := addrAdd x.pc (8 * f.off.toInt)
        ∃ t, exec (.brC h f) s = .next t ∧
          onlySpout s t h.sp.val (if r && f.off != 0 then { y with pc := target, seq := y.seq + 1, loops := popLoops target y.loops } else y.past h))) ∧
  (∀ (s : State) (h : Hdr) (imm : BitVec 24) (len : BitVec 16) (gs : BitVec 4) (cs : Bool),
      let x := s.sp h.sp.val
      let stop := (x.pc + 8 * len.toNat) % 2 ^ 48
      s.issues h .ctl { Use.none with names := if cs then [gs.toNat] else [] } →
        (4 ≤ x.depth → exec (.loop h imm len gs cs) s = .next ((s.begun h).fault h.sp.val 0x0C 0 0)) ∧
        (x.depth < 4 → cs = true → 2 ^ 32 ≤ x.gv gs.toNat → exec (.loop h imm len gs cs) s = .next ((s.begun h).fault h.sp.val 0x81 0 0)) ∧
        (x.depth < 4 → (cs = true → x.gv gs.toNat < 2 ^ 32) → x.word stop = none →
          exec (.loop h imm len gs cs) s = .next (((s.begun h).wantLineAt h.sp.val stop).holdFor h.sp.val (.loop h imm len gs cs))) ∧
        (∀ w, x.depth < 4 → (cs = true → x.gv gs.toNat < 2 ^ 32) → x.word stop = some w →
          (isEndloop w = false → exec (.loop h imm len gs cs) s = .next ((s.begun h).fault h.sp.val 0x80 0 0)) ∧
          (isEndloop w = true →
            let n := if cs then x.gv gs.toNat else imm.toNat
            ∃ t, exec (.loop h imm len gs cs) s = .next t ∧
              onlySpout s t h.sp.val (if n = 0 then { x with pc := (stop + 8) % 2 ^ 48, seq := x.seq + 1 }
                else { x.past h with loops := x.loops ++ [{ start := after h x.pc, endAt := stop, n := n }], k := Store.put 0 x.k x.depth 0 }))))

/-- R172: `ENDLOOP` raises LOOP_MATCH, and changes nothing else, when no loop is active or the innermost entry's `ENDLOOP` address differs from its own;
otherwise it adds 1 to k(d), continues at the body start while that is below n, and else pops the entry and continues behind itself. -/
def Obligations.EndloopCounts : Prop :=
  ∀ (s : State) (h : Hdr), s.issues h .ctl Use.none →
    let x := s.sp h.sp.val
    (x.loops = [] → exec (.endloop h) s = .next ((s.begun h).fault h.sp.val 0x80 0 0)) ∧
    (∀ e : LoopEnt, x.loops.getLast? = some e → e.endAt ≠ x.pc → exec (.endloop h) s = .next ((s.begun h).fault h.sp.val 0x80 0 0)) ∧
    (∀ e : LoopEnt, x.loops.getLast? = some e → e.endAt = x.pc →
      let v := (x.kv (x.depth - 1) + 1) % 2 ^ 32
      let y := { x with k := Store.put 0 x.k (x.depth - 1) (BitVec.ofNat 32 v), seq := x.seq + 1 }
      ∃ t, exec (.endloop h) s = .next t ∧
        onlySpout s t h.sp.val (if v < e.n then { y with pc := e.start % 2 ^ 48 } else { y with pc := (x.pc + 8) % 2 ^ 48, loops := x.loops.dropLast }))

/-- From R119 and R269: `SYNC` completes where every earlier data request is past its point and no write is unacknowledged, and otherwise waits in WAIT; inside
a transaction it is a full fence. SYNC_TIMEOUT ends the wait with fault 0x0D (WR_UNACK) and the writes still unacknowledged as PROGRESS. -/
def Obligations.SyncWaitsForWrites : Prop :=
  ∀ (s : State) (h : Hdr) (page : Sp),
    let x := s.sp h.sp.val
    (s.issues h .ctl Use.none →
      (x.tx = none → x.settled = true → x.unackedN = 0 →
        ∃ t, exec (.sync h) s = .next t ∧ onlySpout s t h.sp.val (x.past h)) ∧
      (x.tx = none → (x.settled && x.unackedN == 0) = false →
        exec (.sync h) s = .next (((s.begun h).updSp h.sp.val fun y => { y with waiting := .sync, waitPc := after h x.pc }).setSpSt h.sp.val 3)) ∧
      (∀ k, x.tx = some k →
        ∃ t, exec (.sync h) s = .next t ∧
          onlySpout s t h.sp.val (({ x with fences := x.fences ++ [(15, x.nextIdx)] } : Spout).past h))) ∧
    ((s.sp page.val).waiting = .sync → s.spSt page.val = 3 →
      exec (.syncTimeout page) s = .next (s.fault page.val 0x0D 0 (s.sp page.val).unackedN))

/-- From R175: `WAIT` looks at its source once as it executes: it goes on where the condition holds, ends late at once under a timeout of 0, and otherwise waits
in WAIT, from where WAIT_EVALUATE and WAIT_TIMEOUT end it the same two ways: with PD set or cleared under PW, or WAIT_TIMEOUT. A tide wait compares TIDE as
its condition says and reads nothing else; a wait that is met goes on behind itself with PD set. -/
def Obligations.WaitEndsOnConditionOrTimeout : Prop :=
  (∀ (s : State) (h : Hdr) (f : WaitF) (page : Sp),
      let n := h.sp.val
      let x := s.sp n
      let src := f.src.toNat
      let addr := addrAdd (x.av f.aa.toNat) (8 * f.disp.toInt)
      let b := x.gv f.gv.toNat
      let u : Use := { Use.none with names := (if src = 0 then [16 + f.aa.toNat] else []) ++ (if src = 1 then [] else [f.gv.toNat]), reads := src == 0 }
      let lim := if h.x then some h.ext.toNat else none
      let t := ((s.begun h).updSp n fun y => { y with waiting := .cond src addr f.cond.toNat b f.pd.toNat f.pw lim, waitPc := after h x.pc }).setSpSt n 3
      (s.issues h .ctl u → src < 3 → (src = 1 → spKind n = 0) → (x.tx = none ∨ src = 2) → (src = 0 → addr % 8 = 0 ∧ s.isLocal addr = true) →
        (src = 0 → exec (.wait h f) s = .next (t.pollWait n addr)) ∧
        (s.lookWait n src f.cond.toNat b = some true → exec (.wait h f) s = .next (t.waitMet n f.pd.toNat f.pw (after h x.pc))) ∧
        (s.lookWait n src f.cond.toNat b = some false → lim = some 0 → exec (.wait h f) s = .next (t.waitLate n f.pd.toNat f.pw (after h x.pc))) ∧
        (s.lookWait n src f.cond.toNat b = some false → lim ≠ some 0 → exec (.wait h f) s = .next t)) ∧
      (∀ w a c v pd pw l, s.spSt page.val = 3 → (s.sp page.val).waiting = .cond w a c v pd pw l →
        let m := page.val
        let on := (s.sp m).waitPc
        let seen := fun (r : Bool) => if r then s.waitMet m pd pw on else if l = some 0 then s.waitLate m pd pw on else s
        (∀ r, s.lookWait m w c v = some r → exec (.waitEvaluate page) s = .next (seen r)) ∧
        (w = 0 → exec (.waitEvaluate page) s = .next (s.pollWait m a) ∧ ∀ d, s.polled m d = seen (waitCond c (leNat d) v)) ∧
        (∀ k, l = some k → k ≠ 0 → exec (.waitTimeout page) s = .next (s.waitLate m pd pw on)))) ∧
  (∀ (s : State) (n cond b : Nat),
      s.lookWait n 2 cond b = some (tideCond cond (s.rd F.TIM_TIDE_TIDE 0) b) ∧
      (∀ pd next, pd < 8 → (s.sp n).stopReq = none → (s.sp n).txAbort = none →
        let t := s.waitMet n pd true next
        (t.sp n).pc = next % 2 ^ 48 ∧ (t.sp n).pv pd = true ∧ (t.sp n).waiting = .none ∧ t.spSt n = 2 ∧ t.mem = s.mem ∧ ∀ m, m ≠ n → t.sp m = s.sp m))

/-- From R169, R176, R177 and R184: `LDD`, `LDR`, `STR` and `SIGNAL` at an address that resolves send their one request and go on; `SIGNAL` with EVT sends its
event at once outside a transaction, and inside one keeps it with the spout; `SEED` stores g[GS], or the reset constant for 0, in a spout's generator and
ignores a page that is no spout's; `HALT` begins the end of the command with code 0. -/
def Obligations.ScalarRequestsAreSent : Prop :=
  ∀ (s : State) (h : Hdr),
    let n := h.sp.val
    let x := s.sp n
    let t := s.begun h
    (∀ dd aa disp, s.issues h .ctl { Use.none with names := [16 + BitVec.toNat aa, 32 + BitVec.toNat dd], reads := true } →
      let a := addrAdd (x.av aa.toNat) (16 * BitVec.toInt disp)
      s.addrFault n a 16 = none → (x.tx = none ∨ s.isRemote a = false) →
      exec (.ldd h dd aa disp) s = .next ((t.ask n (.desc dd.toNat) a 16 .rd []).done h)) ∧
    (∀ rd aa disp, s.issues h .ctl { Use.none with sels := [BitVec.toNat rd], names := [16 + BitVec.toNat aa], reads := true } →
      let a := addrAdd (x.av aa.toNat) (8 * BitVec.toInt disp)
      s.addrFault n a 8 = none → (x.tx = none ∨ s.isRemote a = false) →
      exec (.ldr h rd aa disp) s = .next ((t.ask n (.load rd.toNat) a 8 .rd []).done h)) ∧
    (∀ rs aa disp, s.issues h .ctl { Use.none with sels := [BitVec.toNat rs], names := [16 + BitVec.toNat aa], writes := true } →
      let a := addrAdd (x.av aa.toNat) (8 * BitVec.toInt disp)
      s.addrFault n a 8 = none → (x.tx = none ∨ s.isRemote a = false) →
      exec (.str h rs aa disp) s = .next ((t.ask n .store a 8 .wr (toLE 8 (x.sel rs.toNat))).done h)) ∧
    (∀ f : SignalF, s.issues h .ctl { Use.none with names := [16 + f.aa.toNat, f.gv.toNat] ++ (if f.ret then [f.gr.toNat] else []), writes := true,
                                                    reads := true, all := true } →
      let a := addrAdd (x.av f.aa.toNat) (8 * f.disp.toInt)
      let v := x.gv f.gv.toNat
      let sent := t.ask n (if f.ret then .prior f.gr.toNat else .store) a 8 (.atom f.op.toNat 8) (toLE 8 v)
      s.addrFault n a 8 = none → (x.tx = none ∨ s.isRemote a = false) →
      (f.evt = false → exec (.signal h f) s = .next (sent.done h)) ∧
      (f.evt = true → x.tx = none → s.evFull = false → exec (.signal h f) s = .next ((sent.spEvent n 0x82 a v).done h)) ∧
      (f.evt = true → x.tx.isSome = true →
        exec (.signal h f) s = .next ((sent.updSp n fun y => { y with signals := y.signals ++ [(a, v)] }).done h))) ∧
    (∀ page gs, s.issues h .prv { Use.none with names := [BitVec.toNat gs] } → x.tx = none →
      (161 ≤ BitVec.toNat page → exec (.seed h page gs) s = .next (t.done h)) ∧
      (BitVec.toNat page < 161 →
        exec (.seed h page gs) s = .next ((t.updSp page.toNat fun y =>
          { y with gen := if x.gv gs.toNat = 0 then 0x9E3779B97F4A7C15 else BitVec.ofNat 64 (x.gv gs.toNat) }).done h))) ∧
    (s.issues h .ctl Use.none → exec (.halt h) s = .next (t.ending n 0))

/-- From R161: a held word whose opcode is not assigned faults with 0x01 (ILLEGAL_OPCODE); one of a privileged class below maintenance privilege faults with
0x05 (PRIV_VIOLATION), and one of a class that the spout does not have with 0x02 (ILLEGAL_CLASS), before its minor opcode is looked at. From R123 and R125:
a fault at a spout that is in no transaction records its code, the instruction's address, FADDR and PROGRESS with IMPRECISE clear, and begins the end of the
command under its code: the running data movement and the fences are dropped, the loop stack stays, and only writes stay outstanding; the g registers, every
other spout, memory and the tiles are as they were. -/
def Obligations.FaultsAreRecorded : Prop :=
  (∀ (s : State) (h : Hdr) (maj min : BitVec 6), s.running h.sp.val → (s.sp h.sp.val).holds (s.sp h.sp.val).pc = true →
      let n := h.sp.val
      (majorOf maj.toNat min.toNat = none → exec (.illegalOpcode h maj min) s = .next ((s.begun h).fault n 0x01 0 0)) ∧
      (∀ c, majorOf maj.toNat min.toNat = some (c, false) →
        exec (.illegalOpcode h maj min) s = .next ((s.begun h).fault n
          (if c = .prv ∧ (s.sp n).cmd.priv ≠ 2 then 0x05 else if c.allowed (spKind n) then 0x01 else 0x02) 0 0))) ∧
  (∀ (s : State) (n c a p : Nat), (s.sp n).tx = none → (s.sp n).pc < 2 ^ 48 →
      let t := s.fault n c a p
      t.rd F.DBL_STAT_FAULT n = c % 2 ^ 8 ∧ t.rd F.DBL_STAT_PROGRESS n = Nat.min p (2 ^ 32 - 1) ∧ t.flag F.DBL_STAT_IMPRECISE n = false ∧
      t.rd F.DBL_FPC_PC n = (s.sp n).pc ∧ t.rd F.DBL_FADDR_ADDR n = a % 2 ^ 48 ∧ t.spSt n = s.spSt n ∧
      (t.sp n).finish = some c ∧ (t.sp n).prog = none ∧ (t.sp n).loops = (s.sp n).loops ∧ (t.sp n).fences = [] ∧
      (t.sp n).outs = ((s.sp n).outs.filter fun o => o.write) ∧ (t.sp n).g = (s.sp n).g ∧
      (∀ m, m ≠ n → t.sp m = s.sp m) ∧ t.mem = s.mem ∧ t.tiles = s.tiles)

/-! ## Zynsa: scalar, vector, matrix, hash and data movement -/

/-- From R182: the integer scalar instructions write GD with the 64-bit operation's result, as a bit-vector operation on g[GA] and the second operand (g[GB],
IMM sign-extended, or the extension word), and PD with whether it is not zero under PW; nothing else of the spout changes but its PC, and nothing but the
spout. `ADD`, `MAXU`, `FADD.D` and `FDIV.D` with an RM of 5 to 7 fault with 0x45 (RMODE_RESERVED). -/
def Obligations.ScalarIntegersCompute : Prop :=
  (∀ (s : State) (h : Hdr) (f : FormS) (i : Instr) (r : Word), f.rm.toNat < 5 →
      let x := s.sp h.sp.val
      let a := BitVec.ofNat 64 (x.gv f.ga.toNat)
      let b : Word := if !f.immb then BitVec.ofNat 64 (x.gv f.gb.toNat) else if h.x then h.ext else f.imm.signExtend 64
      let n := b.toNat % 64
      (i = .add h f ∧ r = a + b ∨ i = .sub h f ∧ r = a - b ∨ i = .mul h f ∧ r = a * b ∨
        i = .mulhu h f ∧ r = ((a.zeroExtend 128 * b.zeroExtend 128) >>> 64).truncate 64 ∨ i = .and h f ∧ r = a &&& b ∨ i = .or h f ∧ r = a ||| b ∨
        i = .xor h f ∧ r = a ^^^ b ∨ i = .shl h f ∧ r = a <<< n ∨ i = .shr h f ∧ r = a >>> n ∨ i = .sra h f ∧ r = a.sshiftRight n ∨
        i = .min h f ∧ r = (if b.slt a then b else a) ∨ i = .max h f ∧ r = (if a.slt b then b else a) ∨
        i = .minu h f ∧ r = (if b.ult a then b else a) ∨ i = .maxu h f ∧ r = (if a.ult b then b else a)) →
      s.issues h .scalar { Use.none with names := [f.gd.toNat, f.ga.toNat] ++ if f.immb then [] else [f.gb.toNat] } →
      ∃ t, exec i s = .next t ∧
        let y := x.setG f.gd.toNat r.toNat
        (t.sp h.sp.val = (if f.pw then y.setP f.pd.toNat (r != 0) else y).past h) ∧
        (∀ m, m ≠ h.sp.val → t.sp m = s.sp m) ∧ t.mem = s.mem ∧ t.tiles = s.tiles ∧
        (∀ q j, q.addr j ≠ Reg.JET_NFLAG.addr (jetOf h.sp.val) → t.reg q j = s.reg q j) ∧ ∀ e, t.reg .JET_NFLAG e = s.reg .JET_NFLAG e) ∧
  (∀ (s : State) (h : Hdr) (f : FormS), 5 ≤ f.rm.toNat →
      s.issues h .scalar { Use.none with names := [f.gd.toNat, f.ga.toNat] ++ if f.immb then [] else [f.gb.toNat] } →
      exec (.add h f) s = .next ((s.begun h).fault h.sp.val 0x45 0 0) ∧ exec (.maxu h f) s = .next ((s.begun h).fault h.sp.val 0x45 0 0) ∧
      exec (.faddD h f) s = .next ((s.begun h).fault h.sp.val 0x45 0 0) ∧ exec (.fdivD h f) s = .next ((s.begun h).fault h.sp.val 0x45 0 0))

/-- From R143, R145, R150 and R182: the scalar instructions on doubles write GD with the operation's result and the numeric flags they raise, drawing one random
value where RM asks for it; the operations are those of 05_number_formats.md as the model names them. -/
def Obligations.ScalarDoublesCompute : Prop :=
  ∀ (s : State) (h : Hdr) (f : FormS) (i : Instr) (un : Bool) (op : Nat → Nat → Nat → Nat × Nat), f.rm.toNat < 5 →
    let x := s.sp h.sp.val
    let rm := f.rm.toNat
    (i = .faddD h f ∧ un = false ∧ op = dblOp rm (Val.add (rm == 3)) ∨ i = .fsubD h f ∧ un = false ∧ op = dblOp rm (fun a b => Val.add (rm == 3) a b.neg) ∨
      i = .fmulD h f ∧ un = false ∧ op = dblOp rm Val.mul ∨ i = .fdivD h f ∧ un = false ∧ op = divOp rm ∨ i = .fsqrtD h f ∧ un = true ∧ op = sqrtOp rm ∨
      i = .cvtDi h f ∧ un = true ∧ op = (fun a _ r => match codeValue fp64 a false with
        | .nan => (0, fINVALID)
        | .inf n => (if n then 2 ^ 63 else 2 ^ 63 - 1, fINEXACT)
        | .fin n m e => ((roundInt 64 rm r n m 1 e).bits, (roundInt 64 rm r n m 1 e).flags)) ∨
      i = .cvtId h f ∧ un = true ∧ op = (fun a _ r => ((convert fp64 rm false r (Val.ofInt (sx 64 a)) 1).bits, (convert fp64 rm false r (Val.ofInt (sx 64 a)) 1).flags))) →
    s.issues h .scalar { Use.none with names := [f.gd.toNat, f.ga.toNat] ++ if un || f.immb then [] else [f.gb.toNat] } →
    let d := Draw.next { g := x.gen.toNat, i := 0 } rm
    let v := op (x.gv f.ga.toNat) (x.bval h f) d.1
    let y := { x.setG f.gd.toNat v.1 with gen := BitVec.ofNat 64 d.2.g }
    ∃ t, exec i s = .next t ∧
      (t.sp h.sp.val = (if f.pw then y.setP f.pd.toNat (v.1 % 2 ^ 64 != 0) else y).past h) ∧
      (∀ m, m ≠ h.sp.val → t.sp m = s.sp m) ∧ t.mem = s.mem ∧ t.tiles = s.tiles ∧
      (∀ e, t.reg .JET_NFLAG e = (s.setFlags h.sp.val v.2).reg .JET_NFLAG e)

/-- From R186, R188, R190, R198, R199, R202 and R203: an element-wise instruction or a conversion whose checks pass, whose units are its own and whose data is
in hand runs to its end as its plan says, gives its units up, and the spout goes on to the next instruction. -/
def Obligations.ElementwiseCompletes : Prop :=
  ∀ (s : State) (h : Hdr) (f : FormD) (t : State),
    let ends := fun (i : Instr) (c : Cls) (u : Use) (plan : Spout → Nat → Plan) => s.runsPlan h i c u plan t → exec i s = .next t
    let three := dUse [f.od, f.oa, f.ob] [f.dd, f.da, f.db] []
    let two := dUse [f.od, f.oa] [f.dd, f.da] []
    ends (.vadd h f) .vec three (fun x n => ewPlan f x n .add) ∧ ends (.vsub h f) .vec three (fun x n => ewPlan f x n .sub) ∧
    ends (.vmul h f) .vec three (fun x n => ewPlan f x n .mul) ∧ ends (.vfma h f) .vec three (fun x n => ewPlan f x n .fma) ∧
    ends (.vmin h f) .vec three (fun x n => ewPlan f x n .min) ∧ ends (.vmax h f) .vec three (fun x n => ewPlan f x n .max) ∧
    ends (.vand h f) .vec three (fun x n => bitPlan f x n (· &&& ·)) ∧ ends (.vor h f) .vec three (fun x n => bitPlan f x n (· ||| ·)) ∧
    ends (.vxor h f) .vec three (fun x n => bitPlan f x n (· ^^^ ·)) ∧ ends (.vcmpeq h f) .vec three (fun x n => cmpPlan f x n Val.eqv) ∧
    ends (.vcmplt h f) .vec three (fun x n => cmpPlan f x n Val.lt) ∧ ends (.vabs h f) .vec two (fun x n => ewPlan f x n .abs) ∧
    ends (.vneg h f) .vec two (fun x n => ewPlan f x n .neg) ∧
    ends (.vscale h f) .vec (dUse [f.od, f.oa] [f.dd, f.da] [f.gx]) (fun x n => ewPlan f x n .scale) ∧
    ends (.cvt h f) .cvt two (fun x n => cvtPlan f x n) ∧ ends (.cvtPr h f) .cvt two (fun x n => cvtPrPlan f x n)

/-- From R186, R192 to R196, R200 and R201: a reduction, a merge of partial records or a matrix product whose checks pass, whose units are its own and whose
data is in hand runs to its end as its plan says, gives its units up, and the spout goes on to the next instruction. -/
def Obligations.ReductionsAndProductsComplete : Prop :=
  ∀ (s : State) (h : Hdr) (f : FormD) (t : State),
    let ends := fun (i : Instr) (c : Cls) (u : Use) (plan : Spout → Nat → Plan) => s.runsPlan h i c u plan t → exec i s = .next t
    let gs := if f.ac = 3 then [f.gx] else []
    let two := dUse [f.od, f.oa] [f.dd, f.da]
    let three := dUse [f.od, f.oa, f.ob] [f.dd, f.da, f.db]
    ends (.rsum h f) .vec (two gs) (fun x n => rsumPlan f x n) ∧ ends (.rsumsq h f) .vec (two gs) (fun x n => rsumsqPlan f x n) ∧
    ends (.rmerge h f) .vec (two gs) (fun x n => rmergePlan f x n) ∧ ends (.rdot h f) .vec (three gs) (fun x n => rdotPlan f x n) ∧
    ends (.rmin h f) .vec (two []) (fun x n => pickPlan f x n (fun _ => []) rowMin) ∧
    ends (.rmax h f) .vec (two []) (fun x n => pickPlan f x n (fun _ => []) rowMax) ∧
    ends (.rargmin h f) .vec (two []) (fun x n => argPlan f x n Val.below) ∧
    ends (.rargmax h f) .vec (two []) (fun x n => argPlan f x n fun a b => Val.below b a) ∧
    ends (.gemv h f) .mat (three gs) (fun x n => matPlan f x n false 16 true) ∧ ends (.gemvt h f) .mat (three gs) (fun x n => matPlan f x n true 16 true) ∧
    ends (.mm h f) .mat (three gs) (fun x n => matPlan f x n false 64 false)

/-- From R186 and R204 to R211: a hash, set or graph operation whose checks pass, whose units are its own and whose data is in hand runs to its end as its plan
says, gives its units up, and the spout goes on to the next instruction. -/
def Obligations.HashOperationsComplete : Prop :=
  ∀ (s : State) (h : Hdr) (f : FormD) (t : State),
    let ends := fun (i : Instr) (u : Use) (plan : Spout → Nat → Plan) => s.runsPlan h i .hsh u plan t → exec i s = .next t
    let three := dUse [f.od, f.oa, f.ob] [f.dd, f.da, f.db]
    ends (.hprobe h f) (three []) (fun x n => hashPlan h f x n .probe) ∧ ends (.hinsert h f) (three []) (fun x n => hashPlan h f x n .insert) ∧
    ends (.hdelete h f) (three []) (fun x n => hashPlan h f x n .delete) ∧ ends (.amin h f) (three []) (fun x n => updPlan f x n .min) ∧
    ends (.amax h f) (three []) (fun x n => updPlan f x n .max) ∧ ends (.aadd h f) (three []) (fun x n => updPlan f x n .add) ∧
    ends (.halo h f) (three []) (fun x n => haloPlan f x n) ∧ ends (.isect h f) (three [f.gx]) (fun x n => isectPlan f x n) ∧
    ends (.topk h f) (dUse [f.od, f.oa] [f.dd, f.da] [f.gx]) (fun x n => topkPlan f x n)

/-- From R220, R224 to R231 and R563: an instruction of the MOV class whose checks pass, whose move unit is its own, that stages nothing and is not paced, and
whose elements are in hand runs to its end; one in progress, staged where it stages, whose remaining elements are in hand, or whose last write alone was
still to be accepted, ends the same way: its elements in order, the progress shown, and on to the next instruction. -/
def Obligations.DataMovementCompletes : Prop :=
  ∀ (s : State) (h : Hdr) (f : FormD) (i : Instr) (u : Use) (t : State),
    (i = .move h f ∧ u = movUse [f.od, f.oa] [f.dd, f.da] [] [] true ∨ i = .gather h f ∧ u = movUse [f.od, f.oa, f.ob] [f.dd, f.da, f.db] [] [] true ∨
      i = .scatter h f ∧ u = movUse [f.od, f.oa, f.ob] [f.dd, f.da, f.db] [] [] true ∨
      i = .fill h f ∧ u = { movUse [f.od] [f.dd] [f.gx] [] true with reads := false } ∨
      i = .cmp h f ∧ u = movUse [f.oa, f.ob] [f.da, f.db] [f.gx] [f.px] false ∨ i = .pack h f ∧ u = movUse [f.od, f.oa] [f.dd, f.da] [] [] true) →
    s.runsMov h i u t → exec i s = .next t

/-- From R187, R198, R202 and R148: on one element in tiles without block scales, `VADD`, `VSUB`, `VMUL`, `VMIN`, `VMAX`, `VABS` and `VNEG` that run to their
end leave the exact operation's value on the decoded elements, converted to the destination's format under RM and SAT, in the destination's bytes, and no
byte outside them changes. -/
def Obligations.OneElementInTiles : Prop :=
  ∀ (s : State) (h : Hdr) (i : Instr) (f : FormD) (o : Ew) (t : State),
    let n := h.sp.val
    let x := s.sp n
    let d := x.opnd n f.od f.dd
    let a := x.opnd n f.oa f.da
    let c := x.opnd n f.ob f.db
    let code := fun (q : Opnd) => leNat (s.tileBytes q.base (q.w / 8))
    [Ew.add, .sub, .mul, .min, .max, .abs, .neg].contains o = true →
    d.tile = true → d.bsm = 0 → [8, 16, 32, 64].contains d.w = true → d.n0 = 1 → d.n1 = 1 → f.rm.toNat < 4 →
    a.tile = true → a.bsm = 0 → [8, 16, 32, 64].contains a.w = true → (o.two = true → c.tile = true ∧ c.bsm = 0 ∧ [8, 16, 32, 64].contains c.w = true) →
    s.arChecks n (ewPlan f x n o).ck = none → s.workDone n (ewPlan f x n o).toWork (s.begin h i) t →
    let v := o.value (f.rm == 3) (codeValue a.fmt (code a) false) (if o.two then codeValue c.fmt (code c) false else .zero) .zero
    leNat (t.tileBytes d.base (d.w / 8)) = (convert d.fmt f.rm.toNat f.sat 0 v 1).bits % 2 ^ d.w ∧
    ∀ k, (k < d.base ∨ d.base + d.w / 8 ≤ k) → Store.get 0 t.tiles k = Store.get 0 s.tiles k

/-! ## Transactions -/

/-- From R254 to R257: `TBEGIN` takes the lowest free ordinary slot, stamps it and joins it with its handler, loop depth and g[GD], or goes to its handler with
abort code 5 (BEGIN_FULL); with XI set and bit 63 of g[GD] it asks the manager for a package transaction and waits; a named package slot that is ACTIVE
under the spout's label takes it in, and one that is not sends it to its handler with code 7. A nested `TBEGIN` faults with 0x60 (TX_NESTED). -/
def Obligations.TransactionsBegin : Prop :=
  ∀ (s : State) (h : Hdr) (gd : BitVec 4) (xi : Bool) (off : BitVec 16), s.issues h .txn { Use.none with names := [gd.toNat] } →
    let n := h.sp.val
    let x := s.sp n
    let t := s.begun h
    let handler := addrAdd x.pc (8 * off.toInt)
    let v := x.gv gd.toNat
    let y := s.slot (56 + v)
    (x.tx.isSome = true → exec (.tbegin h gd xi off) s = .next (t.fault n 0x60 0 0)) ∧
    (x.tx = none → xi = false →
      (∀ k, s.freeSlot = some k →
        exec (.tbegin h gd xi off) s = .next (((t.updSlot k fun _ =>
          { TxSlot.init with st := .active, stamp := s.wall, label := x.cmd.label, owner := n }).joinTx n k handler gd.toNat).done h)) ∧
      (s.freeSlot = none → exec (.tbegin h gd xi off) s = .next (t.txRefuse n 0x05 handler gd.toNat))) ∧
    (x.tx = none → xi = true →
      (v.testBit 63 = true →
        exec (.tbegin h gd xi off) s = .next
          (((t.updSp n fun z => { z with waiting := .xopen handler gd.toNat, waitPc := after h x.pc }).send 0x10 false true s.mgr [n, x.cmd.label]).setSpSt n 3)) ∧
      (v < 8 → y.st = .active → y.label = x.cmd.label → y.members.length < 8 →
        exec (.tbegin h gd xi off) s = .next ((t.joinTx n (56 + v) handler gd.toNat).done h)) ∧
      (v < 8 → (y.st ≠ .active ∨ y.label ≠ x.cmd.label) → exec (.tbegin h gd xi off) s = .next (t.txRefuse n 0x07 handler gd.toNat)))

/-- From R258, R259 and R277: `TCOMMIT` of an ordinary transaction is its commit point; in a package one the spout waits among the members that are ready, and
its owner asks the manager for the commit. `TABORT` aborts with code 10 and its CODE as detail, and both commit and abort outside a transaction fault with
0x61 (NO_TX). -/
def Obligations.TransactionsEnd : Prop :=
  ∀ (s : State) (h : Hdr) (gd : BitVec 4) (code : BitVec 8),
    let n := h.sp.val
    let x := s.sp n
    let t := s.begun h
    let w := t.updSp n fun y => { y with waiting := .commit, waitPc := after h x.pc + gd.toNat * 2 ^ 48 }
    (s.issues h .txn { Use.none with names := [gd.toNat], all := true } →
      (∀ k, x.tx = some k → k < 56 → exec (.tcommit h gd) s = .next (w.commitPoint k)) ∧
      (∀ k, x.tx = some k → 56 ≤ k → (s.slot k).owner ≠ s.me * 256 + n →
        exec (.tcommit h gd) s = .next (((w.updSlot k fun y => { y with ready := y.ready ++ [n] }).setSpSt n 3).tryVote (k - 56))) ∧
      (∀ k, x.tx = some k → 56 ≤ k → (s.slot k).owner = s.me * 256 + n →
        exec (.tcommit h gd) s = .next ((((w.updSlot k fun y => { y with ready := y.ready ++ [n] }).setSpSt n 3).send 0x14 false true s.mgr [k - 56]).tryVote (k - 56))) ∧
      (x.tx = none → exec (.tcommit h gd) s = .next (t.fault n 0x61 0 0))) ∧
    (s.issues h .txn Use.none →
      (∀ k, x.tx = some k → exec (.tabort h code) s = .next (t.txAbort k 0x0A code.toNat none)) ∧
      (x.tx = none → exec (.tabort h code) s = .next (t.fault n 0x61 0 0)))

/-- R261: `TSTAT` writes the status word of the open transaction to g[GD]: OPEN, PKG, SIG, SLOT, WCOUNT and RCOUNT in their bits; with no transaction open it
writes 0. -/
def Obligations.TstatWritesTheStatusWord : Prop :=
  ∀ (s : State) (h : Hdr) (gd : BitVec 4), s.issues h .txn { Use.none with names := [gd.toNat] } →
    let x := s.sp h.sp.val
    ∃ t w, exec (.tstat h gd) s = .next t ∧ onlySpout s t h.sp.val ((x.setG gd.toNat w).past h) ∧
      (x.tx = none → w = 0) ∧
      (∀ k, x.tx = some k → k < 64 → (s.slot k).log.length ≤ 1024 → (s.slot k).reads.length ≤ 4096 →
        bits w 63 63 = 1 ∧ bits w 62 62 = b2n (decide (56 ≤ k)) ∧ bits w 61 61 = b2n (s.slot k).sigUsed ∧ bits w 60 55 = k ∧
        bits w 54 44 = (s.slot k).log.length ∧ bits w 43 31 = (s.slot k).reads.length ∧ bits w 30 0 = 0)

/-- From R259 and R277: an abort of an ACTIVE ordinary slot closes it with its log, its read set and its members dropped and its abort word kept: code, detail,
slot and instance; memory is as it was. TX_LIFETIME_EXPIRE aborts with code 9, and SLOT_FREE_TIMER makes a closed slot that no member is in free. From R263,
R264 and R266: the commit point of an ordinary slot raises CSEQ and counts the commit; LOG_APPLY_DONE writes the log of a COMMITTING slot to memory and
closes it, and leaves an ordinary slot that is not COMMITTING as it is. -/
def Obligations.TransactionsCloseTheirLogs : Prop :=
  (∀ (s : State) (k : Slot),
      (∀ code detail, (s.slot k.val).members = [] → k.val < 56 →
        let t := s.txAbort k.val code detail none
        (t.slot k.val).st = .closed ∧ (t.slot k.val).log = [] ∧ (t.slot k.val).reads = [] ∧ (t.slot k.val).members = [] ∧
        (t.slot k.val).word = abortWord code detail k.val s.me none ∧ t.mem = s.mem ∧ ∀ m, m ≠ k.val → t.slot m = s.slot m) ∧
      ((s.slot k.val).st = .active → exec (.txLifetimeExpire k) s = .next (s.txAbort k.val 0x09 0 none)) ∧
      ((s.slot k.val).st = .closed → (s.slot k.val).members = [] → (s.slot k.val).asked = false →
        ∃ t, exec (.slotFreeTimer k) s = .next t ∧ t.slot k.val = TxSlot.init ∧ (∀ m, m ≠ k.val → t.slot m = s.slot m) ∧ t.mem = s.mem ∧ t.regs = s.regs)) ∧
  (∀ (s : State) (k : Slot), k.val < 56 →
      ((s.slot k.val).st = .committing →
        ∃ t, exec (.logApplyDone k) s = .next t ∧
          t = (foldS (s.slot k.val).log s fun u e => u.logNow k.val e.1 e.2).updSlot k.val fun z => { z with st := .closed, log := [] }) ∧
      ((s.slot k.val).st ≠ .committing → exec (.logApplyDone k) s = .next s) ∧
      ((s.slot k.val).members = [] → (s.slot k.val).log = [] →
        let t := s.commitPoint k.val
        t.reg .TXU_CSEQ 0 = (s.reg .TXU_CSEQ 0 + 1) % 2 ^ 64 ∧ (t.slot k.val).st = .closed ∧ t.mem = s.mem))

/-- From R271: an XT_OPEN that reaches a manager in working order takes its lowest free package transaction and broadcasts XT_GRANT with the stamp of its wall
counter; it is denied with code 6 where none is free, and with 0x16 (NO_RECORD) where the requester's record base is not VALID, which the message says (that
it does is the model's reading, notes/assumptions/28.md). XT_GRANT makes the package slot ACTIVE, XT_READY lets the waiting spout in, and XT_DENY sends it
to its handler. -/
def Obligations.PackageTransactionsOpen : Prop :=
  ∀ (s : State) (c : CasHdr) (t : State),
    (∀ sp label, s.casTake c 0x10 false = (t, true) → t.role = 2 →
      (∀ x, t.flag F.CAS_STAT_LOOPOK 0 = true → t.txu.recovering = false → ((List.range 8).find? fun x => (t.pkt x).phase == 0) = some x →
        exec (.xtOpen c sp label true) s = .next
          ((t.updPkt x fun _ => { XRec.init with phase := 1, owner := c.src.val, sp := sp.val }).send 0x11 true true 0
            [x, t.wall, label.toNat, c.src.val, sp.val])) ∧
      (((List.range 8).find? fun x => (t.pkt x).phase == 0) = none →
        exec (.xtOpen c sp label true) s = .next (t.send 0x13 false true c.src.val [sp.val, 6])) ∧
      exec (.xtOpen c sp label false) s = .next (t.send 0x13 false true c.src.val [sp.val, 0x16])) ∧
    (∀ (x : Pkt) owner sp label stamp, s.casTake c 0x11 false = (t, true) → c.src.val ≠ t.me →
      ∃ u, exec (.xtGrant c x owner sp label stamp) s = .next u ∧
        u.slot (56 + x.val) = { TxSlot.init with st := .active, stamp := stamp.toNat, label := label.toNat, owner := owner.val * 256 + sp.val } ∧
        (∀ m, m ≠ 56 + x.val → u.slot m = t.slot m) ∧ u.mem = t.mem ∧ u.regs = t.regs) ∧
    (∀ (x : Pkt) handler gd, s.casTake c 0x12 false = (t, true) → let n := (t.slot (56 + x.val)).owner % 256
      (t.slot (56 + x.val)).owner / 256 = t.me → (t.slot (56 + x.val)).st = .active → (t.sp n).waiting = .xopen handler gd →
      exec (.xtReady c x) s = .next
        ((((t.joinTx n (56 + x.val) handler gd).updSp n fun z => { z with waiting := .none }).wakeSp n).goto n (t.sp n).waitPc)) ∧
    (∀ (sp : Sp) code handler gd, s.casTake c 0x13 false = (t, true) → (t.sp sp.val).waiting = .xopen handler gd →
      exec (.xtDeny c sp code) s = .next (t.txRefuse sp.val code.toNat handler gd))

/-- From R271 and R273 to R275: the manager's two phases. XT_COMMITREQ of an open transaction asks every instance to prepare; a vote against it, an XT_ABORTREQ
or the vote timeout aborts it everywhere; a YES that is not the last is kept; the last YES, of an instance with a log, decides it, recorded; the last
XT_DONE frees it. -/
def Obligations.PackageTransactionsDecide : Prop :=
  ∀ (s : State) (c : CasHdr) (t : State) (x : Pkt), t.role = 2 →
    let r := t.pkt x.val
    let voted := r.voted ||| 2 ^ c.src.val
    let got := fun (typ : Nat) => s.casTake c typ false = (t, true)
    (got 0x14 → r.phase = 1 →
      exec (.xtCommitreq c x) s = .next ((t.updPkt x.val fun r => { r with phase := 2, yes := 0, voted := 0, done := 0 }).send 0x15 true true 0 [x.val])) ∧
    (∀ empty word, got 0x16 → r.phase = 2 → exec (.xtVote c x false empty word) s = .next (t.broadcastAbort x.val word.toNat)) ∧
    (∀ empty word, got 0x16 → r.phase = 2 → voted ≠ 0xFFFF →
      exec (.xtVote c x true empty word) s = .next (t.updPkt x.val fun r => { r with voted := voted, yes := if empty then r.yes else r.yes ||| 2 ^ c.src.val })) ∧
    (∀ word, got 0x16 → r.phase = 2 → voted = 0xFFFF →
      ∃ u, exec (.xtVote c x true false word) s = .next u ∧ (u.pkt x.val).phase = 3 ∧ u.txu.decisions = t.txu.decisions ++ [x.val]) ∧
    (∀ word, got 0x19 → (r.phase = 1 ∨ r.phase = 2) → exec (.xtAbortreq c x word) s = .next (t.broadcastAbort x.val word.toNat)) ∧
    (got 0x1A → r.phase = 3 → r.yes &&& (r.done ||| 2 ^ c.src.val) = r.yes →
      ∃ u, exec (.xtDone c x) s = .next u ∧ u.pkt x.val = XRec.init ∧ u.txu.decisions = t.txu.decisions.filter (fun y => y ≠ x.val)) ∧
    (s.role = 2 → (s.pkt x.val).phase = 2 →
      exec (.voteTimeout x) s = .next (s.broadcastAbort x.val (abortWord 0x14 0 (56 + x.val) s.me none)))

/-- From R271 and R273 to R276: at an instance. XT_PREPARE asks for its vote; PREPARE_RECORD_DONE makes the slot PREPARED and keeps its log; XT_COMMIT of a
PREPARED slot is its commit point under a committed record, with XT_DONE once the log is applied; XT_ABORT closes it with the member's abort word; the query
and the in-doubt event go out for a PREPARED slot; a query is answered with the slot's state, and by a manager that has decided with the commit; XT_EPOCH at
a manager without open transactions sends the settings again. -/
def Obligations.PackageTransactionsAtAnInstance : Prop :=
  ∀ (s : State) (c : CasHdr) (t : State) (x : Pkt),
    let k := 56 + x.val
    let got := fun (typ : Nat) => s.casTake c typ false = (t, true)
    (got 0x15 → exec (.xtPrepare c x) s = .next ((t.updSlot k fun y => { y with asked := true }).tryVote x.val)) ∧
    ((s.slot k).asked = true → (s.slot k).st = .active → (s.slot k).log ≠ [] → (∀ m ∈ (s.slot k).members, (s.slot k).ready.contains m.1 = true) →
      s.flag F.TXU_RECBASE_VALID 0 = true →
      ∃ u, exec (.prepareRecordDone x) s = .next u ∧ (u.slot k).st = .prepared ∧ (u.slot k).log = (s.slot k).log ∧
        (∀ m, m ≠ k → u.slot m = s.slot m) ∧ u.mem = s.mem) ∧
    (∀ word, got 0x18 → (t.slot k).st = .active →
      exec (.xtAbort c x word) s = .next ((({ t with txu := { t.txu with records := Store.erase t.txu.records x.val } } : State).txClose k
        (memberWord t.me x.val word.toNat) [] false).recovered x.val false)) ∧
    (got 0x17 → (t.slot k).st = .prepared →
      let u := (({ t with txu := { t.txu with records := Store.insert t.txu.records x.val { log := (t.slot k).log, committed := true } } } : State).commitPoint
        k).recovered x.val true
      ((u.slot k).st ≠ .closed → exec (.xtCommit c x) s = .next u) ∧
      ((u.slot k).st = .closed →
        exec (.xtCommit c x) s = .next (({ u with txu := { u.txu with records := Store.erase u.txu.records x.val } } : State).send 0x1A false true u.mgr [x.val]))) ∧
    ((s.slot k).st = .prepared → exec (.indoubtQuery x) s = .next (s.send 0x1C false true s.mgr [x.val, 0, s.queryState x.val])) ∧
    ((s.slot k).st = .prepared → (s.slot k).indoubt = false →
      exec (.txIndoubt x) s = .next ((s.updSlot k fun y => { y with indoubt := true }).emit Ev.TX_INDOUBT (Un.pkt x.val) 0 0)) ∧
    (∀ st, got 0x1C → c.bc = true → exec (.xtQuery c x false st) s = .next (t.send 0x1C false true t.mgr [x.val, 1, t.queryState x.val])) ∧
    (∀ st, got 0x1C → c.bc = false → t.role = 2 → x.val ∈ t.txu.decisions → exec (.xtQuery c x false st) s = .next (t.send 0x17 true true 0 [x.val])) ∧
    (got 0x1B → t.role = 2 → (∀ y < 8, (t.pkt y).phase = 0) → exec (.xtEpoch c) s = .next (t.resendCfg c.src.val))

/-! ## Hints, service calls and registers -/

/-- From R325, R326, R328 to R331 and R334: the hints at local memory that no fault stops. `DEAD` passes the dead point of the whole blocks inside its range,
does nothing where there are none, and waits for a granule that a transaction holds; `PIN` that is refused answers its status, and one that it grants pins
the chunks and asks for those that are not valid; `UNPIN` unpins and answers the count; `PREFETCH` sends one read for each chunk. When every read of a pin
has returned, the spout goes on with status 0 and the number of chunks newly pinned. -/
def Obligations.HintsAct : Prop :=
  (∀ (s : State) (h : Hdr) (aa : BitVec 3) (gl : BitVec 4) (l : Nat),
      let n := h.sp.val
      let x := s.sp n
      let t := s.begun h
      let len := x.gv gl.toNat
      let lo := (l + 4095) / 4096
      let hi := (l + len) / 4096
      let k := chunkSpan l len
      let span := if len = 0 then (0, 0) else k
      s.addrFault n (x.av aa.toNat) 1 = none → s.decodeAddr (x.av aa.toNat) = .localMem l →
      (s.issues h .hnt { Use.none with names := [16 + aa.toNat, gl.toNat], all := true } → x.tx = none → s.hintFault n l len true = 0 →
        (hi ≤ lo → exec (.dead h aa gl) s = .next (t.done h)) ∧
        (∀ u, lo < hi → t.conflict true none ((List.range (64 * (hi - lo))).map (64 * lo + ·)) = (.go, u) →
          exec (.dead h aa gl) s = .next ((u.deadPoint lo hi).done h)) ∧
        (∀ u, lo < hi → t.conflict true none ((List.range (64 * (hi - lo))).map (64 * lo + ·)) = (.hold, u) →
          exec (.dead h aa gl) s = .next (t.holdFor n (.dead h aa gl)))) ∧
      (s.issues h .hnt { Use.none with names := [16 + aa.toNat, gl.toNat], reads := true } → s.hintFault n l len false = 0 →
        (∀ st, s.pinStatus x.cmd.label l len = st + 1 →
          exec (.pin h aa gl) s = .next ((t.updSp n fun y => y.setG gl.toNat (pinWord (st + 1) 0)).done h)) ∧
        (s.pinStatus x.cmd.label l len = 0 →
          let p : State := { t with basin := (List.range k.2).foldl (fun b i => b.pin (k.1 + i) (classOf x.cmd.label)) t.basin }
          let missing := (List.range k.2).filter fun i => (p.basin.line (k.1 + i)).any fun l => l.valid != 15
          exec (.pin h aa gl) s = .next (((foldS missing p fun v i => v.ask n (.pin (k.1 + i)) (v.me * 2 ^ 37 + 256 * (k.1 + i)) 256 .rd []).updSp n
            fun y => { y with waiting := .pinFill gl.toNat (k.2 - s.basin.pinnedOf k.1 k.2) k.1 k.2, waitPc := y.nextPc h }).setSpSt n 3)) ∧
        (∀ dst, exec (.prefetch h aa gl dst) s = .next ((foldS (List.range span.2) t fun v i =>
          v.offer (8 + n) { origin := .prefetch n dst, kind := .rd, addr := 256 * (span.1 + i), size := 256, mask := 0, data := [], label := x.cmd.label,
                            reqNo := v.spReq n, priv := x.cmd.priv != 0, tx := none }).done h))) ∧
      (s.issues h .hnt { Use.none with names := [16 + aa.toNat, gl.toNat] } → s.hintFault n l len false = 0 →
        let free := fun (q : Line) => if span.1 ≤ q.chunk ∧ q.chunk < span.1 + span.2 then { q with pinned := none } else q
        exec (.unpin h aa gl) s = .next ((({ t with basin := { t.basin with lines := t.basin.lines.map free } } : State).updSp n
          fun y => y.setG gl.toNat (pinWord 0 (s.basin.pinnedOf span.1 span.2))).done h))) ∧
  (∀ (s : State) (page : Sp) (gl count c0 k : Nat), let n := page.val
      s.spSt n = 3 → (s.sp n).waiting = .pinFill gl count c0 k → (s.sp n).outs.any Out.pinning = false →
      exec (.pinFillDone page) s = .next
        (((s.updSp n fun y => { y.setG gl (pinWord 0 count) with waiting := .none }).setSpSt n 2).goto n (s.sp n).waitPc))

/-- From R516 to R518: `SVC.CALL` of a function that the font offers joins the font's queue with its four arguments and waits; `SVC.POST` joins it and goes on;
the answer of the oldest call writes its status and values into GD and GD + 1 of the spout that waits for it and wakes it. A function that is not offered
faults with 0x78 (SVC_UNKNOWN). -/
def Obligations.ServiceCallsAreAnswered : Prop :=
  ∀ (s : State) (h : Hdr) (func : BitVec 16) (ga gd : BitVec 4),
    let n := h.sp.val
    let x := s.sp n
    let t := s.begun h
    let f := func.toNat
    (s.issues h .svc { Use.none with names := svcRegs ga.toNat ++ [gd.toNat, (gd.toNat + 1) % 16] } → x.tx = none →
      (s.svcFault f x.cmd.label false = 0 →
        exec (.svcCall h func ga gd) s = .next (((t.addCall { sp := n, func := f, args := x.svcArgs ga.toNat, call := true, gd := gd.toNat }).updSp n
          fun y => { y with waiting := .service, waitPc := after h x.pc }).setSpSt n 3)) ∧
      (svcFuncs.contains f = false → exec (.svcCall h func ga gd) s = .next (t.fault n 0x78 0 0))) ∧
    (s.issues h .svc { Use.none with names := svcRegs ga.toNat } → x.tx = none → s.svcFault f x.cmd.label true = 0 →
      exec (.svcPost h func ga) s = .next ((t.addCall { sp := n, func := f, args := x.svcArgs ga.toNat, call := false, gd := 0 }).done h)) ∧
    (∀ c l st v w, s.font.calls = c :: l → s.font.answer = some (st, v, w) →
      let u : State := { s with font := { s.font with calls := l, answer := none } }
      (c.call = false → exec .svcAnswer s = .next u) ∧
      (c.call = true → (s.sp c.sp).waiting = .service →
        exec .svcAnswer s = .next (((u.updSp c.sp fun y =>
          { (y.setG c.gd (st * 2 ^ 56 + v % 2 ^ 32)).setG ((c.gd + 1) % 16) w with waiting := .none }).wakeSp c.sp).goto c.sp (s.sp c.sp).waitPc)))

/-- From R184: in the font, `RDREG` reads the register at a[AA] into GD and `WRREG` writes g[GS] to it as a host write of 8 B, each at an aligned address of the
instance's own register window that answers; one that does not answer faults with 0x08 (MEM_DECERR), a misaligned one with 0x06 (ADDR_ALIGN). -/
def Obligations.FontReadsAndWritesRegisters : Prop :=
  ∀ (s : State) (h : Hdr) (g : BitVec 4) (aa : BitVec 3) (off : Nat),
    let n := h.sp.val
    let x := s.sp n
    let a := x.av aa.toNat
    let t := s.begun h
    s.issues h .prv { Use.none with names := [g.toNat, 16 + aa.toNat] } →
    (a % 8 ≠ 0 → exec (.rdreg h g aa) s = .next (t.fault n 0x06 a 0)) ∧
    (a % 8 = 0 → s.decodeAddr a = .regWin off →
      (∀ v u, t.winRead off 8 = some (v, u) → exec (.rdreg h g aa) s = .next ((u.updSp n fun y => y.setG g.toNat v).done h)) ∧
      (t.winRead off 8 = none → exec (.rdreg h g aa) s = .next (t.fault n 0x08 a 0)) ∧
      (x.tx = none →
        let u := (t.done h).regWrite off 8 (x.gv g.toNat) true
        (u.ctl.decerr = false → exec (.wrreg h g aa) s = .next { u with ctl := s.ctl }) ∧
        (u.ctl.decerr = true → exec (.wrreg h g aa) s = .next (t.fault n 0x08 a 0))))

/-- From R11, R52 and R110: a host's read of a register that answers gives its value with OK and whatever the read changes, and one of an offset where nothing
answers gives DECERR and changes nothing; the data of a DECERR is zero. A host's write of 8 B to a register that answers is stored by that register's rule,
and a task's access to a register that is not its own answers DECERR. -/
def Obligations.ControlPortAnswers : Prop :=
  ∀ (s : State) (off : BitVec 24) (bytes : Nat) (v : Word),
    (∀ x t, s.winRead off.toNat bytes = some (x, t) → exec (.registerRead off bytes true) s = .next (t.answer x)) ∧
    (s.winRead off.toNat bytes = none → exec (.registerRead off bytes true) s = .next s.decerr) ∧
    s.decerr.ctl = { decerr := true, data := 0 } ∧
    (s.taskMay (regAt (off.toNat - off.toNat % 8)) = false →
      exec (.registerRead off bytes false) s = .next s.decerr ∧ exec (.registerWrite off bytes false v) s = .next s.decerr) ∧
    (∀ r i, off.toNat % 8 = 0 → bytes = 8 → regAt off.toNat = some (r, i) → r ≠ .DBL_PTR → s.answers off.toNat = true → s.pageDown off.toNat = false →
      exec (.registerWrite off bytes true v) s = .next (s.hostReg r i v.toNat).ok)

/-- R12: a read or a write of an offset at which no register is defined completes with DECERR and changes no state. -/
def Obligations.UndefinedOffsetsAnswerDecerr : Prop :=
  ∀ (s : State) (off : BitVec 24) (bytes : Nat) (host : Bool) (v : Word), let a := off.toNat - off.toNat % 8
    regAt a = none → winAt a = none →
      exec (.registerRead off bytes host) s = .next s.decerr ∧ exec (.registerWrite off bytes host v) s = .next s.decerr

/-- From R15: a register of the window reads the value last put into it, and putting a value into one register or field leaves every other. The access codes: a
field that software may not write keeps its value, RW takes the written one, RWS takes it only while its unit is stopped, W1C clears the bits written 1, W1S
sets them, and WO stores nothing and so reads as zero. -/
def Obligations.RegistersHoldWhatIsWritten : Prop :=
  (∀ (s : State) (r q : Reg) (i j v : Nat), v < 2 ^ 64 →
      (s.setReg r i v).reg r i = v ∧ (q.addr j ≠ r.addr i → (s.setReg r i v).reg q j = s.reg q j) ∧
      (∀ f : Field, f.lo ≤ f.hi → f.hi < 64 → (s.wr f i v).rd f i = v % 2 ^ (f.hi + 1 - f.lo)) ∧
      (∀ f g : Field, f.lo ≤ f.hi → f.hi < 64 → g.reg = f.reg → (g.hi < f.lo ∨ f.hi < g.lo) → (s.wr f i v).rd g i = s.rd g i)) ∧
  (∀ (w : Nat) (old new : BitVec w) (run : Bool),
      let f := fun (a : Acc) => BitVec.ofNat w (a.store run old.toNat new.toNat)
      f .RO = old ∧ f .RC = old ∧ f .RW = new ∧ f .RWS = (if run then old else new) ∧ f .W1C = old &&& ~~~new ∧ f .W1S = old ||| new ∧ f .WO = 0)

/-! ## Doorbells and commands -/

/-- From R16, R110, R112, R113 and R126: a doorbell page whose unit is not being reset, in an instance that is not IDLE. A TAIL written while its domain is ON
is checked and stored, and while the domain is neither ON nor DARK it is held; a ring size of 4 to 16, judged as it would be stored, is taken and any other
refused with an event; EN, STOP and RESUME act as DBL_CTL says; and a task's TAIL write to a page that it does not own answers DECERR. -/
def Obligations.DoorbellsAreWritten : Prop :=
  ∀ (s : State) (page : Sp) (v : Word), s.unitResetting page.val = false → s.rd F.GLB_PSTATE_CUR 0 ≠ 1 →
    let n := page.val
    let d := s.domSt (domOfSpout n)
    (d = 2 → exec (.tailWrite page v 8 true) s = .next (s.storeTail n v.toNat).ok ∧ exec (.tailWrite page v 4 true) s = .next (s.storeTail n v.toNat).ok) ∧
    (d ≠ 2 → d ≠ 4 → exec (.tailWrite page v 8 true) s = .next (s.updSp n fun x => { x with tailHeld := some (v.toNat % 2 ^ 32) }).ok) ∧
    (s.flag F.DBL_CTL_OWNER n = false → exec (.tailWrite page v 8 false) s = .next s.decerr) ∧
    (s.answers (Reg.DBL_RING.addr n) = true →
      let size := F.DBL_RING_LOG2N.of (s.proposed .DBL_RING n v.toNat (!s.pageStopped n))
      (4 ≤ size → size ≤ 16 → exec (.dblRingWrite page v) s = .next (s.storeReg .DBL_RING n v.toNat (!s.pageStopped n)).ok) ∧
      (size = 0 → exec (.dblRingWrite page v) s = .next (s.spEvent n 0x83 1 0).ok) ∧
      (1 ≤ size → size ≤ 3 ∨ 16 < size → exec (.dblRingWrite page v) s = .next (s.spEvent n 0x83 2 0).ok)) ∧
    (s.answers (Reg.DBL_CTL.addr n) = true →
      exec (.spoutEnable page v) s = .next (s.wDblCtl n v.toNat).ok ∧ exec (.spoutStop page) s = .next (s.wDblCtl n (s.reg .DBL_CTL n + 8)).ok ∧
      exec (.spoutResume page) s = .next (s.wDblCtl n (s.reg .DBL_CTL n + 4)).ok)

/-- R113: a new TAIL between HEAD and HEAD + size stands in DBL_PTR; one beyond the ring leaves it and sends the SLC or JET event that names the page, and an
equal one does nothing. -/
def Obligations.TailsAreChecked : Prop :=
  ∀ (s : State) (n v : Nat), v < 2 ^ 32 →
    (v = s.tail n → s.storeTail n v = s) ∧
    (v ≠ s.tail n → s.ringSize n < (v + 2 ^ 32 - s.head n) % 2 ^ 32 →
      s.storeTail n v = s.spEvent n (if n < 160 then 0x06 else 0x0B) v (s.head n)) ∧
    (v ≠ s.tail n → (v + 2 ^ 32 - s.head n) % 2 ^ 32 ≤ s.ringSize n →
      (s.storeTail n v).tail n = v ∧ (s.storeTail n v).head n = s.head n ∧ (s.storeTail n v).mem = s.mem)

/-- From R111, R114, R115 and R244: COMMAND_FETCH in FETCH asks for the 64 B entry at HEAD, and answers an entry outside local memory itself; its return starts
the command as takeEntry says, faults with 0x95 (CMD_FETCH), or is a bus error where other channels are active. COMMAND_COMPLETE of an ending command whose
writes are all answered completes it, after its completion record has been accepted where it asked for one; on a jet's or a core's page that is not enabled
it moves HEAD on by one modulo 2^32, or to TAIL after a compute-part reset, and leaves the spout IDLE after code 0, HALTED after a compute-part reset and
FAULTED after another code. -/
def Obligations.CommandsRunThroughTheRing : Prop :=
  ∀ (s : State) (page : Sp), let n := page.val
    (s.spSt n = 1 → (s.sp n).finish = none → s.domOn (domOfSpout n) = true → s.mayFetch n = true → (n < 32 → s.sluice.draining = false) →
      ((s.sp n).outs.any fun o => o.need == .entry) = false →
      let owner := s.flag F.DBL_CTL_OWNER n
      let a := s.entryAddr n
      let s1 := s.updSp n fun y =>
        { y with cmd := { CmdInfo.none with label := if owner then s.rd F.DBL_CTL_BLABEL n else 0, priv := if owner then 0 else 1 },
                 pc := a, lines := [], loops := [], waiting := .none, prog := none, fences := [], tx := none }
      (s.isLocal a = true → exec (.commandFetch page) s = .next (s1.ask n .entry a 64 .rd [])) ∧
      (s.isLocal a = false →
        let o : Out := { idx := (s.sp n).nextIdx, need := .entry, addr := a, pc := a, seq := (s.sp n).seq, write := false, remote := false, accepted := false,
                         resp := some (9, []) }
        exec (.commandFetch page) s = .next (s1.updSp n fun y => { y with outs := y.outs ++ [o], nextIdx := (s.sp n).nextIdx + 1 }))) ∧
    (∀ o code d, ((s.sp n).outs.find? fun o => o.need == .entry) = some o → o.resp = some (code, d) → s.spSt n = 1 →
      let s1 := s.updSp n fun x => { x with outs := x.outs.filter fun y => y.idx ≠ o.idx }
      let stops := (code = 1 ∨ code = 2) ∧ s.notAlone n = true
      (code = 0 → exec (.commandEntryReturn page) s = .next (s1.takeEntry n ((List.range 8).map fun k => leNat (sliceB d (8 * k) 8)))) ∧
      (code ≠ 0 → ¬ stops → exec (.commandEntryReturn page) s = .next (s1.fault n 0x95 o.addr 0)) ∧
      (stops → exec (.commandEntryReturn page) s = .next (s.busRead n o))) ∧
    (∀ code, (s.sp n).finish = some code → (s.sp n).writesOpen = false → (code = 0 → (s.sp n).writeFailed = false) → s.evFull = false →
      (n < 32 → (s.rd F.SLC_GSTOP_STOPMASK 0).testBit n = false) →
      (s.wantsRecord n = false → exec (.commandComplete page) s = .next (s.completeCmd n code)) ∧
      (∀ o, (s.sp n).recordOut = some o → exec (.commandComplete page) s = .next (s.completeCmd n code)) ∧
      (∀ o, s.wantsRecord n = true → (s.sp n).recordOut = none →
        let u := s.ask n .record (s.sp n).cmd.craddr 16 .wr (s.recordBytes n code)
        (u.sp n).recordOut = some o →
          exec (.commandComplete page) s = .next (if o.accepted ∨ o.resp.isSome = true then u.completeCmd n code else u)) ∧
      ((s.sp n).tx = none → 32 ≤ n → s.flag F.DBL_CTL_EN n = false →
        let t := s.completeCmd n code
        (t.sp n).finish = none ∧ (code ≠ 0xF0 → t.head n = (s.head n + 1) % 2 ^ 32) ∧ (code = 0xF0 → t.head n = s.tail n) ∧
          t.spSt n = (if code = 0 then 0 else if code = 0xF0 then 6 else 5) ∧ t.mem = s.mem))

/-- From R122 and R123: a returned program line is held and the spout goes on; a failed one faults with 0x0B (FETCH_ERROR), or is a bus error where other
channels are active. A returned read of data is delivered to what it was asked for and the spout goes on; a returned poll is compared with the condition of
its WAIT. From R186 and R234: a resource goes to the instruction that waits longest for it once everything that instruction needs is free, and a staging
slot to the channel that has waited longest. -/
def Obligations.ResponsesAndGrantsLetSpoutsGoOn : Prop :=
  ∀ (s : State) (page : Sp), let n := page.val
    (∀ (addr : PkgAddr) o code d, ((s.sp n).outs.find? fun o => o.need == .line (addr.toNat / 256 * 256)) = some o → o.resp = some (code, d) →
      s.inCommand n = true → (s.sp n).finish = none → (n < 32 → (s.rd F.SLC_GSTOP_STOPMASK 0).testBit n = false) →
      let u := s.updSp n fun y => y.drop o
      let stops := (code = 1 ∨ code = 2) ∧ s.notAlone n = true
      (code = 0 → exec (.programLineReturn page addr) s = .next ((u.updSp n fun y => y.hold (addr.toNat / 256 * 256) d).goOn n)) ∧
      (code ≠ 0 → ¬ stops → exec (.programLineReturn page addr) s = .next (u.fault n 0x0B (addr.toNat / 256 * 256) 0)) ∧
      (stops → exec (.programLineReturn page addr) s = .next (s.busRead n o))) ∧
    (∀ idx o d, ((s.sp n).outs.find? fun o => decide (o.idx = idx) && o.isData && o.need != .record) = some o → o.resp = some (0, d) →
      s.inCommand n = true → (s.sp n).finish = none → (n < 32 → (s.rd F.SLC_GSTOP_STOPMASK 0).testBit n = false) →
      (o.need ≠ .poll → exec (.memoryResponse page idx) s = .next ((s.updSp n fun y => (y.drop o).deliver o 0 d).goOn n)) ∧
      (o.need = .poll → exec (.memoryResponse page idx) s = .next ((s.updSp n fun y => y.drop o).polled n d))) ∧
    (∀ (e : Jet) (unit : Fin 5) w rest, let j := s.jet e.val
      let us := j.wanted w
      Store.get [] j.waiting unit.val = w :: rest → (us.all (fun u => (Store.get [] j.waiting u).head? == some w)) = true → j.freeFor w.1 us = true →
      let s1 := (s.updJet e.val fun j =>
        { j with holder := us.foldl (fun h u => Store.put none h u (some w.1)) j.holder,
                 waiting := us.foldl (fun m u => Store.put [] m u ((Store.get [] m u).drop 1)) j.waiting }).updSp w.1 fun x => { x with waiting := .none }
      s1.issuable w.1 false = true → exec (.resourceGrant e unit) s = .next (s1.runInsn w.2)) ∧
    (∀ m rest k, s.sluice.waiters = m :: rest → s.freeStaging = some k →
      exec .stagingSlotGrant s = .next (((({ s with sluice := { s.sluice with waiters := rest } } : State).takeStaging m k)).startStaged m)) ∧
    (s.freeStaging = none → exec .stagingSlotGrant s = .next s)

/-! ## Engine resets and the sluice -/

/-- From R216 and R248: an engine reset that its block takes ends the commands of its spouts and marks the unit as being reset; when it is done, the unit is as
at reset. From R244 to R247: a bus error or a read timeout while not exactly one channel is active records its address and code and begins the drain;
further ones during the drain are counted; while a write of an active channel is open the drain goes on, and once none is, every active channel is stopped,
STOPMASK and GERR say so and the events are sent; CONT and ABANDON act as SLC_CTL says. -/
def Obligations.EnginesAndTheSluiceStop : Prop :=
  (∀ (s : State) (e : Jet) (c : Chan),
      (s.answers (Reg.JET_CTL.addr e.val) = true → (s.jet e.val).resetting = false →
        exec (.jetEngineReset e) s = .next ((s.resetSpouts (jetSpouts e.val)).updJet e.val fun j => { j with resetting := true }).ok) ∧
      ((s.jet e.val).resetting = true →
        ∃ t, exec (.jetResetDone e) s = .next t ∧ t.jet e.val = JetState.init ∧ t.reg .JET_NFLAG e.val = Reg.resetVal .JET_NFLAG e.val) ∧
      (s.answers (Reg.SLC_CTL.addr c.val) = true → exec (.slcEngineReset c) s = .next (s.wSlcCtl c.val (s.reg .SLC_CTL c.val + 16)).ok) ∧
      ((s.chan c.val).resetting = true →
        ∃ t, exec (.slcResetDone c) s = .next t ∧ t.chan c.val = { ChanState.init with seenReq := (s.chan c.val).seenReq })) ∧
  (∀ (s : State) (a : PkgAddr) (c : Chan),
      (s.sluice.draining = false → s.slcActive.length ≠ 1 →
        let t : State := { ((s.wr F.SLC_GERR_ADDR 0 a.toNat).wr F.SLC_GERR_CODE 0 1) with sluice := { s.sluice with draining := true } }
        exec (.busError a false) s = .next t ∧
        exec (.sluiceReadTimeout a) s = .next { ((s.wr F.SLC_GERR_ADDR 0 a.toNat).wr F.SLC_GERR_CODE 0 3) with sluice := { s.sluice with draining := true } }) ∧
      (s.sluice.draining = true →
        exec (.busError a true) s = .next (s.bump F.SLC_GSTOP_LATE 0 1) ∧ exec (.sluiceReadTimeout a) s = .next (s.bump F.SLC_GSTOP_LATE 0 1)) ∧
      (s.sluice.draining = false → exec .busStopDrainDone s = .next s) ∧
      (s.sluice.draining = true →
        let u := foldS s.slcActive s fun t n => if t.spSt n = 2 then t.contMov n false else t
        (u.slcActive.any u.writing = true → exec .busStopDrainDone s = .next u) ∧
        (u.slcActive.any u.writing = false →
          let u1 := foldS u.slcActive ({ u with sluice := { u.sluice with draining := false } } : State) fun t n => t.stopChan n
          let u2 := ((u1.wr F.SLC_GSTOP_STOPMASK 0 (maskOf u.slcActive)).wrB F.SLC_GERR_STOPPED 0 true).bump F.SLC_GSTOP_STOPS 0 1
          let u3 := foldS u.slcActive u2 fun t n => t.spEvent n 0x81 ((t.sp n).cmd.cmdId * 2 ^ 16 + 0xF2) (t.rd F.DBL_FPC_PC n)
          exec .busStopDrainDone s = .next ((u3.emit 0x0903 Un.inst (u3.rd F.SLC_GERR_ADDR 0) (u3.rd F.SLC_GERR_CODE 0)).clearStop))) ∧
      (s.sluice.draining = true → s.slcActive = [] →
        ∃ t, exec .busStopDrainDone s = .next t ∧ t.sluice.draining = false ∧ t.rd F.SLC_GSTOP_STOPMASK 0 = 0 ∧ t.mem = s.mem) ∧
      (s.answers (Reg.SLC_CTL.addr c.val) = true →
        exec (.slcCont c) s = .next (s.wSlcCtl c.val (s.reg .SLC_CTL c.val + 4)).ok ∧
        exec (.slcAbandon c) s = .next (s.wSlcCtl c.val (s.reg .SLC_CTL c.val + 8)).ok))

/-- From R238 to R241 and R251: the pause. SLC_CTL and SLC_PREQ take what is written; a burst length, judged as it would be stored, is taken from 1 to 8 and
refused with an event otherwise; a channel that PAUSE is set for pauses once its instruction may; one in PAUSED that neither PAUSE nor the paced REQ holds
goes on where it stood: it starts its staged instruction, issues the next one, or continues the one in progress; at the end of a burst that nothing holds,
the instruction goes on. -/
def Obligations.ChannelsPause : Prop :=
  ∀ (s : State) (c : Chan) (v : Word), let n := c.val
    (s.answers (Reg.SLC_CTL.addr n) = true → exec (.slcPause c v) s = .next (s.wSlcCtl n v.toNat).ok) ∧
    (s.answers (Reg.SLC_CFG.addr n) = true →
      let burst := F.SLC_CFG_BURST.of (s.proposed .SLC_CFG n v.toNat (!s.slcStopped n))
      (1 ≤ burst → burst ≤ 8 → exec (.slcCfgWrite c v) s = .next (s.storeReg .SLC_CFG n v.toNat (!s.slcStopped n)).ok) ∧
      (burst = 0 → exec (.slcCfgWrite c v) s = .next (s.spEvent n 0x04 1 0).ok) ∧
      (8 < burst → exec (.slcCfgWrite c v) s = .next (s.spEvent n 0x04 2 0).ok)) ∧
    (∀ req, s.answers (Reg.SLC_PREQ.addr n) = true → s.spSt n ≠ 4 →
      ∃ t, exec (.slcPreqWrite c req) s = .next t ∧ (t.chan n).seenReq = req ∧ t.spSt n = s.spSt n) ∧
    (s.flag F.SLC_CTL_PAUSE n = true → s.canPause n = true → (s.contMov n false).canPause n = true → s.paced n = false →
      ∃ t, exec (.pauseComplete c) s = .next t ∧ t.spSt n = 4 ∧ t.rd F.SLC_STAT_PCAUSE n = 1 ∧ t.mem = (s.contMov n false).mem) ∧
    (s.spSt n = 4 → s.flag F.SLC_CTL_PAUSE n = false → (s.paced n = false ∨ (s.chan n).seenReq = true) → (s.sp n).txAbort = none →
      let u := (s.wr F.SLC_STAT_PCAUSE n 0).setSpSt n 2
      (∀ i, (s.sp n).waiting = .grant i → exec (.pauseRelease c) s = .next (u.startStaged n)) ∧
      ((s.sp n).waiting = .none → (s.sp n).prog = none → exec (.pauseRelease c) s = .next (u.goOn n)) ∧
      ((s.sp n).waiting = .none → (s.sp n).prog.isSome = true →
        exec (.pauseRelease c) s = .next ((u.updSp n fun y => { y with waiting := .none }).contMov n true))) ∧
    (∀ p, (s.sp n).prog = some p → s.spSt n = 2 → s.paced n = true → s.flag F.SLC_CTL_PAUSE n = false → s.sluice.draining = false →
      (s.sp n).waiting = .none → (s.sp n).finish = none → p.closed = none → p.elems = p.limit → (s.sp n).settled = true →
      ((s.sp n).outs.any Out.isBulk) = false → exec (.burstSample c) s = .next (s.contMov n true))

/-! ## Fabric ports and the intake -/

/-- From R42 to R46, R48, R319 and R562: a request beat waits behind the beats that wait already, or while READY is low, or, with TAGWAIT set, while a response
under its TAG is still to come; one that need not wait answers NOT_READY at a port that is not OPEN, and at an OPEN port it is checked, a malformed one
answering DECERR. The response at the head leaves first, and the beats that waited are taken again. -/
def Obligations.FabricBeatsAreTaken : Prop :=
  ∀ (s : State) (p : FPort) (host : Bool) (b : Beat), s.rd F.GLB_PSTATE_CUR 0 ≠ 1 →
    let n := p.val
    let w := Store.get [] s.intake.tagWait n
    (w ≠ [] → exec (.fabricRequest p host b) s = .next (s.setWaiting n (w ++ [(host, b)]))) ∧
    (w = [] → s.readyLow n = true → exec (.fabricRequest p host b) s = .next (s.setWaiting n [(host, b)])) ∧
    (w = [] → s.readyLow n = false →
      (s.tagBusy n b.tag.toNat = true →
        exec (.fabricRequest p host b) s = .next ((s.setWaiting n [(host, b)]).wrB F.ITK_FPSTAT_TAGWAIT n true)) ∧
      (s.tagBusy n b.tag.toNat = false → s.fpSt n ≠ 2 → exec (.fabricRequest p host b) s = .next ((s.notReady n b).setWaiting n [])) ∧
      (s.tagBusy n b.tag.toNat = false → s.fpSt n = 2 → exec (.fabricRequest p host b) s = .next ((s.fabricChecked n host b).setWaiting n []))) ∧
    (beatBad b = true → s.fabricChecked n host b = (s.addTag n b.tag.toNat).refuse n b 2) ∧
    (∀ r rest, Store.get [] s.intake.resp n = r :: rest →
      let t := ({ s with intake := { s.intake with resp := Store.put [] s.intake.resp n rest } } : State).beatGone n r
      exec (.responseBeatTransfer p) s = .next (t.takeTagWait n (Store.get [] t.intake.tagWait n))) ∧
    (Store.get [] s.intake.resp n = [] → exec (.responseBeatTransfer p) s = .next s)

/-- From R48 to R50 and R94: a port in NEGOTIATE that completes opens in phase 8 under a map that is not being filled, and no other port changes; the third
failure in a row before any completed negotiation sends FPORT_NEG_FAIL; and a port in QUIESCE with nothing left in flight goes DOWN while RESET_COMPUTE is
held, and otherwise on to NEGOTIATE with its counters as at reset. -/
def Obligations.PortsNegotiateAndQuiesce : Prop :=
  ∀ (s : State) (p : FPort), let n := p.val
    (s.fpSt n = 1 → s.phase = 8 → s.map.mode ≠ 0 → s.flag F.GLB_MAPSTAT_BUSY 0 = false →
      ∃ t, exec (.negotiationComplete p) s = .next t ∧ t.fpSt n = 2 ∧ t.mem = s.mem ∧ (∀ m, m < 8 → m ≠ n → t.fpSt m = s.fpSt m)) ∧
    (s.fpSt n = 1 → Store.get false s.intake.negDone n = false →
      let k := Nat.min 4 (Store.get 0 s.intake.negFail n + 1)
      let t : State := { s with intake := { s.intake with negFail := Store.put 0 s.intake.negFail n k } }
      exec (.negotiationRetry p) s = .next (if k = 3 then t.emit Ev.FPORT_NEG_FAIL (Un.fport n) 0 0 else t)) ∧
    (s.fpSt n = 3 → s.portBusy n = false →
      (s.boot.compute = true → exec (.quiesceDrainDone p) s = .next (s.portDown n) ∧ (s.portDown n).fpSt n = 0) ∧
      (s.boot.compute = false →
        let t := ((s.portDown n).setReg .ITK_FPSTAT n 0).toNegotiate n
        exec (.quiesceDrainDone p) s = .next t ∧ t.fpSt n = 1))

/-- From R24, R314, R316, R317 and R319: the head of a source is admitted where its accounts allow it and waits otherwise, and after a fabric port's source the
port's waiting beats are taken; the refill gives each requester its effective guarantee where the guarantees fit the limit, at most its burst, and bounds
its share; and a pseudo-channel that takes requests accepts the first in rotation that it can, passing over sources that present nothing, and moves the
rotation on. -/
def Obligations.RequestsAreAdmittedAndAccepted : Prop :=
  ∀ (s : State) (src : Fin 171) (pc : Pc),
    let beats := fun (t : State) => if src.val < 8 then t.takeBeats src.val else t
    (s.heldAt src.val = [] → exec (.intakeAdmit src) s = .next (beats s)) ∧
    (∀ r rest, s.heldAt src.val = r :: rest → s.winFull r = false →
      let how := s.admission r.reqNo (classOf r.label) (s.gloc (r.addr / 64)).pc
      (how ≠ .held → exec (.intakeAdmit src) s = .next (beats ((s.admitAs r how).setHeld src.val rest))) ∧
      (how = .held → exec (.intakeAdmit src) s = .next (beats s))) ∧
    (∀ r rest, s.heldAt src.val = r :: rest → s.winFull r = true → exec (.intakeAdmit src) s = .next (beats s)) ∧
    (s.minSum ≤ s.limit → s.flag F.ITK_ERR_SCALED 0 = false →
      ∃ t, exec .intakeRefill s = .next t ∧ (∀ j < 64, t.rd F.ITK_EFF_EFF j = s.rd F.ITK_REQ_MINBW j ∧
        Store.get 0 t.intake.h j ≤ (s.rd F.ITK_REQ_BURST j * 1024 : Nat) ∧ Store.get 0 t.intake.c j =
          min ((s.rd F.ITK_REQ_BURST j * 1024 : Nat) : Int) (Store.get 0 s.intake.c j + s.rd F.ITK_REQ_MINBW j)) ∧ t.mem = s.mem) ∧
    (s.takes pc.val = false → exec (.orderingPointAccept pc) s = .next s) ∧
    (s.takes pc.val = true →
      let order := (List.range 15).map fun i => ((s.pc pc.val).rot + i) % 15
      (∀ k t, s.rotate pc.val order = some (k, t) →
        let u := t.updPc pc.val fun p => { p with rot := s.nextRot pc.val k order }
        let open1 := u.wr F.PC_STAT_STATE pc.val 1
        let woken := if open1.driftMoved pc.val then open1.askDrift pc.val else open1
        exec (.orderingPointAccept pc) s = .next (if s.pcSt pc.val = 2 then woken else u).censusDone) ∧
      (s.rotate pc.val order = none → exec (.orderingPointAccept pc) s = .next s)) ∧
    (∀ k ks r rs t, s.presented pc.val k = r :: rs → (s.takeWaiting pc.val r).acceptReq pc.val r = some t → s.rotate pc.val (k :: ks) = some (k, t)) ∧
    (∀ k ks, s.presented pc.val k = [] → s.rotate pc.val (k :: ks) = s.rotate pc.val ks)

/-! ## Rills and data integrity -/

/-- From R287 to R290, R293, R341, R346, R347 and R354: what a pseudo-channel does. One whose commands run issues that of the first tier that has one: a closed
bank with eight refreshes owed that comes first is refreshed, and a request alone in the queue, at an open row and with nothing owed, gets its column
command. A foreground entry of the queue is promoted by age; a returned read is decoded and answered, a scrub read decoded only, and a census read kept for
its snapshot; a merge ends where its queue has room; a verify read that corrects again, or is uncorrectable, is a hard error, and one whose granule was
written meanwhile is dropped; a refresh owed counts to 8. From R296, R353, R355 and R360: the scrub of a page of an OPEN pseudo-channel that is not busy
with one queues the reads of its granules and moves its position one page on, or counts a pass at the last; with a period of 0 it does no more than keep
BEHIND. A CE window ends with its counters cleared, and the next one takes CETHR as it stands (R364); a deferral that expires ends with its event. -/
def Obligations.RillsServeTheirQueues : Prop :=
  (∀ (s : State) (pc : Pc), let n := pc.val
      (∀ ready, s.rillRuns n = false → exec (.rillCommandIssue pc ready) s = .next s) ∧
      (∀ ready, s.rillRuns n = true →
        let u := (s.updPc n fun p => { p with clocks := (p.clocks + 1) % 64 }).wrB F.PC_STAT_DRAIN n (s.drainNow n)
        (∀ t, (((s.pc n).tiers s.sched.scrubPrec).findSome? fun k => u.chooseTier n ready k) = some t → exec (.rillCommandIssue pc ready) s = .next t) ∧
        ((((s.pc n).tiers s.sched.scrubPrec).findSome? fun k => u.chooseTier n ready k) = none → exec (.rillCommandIssue pc ready) s = .next u) ∧
        (∀ b : Fin 80, (∀ c < b.val, ((u.pc n).bank c).rfm = false ∧ ((u.pc n).bank c).owed ≠ 8) → ((u.pc n).bank b.val).row = none →
          ((u.pc n).bank b.val).rfm = false → ((u.pc n).bank b.val).owed = 8 → ready.ref.getLsbD b.val = true →
          exec (.rillCommandIssue pc ready) s = .next (u.issueRef n b.val)) ∧
        (∀ e g, (u.pc n).candidates = [(0, e, g)] → (∀ b < 80, ((u.pc n).bank b).rfm = false ∧ ((u.pc n).bank b).owed = 0) →
          u.remapOf (u.gloc g) = none → u.openFor n g = true → readyCol ready e (u.bankG g) = true →
          exec (.rillCommandIssue pc ready) s = .next (u.column n 0 g e))) ∧
      (∀ (k : Fin 64) e, (s.pc n).queue[k.val]? = some e → e.bg = false →
        exec (.agePromote pc k) s = .next (s.updPc n fun p => { p with queue := p.queue.set k.val { e with promoted := true } })) ∧
      (∀ f fl, (s.pc n).flights.find? (fun f => f.req.origin != .verify) = some f →
        let u := s.updPc n fun q => { q with flights := dropFirst (fun f => f.req.origin != .verify) q.flights }
        let data := u.decodeRuns f.req f.newer 0 fl 0 f.raws
        let known := u.decodeRuns { f.req with label := 0 } f.newer 4 fl 0 f.raws
        (f.req.origin = .scrub →
          exec (.readDataReturn pc fl) s = .next (u.decodeRuns f.req f.newer 1 fl 0 (f.raws.map fun e => (e.1, xorBytes e.2 f.req.data))).1) ∧
        (∀ i k, f.req.origin = .census i k → exec (.readDataReturn pc fl) s = .next (known.1.finishRead f.req (f.got ++ known.2) false).censusDone) ∧
        (f.req.origin ≠ .scrub → (∀ i k, f.req.origin ≠ .census i k) →
          exec (.readDataReturn pc fl) s = .next (data.1.finishRead f.req (f.got ++ data.2) true))) ∧
      (∀ fl, (s.pc n).flights.find? (fun f => f.req.origin != .verify) = none → exec (.readDataReturn pc fl) s = .next s) ∧
      (∀ m rest fl, (s.pc n).merges = m :: rest → (s.pc n).room false = true → exec (.mergeReadReturn pc fl) s = .next (s.endMerge m fl true)) ∧
      (∀ f g w rest fl, (s.pc n).flights.find? (fun f => f.req.origin == .verify) = some f → f.raws = (g, w) :: rest →
        let u := s.updPc n fun q => { q with flights := dropFirst (fun f => f.req.origin == .verify) q.flights }
        let x := flipBytes w fl
        let d := u.decodeBytes g (2 ^ 64 - 1) x
        let t := (u.decode g (2 ^ 64 - 1) x 3 0 (if u.freeRemap.isSome then .none else .all)).1
        (f.newer.contains g = true → exec (.verifyReadReturn pc fl) s = .next u) ∧
        (f.newer.contains g = false →
          (∀ y, d = .clean y → exec (.verifyReadReturn pc fl) s = .next t) ∧
          (∀ y a b c, d = .corrected y a b c → exec (.verifyReadReturn pc fl) s = .next (t.hardError g (some y))) ∧
          (∀ a, d = .uncorrectable a → exec (.verifyReadReturn pc fl) s = .next (t.hardError g none)))) ∧
      (∀ b : Fin 80, s.rillRuns n = true →
        ∃ t, exec (.refreshAccrual pc b) s = .next t ∧ ((t.pc n).bank b.val).owed = Nat.min 8 (((s.pc n).bank b.val).owed + 1) ∧
          (∀ c, c ≠ b.val → (t.pc n).bank c = (s.pc n).bank c) ∧ (∀ m, m ≠ n → t.pc m = s.pc m) ∧ t.mem = s.mem ∧ t.regs = s.regs)) ∧
  (∀ (s : State) (pc : Pc), let n := pc.val
      (∀ fl, s.rd F.RAS_SCRUB_PERIOD 0 = 0 → exec (.scrubPage pc fl) s = .next s.updBehind) ∧
      (∀ fl, s.pcSt n = 1 → s.fenced n = false → s.rd F.RAS_SCRUB_PERIOD 0 ≠ 0 → s.map.mode ≠ 0 → (s.pc n).scrubQ = [] →
        let page := (s.pc n).scrubPage
        let u := s.updPc n fun p => { p with scrubQ := s.scrubReads n page fl }
        (page + 1 < pcPages → exec (.scrubPage pc fl) s = .next (u.updPc n fun p => { p with scrubPage := page + 1 }).updBehind) ∧
        (pcPages ≤ page + 1 →
          let v := u.updPc n fun p => { p with scrubPage := 0, passes := p.passes + 1, passStart := u.time.ticks }
          exec (.scrubPage pc fl) s = .next (if u.passes < v.passes then v.emit Ev.SCRUB_PASS Un.inst (v.passes % 65536) 0 else v).updBehind)) ∧
      exec (.ceWindowEnd pc) s = .next (s.updPc n fun q => { q with ceCount := 0, ceSent := false, ceThr := s.rd F.RAS_CFG_CETHR 0, uePages := [] }) ∧
      (s.flag F.SCH_STAT_DEFER 0 = true →
        exec .deferExpire s = .next ((s.setDefer false).emit Ev.DEFER_EXPIRED Un.inst 0 0) ∧ (s.setDefer false).flag F.SCH_STAT_DEFER 0 = false) ∧
      (s.flag F.SCH_STAT_DEFER 0 = false → exec .deferExpire s = .next s))

/-- From R84 and R300 to R306: states of a pseudo-channel. A mismatch of its checker and a retirement end what it does as rillFails and retirePc say; PARK is
entered from OPEN in power state PARK with an empty queue; CRESET of an OPEN one shows CHANNEL-RESET with its registers as at reset, and is refused
elsewhere; self-refresh is entered where the power state wants it, beginning the entry, and left where nothing keeps it; a spare takes the use granted next. -/
def Obligations.RillsChangeState : Prop :=
  ∀ (s : State) (pc : Pc), let n := pc.val
    exec (.rillCheckMismatch pc) s = .next (s.rillFails n) ∧
    exec (.pcRetire pc) s = .next ((s.abandonPc n 2).retirePc n) ∧
    (s.fenced n = true → s.rillFails n = s) ∧
    (s.pcSt n = 1 → s.rd F.GLB_PSTATE_CUR 0 = 2 → (s.pc n).queue = [] →
      exec (.parkEnter pc) s = .next ((((s.abandonPc n 2).closeAll n).issueRfms n).wr F.PC_STAT_STATE n 2)) ∧
    (s.answers (Reg.PC_CTL.addr n) = true →
      (s.pcSt n = 1 →
        let u := s.intoSelfRefresh n
        let t := ((u.resetRegs [.PC_CTL, .PC_STAT, .PC_REFSTAT] n).wr F.PC_STAT_SPARE n (u.rd F.PC_STAT_SPARE n)).wr F.PC_STAT_STATE n 4
        exec (.creset pc) s = .next t.ok) ∧
      (s.pcSt n ≠ 1 → exec (.creset pc) s = .next (s.schRefuse 12).ok)) ∧
    (s.wantsRefresh = true → s.pcSt n = 1 ∨ s.pcSt n = 2 →
      (s.boot.entry = none → exec (.selfRefreshEnter pc) s = .next (s.intoSelfRefresh n).refreshed) ∧
      (∀ k, s.boot.entry = some k → s.boot.entering = false → s.phase ≠ 9 → s.power.shut ≠ 1 →
        exec (.selfRefreshEnter pc) s = .next ((s.beginEntry k).intoSelfRefresh n).refreshed)) ∧
    (∀ a b, s.pcSt n ≠ 3 → s.pcSt n ≠ 4 → exec (.selfRefreshExit pc a b) s = .next s) ∧
    (∀ a b, s.pcSt n = 3 ∨ s.pcSt n = 4 → s.phase = 8 → s.power.shut = 0 → s.boot.entry = none → s.cur < 3 → s.flag F.CAL_STAT_SWITCH 0 = false →
      let t := s.outOfSelfRefresh n a b
      let u := if t.pcSt n = 3 ∨ t.pcSt n = 4 then t.wr F.PC_STAT_STATE n 0 else t
      exec (.selfRefreshExit pc a b) s = .next (if s.pcSt n = 4 then u.emit Ev.CRESET_DONE (Un.pc n) 0 0 else u).tryReady.serveWaits) ∧
    (∀ m : Spare, s.nextGrant m.val = none → exec (.spareHandover m) s = .next s) ∧
    (∀ (m : Spare) a, s.nextGrant m.val = some a →
      (s.spareUse m.val = 0 → exec (.spareHandover m) s = .next ((s.setSpare m.val a.use (a.leg / 2)).startAct a)) ∧
      (s.spareUse m.val ≠ 0 → exec (.spareHandover m) s = .next (((s.endUse m.val).setSpare m.val a.use (a.leg / 2)).startAct a)))

/-- From R87, R88, R90, R91, R307, R313 and R336: a setting in range is stored and one out of range leaves the register and is refused with its event:
privileged regions, byte-check windows, timing and requesters; REMAP needs every port closed. From R327 and R332: DEADCLR empties the dead-range table; and
the pin window's end shows the hit rate, or 255 below 1,024 lookups. From R273 and R278: TXU_RECBASE takes a new base where no package transaction is in
hand, and refuses it with TX_CFG_REFUSED otherwise. -/
def Obligations.SettingsAreChecked : Prop :=
  (∀ (s : State) (i : Fin 4) (j : Fin 64) (k : Fin 3) (f : Fin 2) (v : Word),
      let p := s.proposed .GLB_PREG i.val v.toNat s.anyOpen
      let w := s.proposed .GLB_BCW i.val v.toNat s.anyOpen
      let q := s.proposed .ITK_REQ j.val v.toNat false
      let cp := s.pregError i.val (F.GLB_PREG_EN.of p == 1) (F.GLB_PREG_BASE.of p) (F.GLB_PREG_SIZE.of p)
      let cw := s.bcwError i.val (F.GLB_BCW_EN.of w == 1) (F.GLB_BCW_BASE.of w) (F.GLB_BCW_SIZE.of w)
      (s.answers (Reg.GLB_PREG.addr i.val) = true →
        exec (.pregWrite i v) s = .next (if cp = 0 then s.storeReg .GLB_PREG i.val v.toNat s.anyOpen else s.mapRefuse cp i.val).ok) ∧
      (s.answers (Reg.GLB_BCW.addr i.val) = true →
        exec (.bcwWrite i v) s = .next (if cw = 0 then s.storeReg .GLB_BCW i.val v.toNat s.anyOpen else s.mapRefuse cw i.val).ok) ∧
      (s.answers ((tmgReg k).addr f.val) = true →
        let c := tmgCode (tmgReg k) (s.proposed (tmgReg k) f.val v.toNat (s.tmgRuns f.val))
        exec (.schTmgWrite k f v) s = .next (if c = 0 then (s.storeReg (tmgReg k) f.val v.toNat (s.tmgRuns f.val)).updDeliv else s.schRefuse c).ok) ∧
      (s.answers (Reg.ITK_REQ.addr j.val) = true →
        (F.ITK_REQ_BURST.of q = 0 → exec (.itkReqWrite j v) s = .next (s.itkRefuse 2 j.val).ok) ∧
        (F.ITK_REQ_BURST.of q ≠ 0 → F.ITK_REQ_MINBW.of q ≤ s.rd F.ITK_REQ_MINBW j.val →
          let t := s.storeReg .ITK_REQ j.val v.toNat false
          exec (.itkReqWrite j v) s = .next
            ({ t with intake := { t.intake with c := Store.erase t.intake.c j.val, h := Store.erase t.intake.h j.val } } : State).ok)) ∧
      (s.answers (Reg.GLB_MAPCTL.addr 0) = true →
        (s.anyOpen = true → exec .remap s = .next (s.mapRefuse 10 0).ok) ∧
        (s.anyOpen = false → s.flag F.GLB_MAPSTAT_BUSY 0 = false → s.spoutsStopped = true → s.stackOk = true →
          exec .remap s = .next ((s.abortAll 4).newMap).ok)) ∧
      (s.answers (Reg.BAS_CFG.addr 0) = true → s.rd F.BAS_CFG_PINCAP 0 ≤ 75 → s.rd F.BAS_CFG_FLOOR 0 ≤ 100 → 1 ≤ s.rd F.BAS_CFG_GUARD 0 →
        s.rd F.BAS_CFG_GUARD 0 ≤ 75 → ∃ t, exec .deadclr s = .next t ∧ t.basin.dead = [] ∧ t.basin.lines = s.basin.lines ∧ t.mem = s.mem) ∧
      (s.basin.lookups < 1024 → ∃ t, exec .pinWindowEnd s = .next t ∧ t.rd F.BAS_STAT_UHIT 0 = 255 ∧ t.basin.lookups = 0 ∧ t.basin.hits = 0 ∧
        t.basin.lines = s.basin.lines ∧ t.rd F.BAS_STAT_REFUSING 0 = s.rd F.BAS_STAT_REFUSING 0) ∧
      (1024 ≤ s.basin.lookups → s.basin.hits ≤ s.basin.lookups →
        ∃ t, exec .pinWindowEnd s = .next t ∧ t.rd F.BAS_STAT_UHIT 0 = s.basin.hits * 100 / s.basin.lookups ∧ t.basin.lookups = 0 ∧ t.basin.lines = s.basin.lines)) ∧
  (∀ (s : State) (v : Word), s.answers (Reg.TXU_RECBASE.addr 0) = true →
      (s.pkgBusy = true → F.TXU_RECBASE_BASE.of v.toNat ≠ s.rd F.TXU_RECBASE_BASE 0 →
        exec (.txuRecbaseWrite v) s = .next (s.emit Ev.TX_CFG_REFUSED Un.inst 4 0).ok) ∧
      (s.pkgBusy = false → exec (.txuRecbaseWrite v) s = .next ((s.storeReg .TXU_RECBASE 0 v.toNat false).evalRecbase).ok))

/-! ## Aqueduct and weir -/

/-- From R368 to R375 and R379: what a port does as its links come up and go down. A powered port goes to DETECT, or to DISABLED; a detect holds the readings,
and where they show lanes excludes the others with CAUSE 1 and goes to LOOP; the loop measurement counts the errors of each lane pair and excludes those
above 1,374,389; a passed window is kept; an uncorrectable codeword is counted, restarts the window in LOOP, and loses the link with the fourth in 1 ms;
training excludes the lanes above 1,073 errors and takes the port UP with the lanes both ends hold; a port that was UP before and cannot train is FAILED and
tries again; a loss of signal trains again; a lost lane narrows the port or loses its link; lanes that pass come back; RETRAIN, DISABLE, NODE and REQUAL act
as their registers say. -/
def Obligations.AqueductPortsTrain : Prop :=
  ∀ (s : State) (p : APort) (v : Word), let n := p.val
    (s.aqSt n = 0 → s.domOn (56 + n) = true →
      exec (.linkPowerUp p) s = .next (if s.flag F.AQD_CTL_DISABLE n then s.portTo n 6 else s.toDetect n)) ∧
    (∀ sense : BitVec 8, s.aqSt n = 1 →
      let lanes := sensedLanes sense.toNat
      let seen := foldS (List.range 4) (s.updAq n fun a => { a with sense := sense.toNat }) fun t l =>
        let t1 := t.wrB F.AQD_LANE_DETECT (laneOf n l) (lanes.testBit l)
        if lanes.testBit l then t1.include n l else t1.exclude n l 1
      (lanes % 16 ≠ 0 → exec (.detectDone p sense) s = .next (seen.portTo n 2) ∧ exec (.detectRetry p sense) s = .next (seen.portTo n 2)) ∧
      (lanes % 16 = 0 → (seen.aq n).detectRec = false →
        let t := (seen.emit Ev.AQD_DETECT_FAIL (Un.aport n) 0 0).updAq n fun a => { a with detectRec := true }
        exec (.detectDone p sense) s = .next t ∧ exec (.detectRetry p sense) s = .next t) ∧
      (lanes % 16 = 0 → (seen.aq n).detectRec = true → exec (.detectDone p sense) s = .next seen ∧ exec (.detectRetry p sense) s = .next seen)) ∧
    (s.aqSt 0 = 2 → s.aqSt 1 = 2 → ∀ e w,
      let mark := fun (a : AqPort) => { a with loopDone := true }
      let measured := foldS (List.range 4) s fun t l =>
        if t.flag F.AQD_LANE_DETECT (laneOf 0 l) && t.flag F.AQD_LANE_DETECT (laneOf 1 l) then
          let t1 := (t.bump F.AQD_LANE_BITERR (laneOf 0 l) (e.getD l 0)).bump F.AQD_LANE_BITERR (laneOf 1 l) (w.getD l 0)
          if 1374389 < e.getD l 0 ∨ 1374389 < w.getD l 0 then (t1.exclude 0 l 2).exclude 1 l 2 else t1
        else t
      exec (.loopMeasureDone e w) s = .next ((measured.updAq 0 mark).updAq 1 mark).tryQual) ∧
    (s.aqSt n = 2 → exec (.qualifyWindowPass p) s = .next (s.updAq n fun a => { a with passed := true }).tryQual) ∧
    (s.aqSt n = 2 → exec (.uncorrectableCodeword p) s =
      .next (((s.bump F.AQD_CNT_UNCORR n 1).updAq n fun a => { a with passed := false }).emit Ev.AQD_QUAL_RESTART (Un.aport n) 0 0)) ∧
    (s.aqSt n = 4 → (s.aq n).codewords = [] → exec (.uncorrectableCodeword p) s =
      .next ((s.bump F.AQD_CNT_UNCORR n 1).updAq n fun a => { a with codewords := [s.time.ticks] })) ∧
    (s.aqSt n = 4 → ∀ a b c, (s.aq n).codewords = [a, b, c] → s.time.ticks < a + 100000 → s.time.ticks < b + 100000 → s.time.ticks < c + 100000 →
      exec (.uncorrectableCodeword p) s = .next (((s.bump F.AQD_CNT_UNCORR n 1).updAq n fun a => { a with codewords := [] }).toTrain n)) ∧
    (∀ errs (partner : BitVec 4) (node : BitVec 6) (nonce : BitVec 32), s.aqSt n = 3 ∨ s.aqSt n = 5 →
      let t := foldS (List.range 4) s fun t l =>
        if t.flag F.AQD_LANE_EXCL (laneOf n l) then t
        else
          let t1 := t.bump F.AQD_LANE_BITERR (laneOf n l) (errs.getD l 0)
          if 1073 < errs.getD l 0 then t1.exclude n l 3 else t1
      let m := t.kept n &&& partner.toNat
      exec (.trainingDone p errs partner node nonce) s = .next (if m = 0 then t else t.portUp n m node.toNat nonce.toNat)) ∧
    (s.aqSt n = 3 → (s.aq n).everUp = true →
      exec (.trainTimeout p) s = .next (((s.discardPort n).portTo n 5).emit Ev.AQD_PORT_FAILED (Un.aport n) 0 0)) ∧
    (s.aqSt n = 5 → exec (.failedRetry p) s = .next ((s.updAq n fun a => { a with outNow := [] }).linkFrame n s.trnFrame)) ∧
    (s.aqSt n = 4 → exec (.linkLoss p) s = .next (s.toTrain n)) ∧
    (∀ l : Fin 4, s.aqSt n = 4 → (s.rd F.AQD_STAT_LUP n).testBit l.val = true →
      let m := setBitTo (s.rd F.AQD_STAT_LUP n) l.val false
      let t := (s.exclude n l.val 3).useLanes n m
      exec (.laneDegrade p l) s = .next (if m = 0 then t.linkLoss n else t.sendWidth n m)) ∧
    (∀ passed : BitVec 4, s.aqSt n = 4 →
      let back := (List.range 4).filter fun l => passed.getLsbD l && s.flag F.AQD_LANE_EXCL (laneOf n l) && s.rd F.AQD_LANE_CAUSE (laneOf n l) == 3
      let t := foldS back s fun t l => (t.include n l).emit Ev.AQD_LANE_RESTORED (Un.aport n) l 0
      let m := t.rd F.AQD_STAT_LUP n ||| maskOf back
      back ≠ [] → exec (.laneRetry p passed) s = .next ((t.useLanes n m).sendWidth n m)) ∧
    (s.answers (Reg.AQD_CTL.addr n) = true →
      exec (.aqdRetrain p) s = .next (s.wAqdCtl n (s.reg .AQD_CTL n + 4)).ok ∧ exec (.aqdDisable p v) s = .next (s.wAqdCtl n v.toNat).ok) ∧
    (s.answers (Reg.AQD_RING.addr 0) = true →
      exec (.nodeWrite v) s = .next (s.wAqdRing v.toNat).ok ∧ exec .requal s = .next (s.wAqdRing (s.node * 2 ^ 32 + 2 ^ 63)).ok)

/-- From R376 to R386: what an UP port does with a frame. One whose payload its type does not allow, or whose check failed, is counted in CRCERR and its replay
asked for; a request frame in order for this node is served, a read for another node that can pass is passed on, a response completes its request or is
counted in LATE, a ring-state frame goes to the routes, and each is taken off the partner's replay buffer and acknowledged; a link-control frame is taken; a
training frame ends the link. A due replay resends the buffer and is counted; the acknowledgement goes out in a link-control frame; the instance's own
ring-state frame leaves each UP port; a record ages out; a request whose RTO passes completes with DECERR. -/
def Obligations.FramesAreTaken : Prop :=
  ∀ (s : State) (p : APort) (f : Frame), let n := p.val
    s.aqSt n = 4 →
    (let bad := s.badFrame n
     exec (.frameCheckFail p) s = .next bad ∧
     (f.payload.length = 1 → exec (.frameRd p f) s = .next bad ∧ exec (.frameWr p f) s = .next bad ∧ exec (.frameWrp p f) s = .next bad ∧
       exec (.frameAtom p f) s = .next bad ∧ exec (.frameResp p f) s = .next bad ∧ exec (.frameRsf p f) s = .next bad ∧
       exec (.frameLctl p f) s = .next bad ∧ exec (.frameTrn p f) s = .next bad)) ∧
    (s.inOrder n f = true → f.dst.toNat = s.node →
      let taken := fun (typ : BitVec 6) (t : State) => t.linkAccept n { f with typ := typ }
      let t := s.takeAck n f
      (f.payload.length = 0 → exec (.frameRd p f) s = .next (taken 1 (t.serveFrame n { f with typ := 1 }))) ∧
      ((respLens f).contains f.payload.length = true →
        let asked := t.ring.remotes.find? fun r => r.rtag = f.rtag.toNat && r.node == f.src.toNat && r.taken
        (∀ r, asked = some r → exec (.frameResp p f) s = .next (taken 8 (t.finishRemote r f.code.toNat f.deadRead f.payload))) ∧
        (asked = none → exec (.frameResp p f) s = .next (taken 8 (t.bump F.AQD_RTO_LATE 0 1)))) ∧
      ((dataLens f.size).contains f.payload.length = true → exec (.frameWr p f) s = .next (taken 2 (t.serveFrame n { f with typ := 2 }))) ∧
      (((dataLens f.size).map (32 + ·)).contains f.payload.length = true →
        exec (.frameWrp p f) s = .next (taken 3 (t.serveFrame n { f with typ := 3 }))) ∧
      (f.payload.length = 8 → f.op.toNat < 7 → exec (.frameAtom p f) s = .next (taken 4 (t.serveFrame n { f with typ := 4 })))) ∧
    (s.inOrder n f = true → f.dst.toNat ≠ s.node → f.payload = [] → ∀ t, s.transit n { f with typ := 1 } ≠ none →
      (s.takeAck n f).transit n { f with typ := 1 } = some t → exec (.frameRd p f) s = .next (t.linkAccept n { f with typ := 1 })) ∧
    (s.inOrder n f = true → f.payload.length = 16 →
      exec (.frameRsf p f) s = .next (((s.takeAck n f).takeRsf n { f with typ := 0x10 }).linkAccept n { f with typ := 0x10 })) ∧
    (f.payload = [] → f.op = 0 → exec (.frameLctl p f) s = .next (s.takeAck n f)) ∧
    (f.payload.length = 16 → exec (.frameTrn p f) s = .next (s.toTrain n)) ∧
    ((s.aq n).replayDue = true → exec (.replay p) s =
      .next ((s.bump F.AQD_CNT_REPLAY n 1).updAq n fun a => { a with replays := a.replayBuf, replayDue := false })) ∧
    ((s.aq n).ackDue = true ∨ (s.aq n).nak = true →
      exec (.lackTimer p) s = .next (s.linkFrame n { Frame.zero with typ := 0x11, src := BitVec.ofNat 6 s.node })) ∧
    (s.flag F.AQD_RING_DUP 0 = false →
      let own : Frame :=
        { Frame.zero with typ := 0x10, src := BitVec.ofNat 6 s.node, ttl := 63,
                          payload := rsfPayload s.ring.nonce 1 (s.rd F.AQD_RING_RSTATE 0) (s.rd F.AQD_STAT_WIDTH 0) (s.rd F.AQD_STAT_WIDTH 1) }
      (s.aqSt 0 = 4 → s.aqSt 1 ≠ 4 → exec .rsfSend s = .next (s.linkFrame 0 own)) ∧
      (s.aqSt 0 ≠ 4 → s.aqSt 1 = 4 → exec .rsfSend s = .next (s.linkFrame 1 own)) ∧
      (s.aqSt 0 = 4 → s.aqSt 1 = 4 → exec .rsfSend s = .next ((s.linkFrame 0 own).linkFrame 1 own))) ∧
    (∀ node : Fin 64, node.val ≠ s.node →
      let kept := s.ring.records.filter fun r => !(r.1 = node.val && r.2.1 == n)
      exec (.routeAgeOut node p) s = .next (({ s with ring := { s.ring with records := kept } } : State).updRoute node.val).releaseHeld) ∧
    (∀ node : Fin 64, node.val = s.node →
      let u : State := { s with ring := { s.ring with selfBack := Store.put false s.ring.selfBack n false } }
      exec (.routeAgeOut node p) s = .next (u.updRing (u.rd F.AQD_RING_SIZE 0))) ∧
    (∀ (rtag : BitVec 12) (r : Remote), (s.ring.remotes.find? fun q => q.rtag = rtag.toNat) = some r → r.taken = true →
      exec (.remoteTimeout rtag) s = .next (s.finishRemote r 2 false []))

/-- From R391 to R393, R396 and R405: the weir. Its registers take a written value by their rule; WEIR_REFILL takes the gates and class queues into force; a
frame slot sends the training frame alone in TRAIN, and in UP the replay first, then, with no link frame ready, the strict queues 0 and 1, then the weighted
rotation. -/
def Obligations.WeirsSend : Prop :=
  ∀ (s : State) (p : APort) (q : Fin 8) (v : Word), let n := p.val
    let idle := (s.updWeir n fun w => { w with sending := none }).updAq n fun a => { a with sent := none }
    (s.answers (Reg.WEI_Q.addr (8 * n + q.val)) = true → exec (.weiQWrite p q v) s = .next (s.wWeiQ n q.val v.toNat).ok) ∧
    (s.answers (Reg.WEI_CLSQ.addr n) = true → exec (.weiClsqWrite p v) s = .next (s.storeReg .WEI_CLSQ n v.toNat false).ok) ∧
    (s.answers (Reg.WEI_GATE.addr n) = true → exec (.weiGateWrite p v) s = .next (s.storeReg .WEI_GATE n v.toNat false).ok) ∧
    ((s.weir n).waitG = [] → ∃ t, exec (.weirRefill p) s = .next t ∧ (t.weir n).gate = s.rd F.WEI_GATE_OPEN n ∧ (t.weir n).liveC = s.rd F.WEI_CLSQ_QUEUE n ∧ t.mem = s.mem) ∧
    (s.aqSt n = 3 → (s.aq n).outNow = [] → exec (.weirFrameSelect p) s = .next idle) ∧
    (∀ f rest, s.aqSt n = 3 → (s.aq n).outNow = f :: rest → f.typ = 0x12 →
      exec (.weirFrameSelect p) s = .next ((idle.updAq n fun a => { a with outNow := rest }).launch n f)) ∧
    (s.aqSt n ≠ 3 → s.aqSt n ≠ 4 → s.aqSt n ≠ 5 → exec (.weirFrameSelect p) s = .next idle) ∧
    (∀ f rest, s.aqSt n = 4 → (s.aq n).replays = f :: rest →
      exec (.weirFrameSelect p) s = .next ((idle.updAq n fun a => { a with replays := rest }).launch n f)) ∧
    (s.aqSt n = 4 → (s.aq n).replays = [] → (s.aq n).linkReady = none →
      exec (.weirFrameSelect p) s = .next (if s.eligibleQ n 0 then idle.startFrame n 0 else if s.eligibleQ n 1 then idle.startFrame n 1 else idle.drr n 13))

/-! ## Time and tide -/

/-- From R55, R56 and R407 to R411: the wall counter. A PPS edge that comes sooner than 0.5 s after the last accepted one is counted and ignored, whatever its
high time; a short one may be taken or ignored; the first accepted edge is counted and kept as the start of the next spacing; while LOCKED, an edge that
comes more than 0.1 % early is counted as an outlier while fewer than three in a row were discarded; in phase 0 nothing is sampled. WALL_HOLDOVER takes
WSTATE from TRACK or LOCKED to HOLDOVER with PPS_LOST; a write of TIM_WALL sets the counter and leaves LOCKED. -/
def Obligations.WallTimeKeeps : Prop :=
  ∀ (s : State) (sub : Fin 10) (high : Nat) (v : Word),
    let t := 10 * s.time.ticks + sub.val
    let seen := fun (u : State) => (({ u with time := { u.time with lastPps := some t } } : State).bump F.TIM_PPSCNT_EDGES 0 1).wr F.GLB_PINSTAT_PPS_SEEN 0 1
    (s.phase = 0 → exec (.ppsEdge sub high) s = .next s) ∧
    (s.phase ≠ 0 →
      (∀ l, s.time.lastPps = some l → t < l + 500000000 → exec (.ppsEdge sub high) s = .next (s.bump F.GLB_PINSTAT_PPS_IGN 0 1)) ∧
      (s.tooSoon t = false → high < 1000 →
        exec (.ppsEdge sub high) s = .next (if Config.shortPps s.draw.1 then s.draw.2.bump F.GLB_PINSTAT_PPS_IGN 0 1 else s.draw.2.takeEdge t sub.val)) ∧
      (1000 ≤ high →
        (s.time.lastPps = none → s.rd F.TIM_WSTAT_WSTATE 0 = 0 → s.time.edges = 0 →
          exec (.ppsEdge sub high) s = .next { seen s with time := { (seen s).time with lastEdge := t, edges := 1, discards := 0 } }) ∧
        (∀ l, s.time.lastPps = some l → l + 500000000 ≤ t → s.rd F.TIM_WSTAT_WSTATE 0 = 2 → s.time.discards < 3 → t - s.time.lastEdge < 999000000 →
          exec (.ppsEdge sub high) s =
            .next (({ seen s with time := { (seen s).time with discards := s.time.discards + 1 } } : State).bump F.TIM_PPSCNT_OUTLIER 0 1)))) ∧
    (s.rd F.TIM_WSTAT_WSTATE 0 = 1 ∨ s.rd F.TIM_WSTAT_WSTATE 0 = 2 →
      exec .wallHoldover s = .next (({ s with time := { s.time with aligned := 0 } } : State).wr F.TIM_WSTAT_WSTATE 0 3 |>.emit Ev.PPS_LOST Un.inst 0 0)) ∧
    (s.answers (Reg.TIM_WALL.addr 0) = true →
      let u := s.stepWall ((v.toNat : Int) - s.wall)
      (u.rd F.TIM_WSTAT_WSTATE 0 = 2 → exec (.timWallWrite v) s = .next (u.wr F.TIM_WSTAT_WSTATE 0 1).ok) ∧
      (u.rd F.TIM_WSTAT_WSTATE 0 ≠ 2 → exec (.timWallWrite v) s = .next u.ok))

/-- From R72 and R413 to R422: the tide. The level of TIDE_VLD is held as it comes with a value; in phase 8 or 9 the first accepted value is taken as the first
of the tide, a later one is ignored where it repeats, advances the tide or is taken as a step back below 2^31 and above it; before phase 8 it only wakes
what waits, and in phase 0 nothing is sampled; a discarded one is only counted; a stall starts the holdover, in which the tide goes on at its measured rate;
REBASE waits for the next value; an accepted entry clears FIRED and EXPIRED; and each action of the table acts on its unit, at once while the instance is
awake. -/
def Obligations.TideDrives : Prop :=
  ∀ (s : State) (v : TideSample) (w : Word) (arg : BitVec 32),
    let sees := s.wrB F.GLB_PINSTAT_TIDE_VLD 0 v.vld
    (s.phase ≠ 0 → exec .tideValueDiscard s = .next ((s.wrB F.GLB_PINSTAT_TIDE_VLD 0 true).bump F.GLB_PINSTAT_TIDE_DISC 0 1)) ∧
    (s.phase = 0 → exec .tideValueDiscard s = .next s ∧ exec (.tideValueAccept v) s = .next s) ∧
    (s.phase ≠ 0 → s.phase ≠ 8 → s.phase ≠ 9 → exec (.tideValueAccept v) s = .next sees.serveWaits) ∧
    (s.phase = 8 ∨ s.phase = 9 → sees.time.rebase = false →
      (sees.rd F.TIM_TIDE_TSTATE 0 = 0 → exec (.tideValueAccept v) s = .next (sees.firstTide v.value.toNat).serveWaits) ∧
      (sees.rd F.TIM_TIDE_TSTATE 0 ≠ 0 →
        let d := (v.value.toNat + 2 ^ 32 - sees.time.tLast) % 2 ^ 32
        (d = 0 → exec (.tideValueAccept v) s = .next sees.serveWaits) ∧
        (0 < d → d < 2 ^ 31 → exec (.tideValueAccept v) s = .next (sees.advanceTide v.value.toNat).serveWaits) ∧
        (2 ^ 31 ≤ d → exec (.tideValueAccept v) s = .next (sees.backTide v.value.toNat).serveWaits))) ∧
    (s.phase = 8 ∨ s.phase = 9 → sees.time.rebase = true → exec (.tideValueAccept v) s = .next (sees.takeRebase v.value.toNat).serveWaits) ∧
    (s.rd F.TIM_TIDE_TSTATE 0 = 1 → exec .tideStall s = .next
      (((s.wr F.TIM_TIDE_TSTATE 0 2).bump F.TIM_TCNT_HOLDOVERS 0 1).emit Ev.TIDE_HOLDOVER Un.inst s.time.tLast (s.rd F.TIM_TRATE_RATE 0))) ∧
    (s.rd F.TIM_TIDE_TSTATE 0 = 2 → s.flag F.TIM_TCTL_HOLDMODE 0 = false → s.flag F.TIM_TIDE_RATEV 0 = true →
      let x := (s.time.tLast + s.time.rho.1 * (s.wall - s.time.wallLast) / s.time.rho.2) % 2 ^ 32
      (x + 2 ^ 32 - s.rd F.TIM_TIDE_TIDE 0) % 2 ^ 32 < 2 ^ 31 → exec .tideHoldoverStep s = .next (s.moveTide x).serveWaits) ∧
    (s.answers (Reg.TIM_TCTL.addr 0) = true → exec .rebase s = .next (s.wTctl (s.reg .TIM_TCTL 0 ||| 4)).ok) ∧
    (∀ i : Fin 256, s.answers (Reg.TIM_EVT0.addr i.val) = true → evt0Code (s.proposed .TIM_EVT0 i.val w.toNat false) = 0 →
      let t := ((s.storeReg .TIM_EVT0 i.val w.toNat false).wrB F.TIM_EVT1_FIRED i.val false).wrB F.TIM_EVT1_EXPIRED i.val false
      exec (.timEvt0Write i w) s = .next (if t.rd F.TIM_TIDE_TSTATE 0 = 0 then t else t.judgeEntry i.val).ok) ∧
    (s.phase = 8 → s.cur = 0 → s.boot.leaving = false →
      let does := fun (c : Instr) (t : State) => exec c s = .next t.serveWaits
      (bits arg.toNat 7 0 = 0 → does (.weirGate arg) s) ∧
      (bits arg.toNat 7 0 ≠ 0 → does (.weirGate arg) (foldS ((List.range 2).filter fun p => arg.toNat.testBit (16 + p)) s fun t p =>
        t.updWeir p fun w => { w with waitG := w.waitG ++ [(bits arg.toNat 7 0, bits arg.toNat 15 8)] })) ∧
      (s.flag F.SCH_STAT_DEFER 0 = false → does .deferOpen (s.setDefer true) ∧ does .deferClose s) ∧
      (s.flag F.SCH_STAT_DEFER 0 = true → does .deferOpen s ∧ does .deferClose (s.setDefer false)) ∧
      does .scrubOpen { s with sched := { s.sched with scrubPrec := true } } ∧ does .scrubClose { s with sched := { s.sched with scrubPrec := false } } ∧
      does .calOpen ({ s with time := { s.time with calWin := true } } : State).kick ∧ does .calClose { s with time := { s.time with calWin := false } } ∧
      does (.censusSnap arg) (s.snapAction arg.toNat) ∧ does (.overlay arg) (s.overlayAction arg.toNat) ∧
      (s.domOn 64 = false → does (.plumeGo arg) s) ∧
      (s.domOn 64 = true → does (.plumeGo arg) (s.plumeAction (bits arg.toNat 15 0) (s.rd F.TIM_TIDE_TIDE 0))))

/-! ## Power and heat -/

/-- From R68, R426 to R438 and R447: the power sequencer. Domain requests and set points act as their registers say; the ramp of a domain starts where its triad
has room and is delayed with an event where it has not; a ramp that fails is tried again and then leaves its domain dark; a missing frame records a
regulator's failure once, disables the regulator and gangs the rest of its triad; REENABLE enables it again and begins its test; a triad down to one
regulator is capped to level 2 and darkened; a cap leaves one level where the current is within 45 %; and the ladder of the power cap steps up above the cap
and down at 95 % of it. -/
def Obligations.PowerIsSequenced : Prop :=
  ∀ (s : State) (d : Dom66) (t : Triad) (r : Regul) (v : Word), let n := d.val
    (s.answers (Reg.PWR_DCTL.addr n) = true →
      exec (.domainOffRequest d v) s = .next (s.wPwrDctl n (setBits v.toNat 0 0 0)).ok ∧
      exec (.domainOnRequest d v) s = .next (s.wPwrDctl n (setBits v.toNat 0 0 1)).ok) ∧
    (s.answers (Reg.PWR_TRI.addr t.val) = true → exec (.setmvWrite t v) s = .next (s.wPwrTri t.val v.toNat).ok) ∧
    (s.answers (Reg.PWR_REG.addr r.val) = true → s.flag F.PWR_REG_FAILED r.val = true → exec (.reenable r) s =
      .next (({ s with power := { s.power with rearm := Store.put none s.power.rearm r.val (some 0) } } : State).command (.enable r.val true)).ok) ∧
    (∀ retry, s.power.wakes = [(n, retry)] → s.power.shut = 0 → s.power.ramps = [] → s.slewing (triadOf n) = false → s.power.delayed = [] →
      (s.within (triadOf n) 85 = true → exec (.wakeRampStart d) s = .next (s.startRamp n retry retry)) ∧
      (s.within (triadOf n) 85 = false → exec (.wakeRampStart d) s =
        .next (({ s with power := { s.power with delayed := [n] } } : State).emit Ev.WAKE_DELAYED (Un.domain n) (s.triadCur (triadOf n)) 0))) ∧
    (∀ retry, s.power.ramps = [(n, retry)] →
      let u : State := { s with power := { s.power with ramps := [] } }
      let f := (u.setDom n 0).emit Ev.WAKE_FAIL (Un.domain n) 0 0
      (s.working (triadOf n) ≠ [] → exec (.wakeRampEnd d true) s = .next (u.domainUp n).afterWake) ∧
      exec (.wakeRampEnd d false) s = .next (if retry then ((f.darkSteps n).setDom n 4).emit Ev.DOMAIN_DARK (Un.domain n) 2 0
        else { f with power := { f.power with wakes := f.power.wakes ++ [(n, true)] } }).afterWake) ∧
    (∀ f : RegFrame, s.flag F.PWR_REG_FAILED r.val = true → Store.get none s.power.rearm r.val = none →
      exec (.telemetryFrame r f) s = .next (s.wr F.PWR_REG_RTEMP r.val (f.temp % 256))) ∧
    (s.flag F.PWR_REG_FAILED r.val = true → Store.get none s.power.rearm r.val = none → exec (.telemetryMissing r) s = .next s) ∧
    (s.flag F.PWR_REG_FAILED r.val = false → Store.get none s.power.rearm r.val = none →
      let u := ((((s.wr F.PWR_REG_FAILED r.val 1).command (.enable r.val false)).gang (r.val / 3)).emit Ev.REG_FAIL (Un.regul r.val) 0 0).showTriad (r.val / 3)
      exec (.telemetryMissing r) s = .next (if (u.working (r.val / 3)).length < 2 then (u.setCap (r.val / 3) 2).startDark (r.val / 3) 1 else u)) ∧
    (s.rd F.PWR_TRI_CAPLVL t.val ≠ 0 → s.within t.val 45 = true → exec (.capLevelDown t) s = .next (s.setCap t.val (s.rd F.PWR_TRI_CAPLVL t.val - 1))) ∧
    (s.power.shut = 0 → (s.working t.val).length < 2 → exec (.darkenStart t) s = .next (s.startDark t.val 1)) ∧
    (s.power.shut = 0 → (s.working t.val).length = 2 → s.within t.val 100 = false → Store.get [] s.power.darkQ t.val = [] →
      exec (.darkenStart t) s = .next (s.startDark t.val 0)) ∧
    (((List.range 8).find? fun k => ((Store.get [] s.power.darkQ k).headD []).contains n) = some t.val → s.domSt n = 3 →
      Store.get 0 s.power.darkCause t.val = 1 →
      let u := (s.setDom n 4).emit Ev.DOMAIN_DARK (Un.domain n) 1 0
      let q := Store.get [] u.power.darkQ t.val
      exec (.domainDarkDone d) s =
        .next (if (q.headD []).all (fun k => u.domSt k == 4) then u.nextGroup t.val (q.drop 1) else u).afterWake) ∧
    (∀ p, let u := s.wr F.PWR_STAT_PAVG 0 (Nat.min 0xFFFF p)
      let step := fun l => ((u.wr F.PWR_STAT_LADDER 0 l).emit Ev.PWR_CAP_STEP Un.inst l (Nat.min 0xFFFF p)).updDeliv
      let c := s.rd F.PWR_CAP_CAP 0
      let l := s.rd F.PWR_STAT_LADDER 0
      (c < p → l < 4 → exec (.powerCapStep p) s = .next (step (l + 1))) ∧
      (p * 100 ≤ c * 95 → 0 < l → exec (.powerCapStep p) s = .next (step (l - 1))) ∧
      (p ≤ c → c * 95 < p * 100 → exec (.powerCapStep p) s = .next u))

/-- From R440 to R450: the thermal logic. A sample takes its readings, tests the sensors, shows the levels and decides a trip; a level rises and falls by its
threshold and the hysteresis; a first stack reading above 95 °C reports STACK_THROTTLE; a sensor is taken back; a trip whose time is up is finished; a
tripped instance that has cooled restarts, or waits while HELD for RESTART. -/
def Obligations.HeatIsLimited : Prop :=
  ∀ (s : State) (raw : List (Option Int)) (c : Fin 7) (n : Fin 16),
    (let a := ((s.takeReadings raw).testSensors raw).showExcl
     let b : State := { a with power := { a.power with quorum := false } }
     a.exclCount < 5 →
      let e := ((foldS (List.range 6) (foldS (List.range 16) b.showTemps fun t k => t.warnStep k) fun t k => t.raiseLvl k).showLevels).decideTrip
      (e.power.shut = 0 → exec (.sensorSample raw) s = .next e) ∧ (e.power.shut ≠ 0 → exec (.sensorSample raw) s = .next e.duringTrip)) ∧
    (s.thmLvl c.val = 0 → exec (.thermalLevelTimer c) s = .next s) ∧
    (s.thmLvl c.val = 1 → throttleOf c.val ≤ s.ruling c.val → c.val ≠ 5 → exec (.thermalLevelTimer c) s = .next (s.setThmLvl c.val 2).showLevels) ∧
    (s.thmLvl c.val = 1 → s.ruling c.val < throttleOf c.val → s.ruling c.val ≤ throttleOf c.val - s.hyst → c.val ≠ 5 →
      exec (.thermalLevelTimer c) s = .next (s.setThmLvl c.val 0).showLevels) ∧
    (s.thmLvl c.val = 2 → s.ruling c.val < throttleOf c.val → c.val = 5 →
      exec (.thermalLevelTimer c) s = .next ((s.setThmLvl 5 1).emit Ev.THM_THROTTLE Un.inst 5 1)) ∧
    exec (.stackTempRead none) s = .next (s.stackTemp none) ∧
    (∀ x : BitVec 8, x.toInt ≤ 95 →
      let u := ((s.stackTemp (some x)).raiseLvl 6).showLevels
      exec (.stackTempRead (some x)) s = .next { u with power := { u.power with stackRun := 0 } }) ∧
    (∀ x : BitVec 8, 95 < x.toInt →
      let u := ((s.stackTemp (some x)).raiseLvl 6).showLevels
      u.power.stackRun = 0 → exec (.stackTempRead (some x)) s =
        .next (({ u with power := { u.power with stackRun := 1 } } : State).emit Ev.STACK_THROTTLE Un.inst (wrapInt 48 x.toInt) 0)) ∧
    (s.answers (Reg.THM_SENS.addr n.val) = true → exec (.sensorReturn n) s = .next
      ({ (s.wr F.THM_SENS_EXCL n.val 0) with power := { s.power with sensBad := Store.put 0 s.power.sensBad n.val 0 } } : State).showExcl.showLevels.ok) ∧
    (s.power.shut = 1 → exec .tripGateTimeout s = .next s.finishTrip) ∧
    (s.power.shut = 2 → s.power.region = none → s.allCool = true →
      (s.flag F.THM_TRIP_HELD 0 = false → exec .thermalRestart s = .next s.restartTrip) ∧
      (s.flag F.THM_TRIP_HELD 0 = true → exec .thermalRestart s = .next { s with power := { s.power with cool := true } })) ∧
    (s.answers (Reg.THM_TRIP.addr 0) = true → s.flag F.THM_TRIP_HELD 0 = true → s.power.shut = 2 → s.power.region = none → s.power.cool = true →
      exec .restartRelease s = .next (s.wr F.THM_TRIP_HELD 0 0).restartTrip.ok)

/-! ## Calibration -/

/-- From R455 to R463: calibrations, sweeps and drift checks. A measurement taken against both references is kept, and the second that agrees sets the mean of
the two to be applied; trims are applied at the point the leg allows; a training point is kept until its sweep has them all; a short sweep that passes
verifies the delays; a drift check, a recalibration or a training asked for joins the activities; one that its window keeps out for too long loses the
window; a starved one is abandoned. From R468 to R470: set points. A rate that changes the set point not in use clears the delays kept for it; REQ holds the
traffic; at the end of the hold the running activities are abandoned, every open pseudo-channel goes into self-refresh and the other set point is ACTIVE;
with the pads locked the legs whose delays are not VALID are trained, and the switch ends once every pseudo-channel is back. -/
def Obligations.LegsAreCalibrated : Prop :=
  (∀ (s : State) (leg : Leg) (pc : Pc) (v : Word), let l := leg.val
      (∀ a codes, s.actOf l = some a → a.kind = 2 → Store.find s.cal.pending l = none →
        let t := (s.refLevel F.GLB_PINSTAT_REFV_OK 0 true).refLevel F.GLB_PINSTAT_REFZ_OK 1 true
        let m := (List.range 7).map fun i => Nat.min 1023 (codes.getD i 512)
        let old := Store.get [] t.cal.meas l
        let kept : State := { t with cal := { t.cal with meas := Store.put [] t.cal.meas l (old ++ [m]) } }
        (old = [] → exec (.calMeasurementDone leg true true codes) s = .next kept) ∧
        (∀ m1, old = [m1] → agreeing m1 m = true → exec (.calMeasurementDone leg true true codes) s =
          .next (({ kept with cal := { kept.cal with pending := Store.insert kept.cal.pending l (meanCodes m1 m) } } : State).wr F.CAL_LSTAT_ACT l 3))) ∧
      (∀ a w, s.actOf l = some a → s.atPoint l = true → Store.find s.cal.pending l = some w →
        let t := (s.setTrims l w).wr F.CAL_LSTAT_LASTT l (s.padTemp (l / 2))
        exec (.trimApply leg) s =
          .next (({ t with cal := { t.cal with pending := Store.erase t.cal.pending l, meas := Store.erase t.cal.meas l } } : State).afterTrims a)) ∧
      (∀ a lanes, s.actOf l = some a → a.kind ≠ 2 → (Store.get [] s.cal.points l).length < sweepPoints a.kind → Store.find s.cal.pendDly l = none →
        exec (.trainingPointDone leg lanes) s =
          .next { s with cal := { s.cal with points := Store.put [] s.cal.points l (Store.get [] s.cal.points l ++ [lanes.toNat]) } }) ∧
      (∀ a, s.actOf l = some a → a.kind = 4 → sweepPoints 4 ≤ (Store.get [] s.cal.points l).length → Store.find s.cal.pendDly l = none →
        (((Store.get [] s.cal.points l).all fun p => p % 16 == 15) = true →
          let i := 2 * l + s.fsp
          exec (.sweepDone leg) s = .next (((s.wrB F.CAL_RDLY_VERIFIED i true).wrB F.CAL_WDLY_VERIFIED i true).endAct a).trainStep) ∧
        (((Store.get [] s.cal.points l).all fun p => p % 16 == 15) = false → exec (.sweepDone leg) s = .next (s.follow a { a with kind := 1 }))) ∧
      (s.actOf l = none → exec (.sweepDone leg) s = .next s ∧ exec (.trimApply leg) s = .next s) ∧
      (s.pcSt pc.val = 1 → s.cal.acts = [] → exec (.driftCheckDue pc) s =
        .next ({ s with cal := { s.cal with acts := [{ kind := 0, leg := s.drivingLeg pc.val, use := if s.measureOk pc.val then 1 else 0, started := false,
                                                        nowin := true }] } } : State).kick) ∧
      (∀ a, s.cal.acts = [a] → a.kind = 0 → a.leg / 2 = pc.val → a.started = false → Store.find s.cal.pendDly a.leg = none →
        exec (.driftCheckSkip pc) s = .next (({ s with cal := { s.cal with acts := [] } } : State).bump F.CAL_CNT_SKIP 0 1)) ∧
      exec (.zqRecalDue leg) s = .next (s.askRecal l false) ∧
      (s.legBusy l = false →
        s.askRecal l false = (s.addAct { kind := 2, leg := l, use := s.useFor l, started := false, nowin := false }).kick) ∧
      (∀ a, s.cal.acts = [a] → a.leg = l → a.kind = 2 →
        exec (.calWindowWaitExpire leg) s = .next ({ s with cal := { s.cal with acts := [{ a with nowin := true }] } } : State).kick) ∧
      exec (.calStarved pc) s = .next (foldS (s.cal.acts.filter fun a => a.started && a.leg / 2 == pc.val) s fun t a => t.abandonAct a 3) ∧
      (s.answers (Reg.CAL_CTL.addr 0) = true →
        exec (.recal v) s = .next (s.wCalCtl (setBits v.toNat 9 9 1)).ok ∧ exec (.retrain v) s = .next (s.wCalCtl (setBits v.toNat 8 8 1)).ok ∧
        (F.CAL_CTL_RECAL.of v.toNat = 1 → s.pcSt (F.CAL_CTL_PC.of v.toNat) ≠ 1 → s.wCalCtl v.toNat = s.calRefuse 9))) ∧
  (∀ (s : State) (v : Word),
      (s.answers (Reg.CAL_FSP.addr 0) = true →
        exec (.fspRateWrite v) s = .next (s.wCalFsp (setBits v.toNat 63 63 0)).ok ∧ exec (.fspReq v) s = .next (s.wCalFsp (setBits v.toNat 63 63 1)).ok) ∧
      (let p := s.proposed .CAL_FSP 0 v.toNat false
       let r0 := F.CAL_FSP_RATE0.of p
       let r1 := F.CAL_FSP_RATE1.of p
       s.fsp = 0 → r0 = s.rd F.CAL_FSP_RATE0 0 → r1 ≤ 3 → r0 ≤ 3 → s.calHeld = false → s.cal.reqHeld = false →
         let t := s.storeReg .CAL_FSP 0 v.toNat false
         let u := foldS (List.range 128) t fun t l => (t.wrB F.CAL_RDLY_VALID (2 * l + 1) false).wrB F.CAL_WDLY_VALID (2 * l + 1) false
         let w := if r1 = s.rd F.CAL_FSP_RATE1 0 then t else u
         s.wCalFsp v.toNat = if F.CAL_FSP_REQ.of v.toNat = 1 then w.beginFsp else w) ∧
      (s.pstateBusy = false → s.beginFsp = s.wrB F.CAL_STAT_HOLD 0 true) ∧
      (s.flag F.CAL_STAT_HOLD 0 = true →
        let idle := foldS (s.cal.acts.filter (·.started)) s fun t a => t.abandonAct a 4
        let opens := (List.range 64).filter fun n => idle.pcSt n == 1 || idle.pcSt n == 2
        let t := (idle.wrB F.CAL_STAT_HOLD 0 false).wrB F.CAL_STAT_SWITCH 0 true
        let u := foldS opens (foldS (List.range 8) t fun x m => x.endUse m) fun x n => x.intoSelfRefresh n
        let w := u.wr F.CAL_FSP_ACTIVE 0 (1 - u.fsp)
        exec .fspHoldEnd s = .next { w with cal := { w.cal with wasOpen := opens, padLock := false } }) ∧
      (s.flag F.CAL_STAT_HOLD 0 = false → exec .fspHoldEnd s = .next s) ∧
      (s.flag F.CAL_STAT_SWITCH 0 = true → s.cal.padLock = false →
        let t : State := { s with cal := { s.cal with padLock := true } }
        let u := foldS (List.range 64) t fun x n =>
          if !x.fenced n && !x.delaysValid (2 * n + 1) && x.useFor (2 * n + 1) = 1 then x.addAct (x.retrainAct (2 * n + 1)) else x
        exec .fspPadLock s = .next u.updDeliv.switchDone))

/-! ## Power states, tiers and resets -/

/-- From R486 to R488, R492 and R496: power states and tiers. REQ, the tier registers and the tier store act as they say; an idle instance enters IDLE; an event
wakes it, and a wake cause brings it out of self-refresh states; an entry that does not become quiet in time is given up. -/
def Obligations.PowerStatesAndTiers : Prop :=
  ∀ (s : State) (v : Word) (off : BitVec 24) (cause : Fin 6),
    (s.answers (Reg.GLB_PSTATE.addr 0) = true → exec (.pstateRequest v) s = .next (s.wPstate v.toNat).ok ∧
      (let r := F.GLB_PSTATE_REQ.of (s.proposed .GLB_PSTATE 0 v.toNat false)
       (4 ≤ r → s.wPstate v.toNat = s.glbRefuse 3) ∧
       (r = 1 → s.boot.entry = none → s.boot.leaving = false → s.phase = 8 → s.power.shut = 0 → s.cur = 0 →
         s.wPstate v.toNat = ((s.storeReg .GLB_PSTATE 0 v.toNat false).leaveIdle 5).enterPs 2))) ∧
    (∀ k, s.boot.entry = some k → s.boot.entering = false →
      (s.quiesced = true → exec .pstateEntryTimeout s = .next s.entryStep) ∧ (s.quiesced = false → exec .pstateEntryTimeout s = .next s.giveUp)) ∧
    (s.phase = 8 → s.power.shut = 0 → s.boot.leaving = false → s.boot.entry = none → 1 ≤ cause.val → cause.val ≤ 3 →
      (s.cur = 1 → exec (.pstateWake cause) s = .next (s.leaveIdle cause.val)) ∧
      (s.cur = 3 → exec (.pstateWake cause) s = .next (s.exitSr cause.val)) ∧
      (s.cur = 4 → exec (.pstateWake cause) s = .next (s.exitDeep cause.val))) ∧
    (s.phase = 8 → s.power.shut = 0 → s.cur = 0 → s.rd F.GLB_PSTATE_REQ 0 = 0 → s.rd F.GLB_PSTATE_IDLENS 0 ≠ 0 → s.boot.entry = none → s.boot.leaving = false →
      (∀ n < 161, s.spSt n = 0) → (∀ k < 64, (s.slot k).st = .free) → (∀ p < 8, s.tagsOf p = [] ∧ Store.get [] s.intake.tagWait p = []) →
      s.intake.held = [] → (∀ n < 64, (s.pc n).queue = [] ∧ (s.pc n).waiting = [] ∧ (s.pc n).merges = [] ∧ (s.pc n).flights = []) →
      exec .idleEnter s = .next ((s.wr F.GLB_PSTATE_CUR 0 1).emit Ev.PSTATE_ENTER Un.inst 1 0)) ∧
    (s.answers (Reg.GLB_TIER.addr 0) = true →
      exec .tierApply s = .next (s.wTier (s.reg .GLB_TIER 0 + 2 ^ 15)).ok ∧ exec .swreq s = .next (s.wTier (s.reg .GLB_TIER 0 + 2 ^ 14)).ok) ∧
    (s.answers 0x800000 = true → 0x800000 ≤ off.toNat → off.toNat < 0x840000 → off.toNat % 8 = 0 → s.flag F.GLB_TIERSTAT_BUSY 0 = false →
      exec (.tierStoreWrite off v) s = .next ({ s with tier := Store.put 0 s.tier (off.toNat - 0x800000) v } : State).ok)

/-- From R56, R65, R66, R67, R70 and R473 to R485: resets and bring-up. A power-on reset starts from the reset state with the pins it is given; RST_N low and a
lost REFCLK take a running instance to phase 0, and bring-up is tried when they are good again: with the pins as RST_N_RISE gives them, after POR at the
lock with those of its end, and at a lock that ends a cold reset with some level of each strap, which its row does not carry (notes/assumptions/55.md); a
pulse under 30 ns does nothing; WARM acts as its register says; the compute-part reset starts where none is in hand, and its release lets the DOWN ports
negotiate; a pseudo-channel tested good opens in phase 6; the privileged fill ends the map's change and lets the ports open; a worker whose START does not
come goes on with START_TIMEOUT; the wrapper takes its instruction, WS_IDREAD shifts out GLB_ID, and the tests are refused while RST_N is high. -/
def Obligations.ResetsRestart : Prop :=
  ∀ (s : State) (pins : PinLevels) (low : Nat) (pc : Pc) (f : Findings) (op : BitVec 8),
    (let boot : Boot := { State.reset.boot with env := some pins, refclk := pins.refclk, rstN := pins.rstN, compute := pins.compute }
     let fresh : State := { State.reset with free := s.free, pending := s.pending, boot := boot }
     exec (.powerOnReset pins) s = .next (fresh.seedRills.setPhase 0).tryBringUp) ∧
    (low < 30 → exec (.coldReset low) s = .next s) ∧
    (10000 ≤ low → s.boot.env ≠ none → exec (.coldReset low) s = .next (({ s with boot := { s.boot with rstN := false } } : State).cold 0)) ∧
    (s.boot.rstN = false → s.boot.env ≠ none → exec (.rstNRise pins) s =
      .next ({ s with boot := { s.boot with env := some pins, refclk := pins.refclk, rstN := true, compute := pins.compute } } : State).tryBringUp) ∧
    (s.boot.refclk = true → exec .refclkLoss s = .next (({ s with boot := { s.boot with refclk := false } } : State).cold 1)) ∧
    (s.phase ≠ 0 → exec .refclkLock s = .next { s with boot := { s.boot with refclk := true } }) ∧
    (s.phase = 0 → s.cause ≠ 1 → exec .refclkLock s = .next ({ s with boot := { s.boot with refclk := true } } : State).tryBringUp) ∧
    (s.phase = 0 → s.cause = 1 → ∀ e, s.boot.env = some e → ∃ mgr inst, exec .refclkLock s =
      .next ({ s.draw.2 with boot := { s.boot with refclk := true, env := some { e with mgrSel := mgr, instId := inst } } } : State).tryBringUp) ∧
    (∀ k, s.phase ≠ 0 → ∃ t, s.cold k = t ∧ t.phase = 0 ∧ t.rd F.GLB_BOOTSTAT_CAUSE 0 = 1) ∧
    (s.answers (Reg.GLB_RESET.addr 0) = true → exec .warmReset s = .next (s.wReset 1).ok ∧
      (s.phase = 8 → s.power.shut = 0 → s.cur = 0 → s.wReset 1 = s.startWarm) ∧ (s.phase ≠ 8 → s.wReset 1 = s.glbRefuse 1)) ∧
    (let held : State := { s with boot := { s.boot with compute := true } }
     (s.boot.compute = true → exec .computeResetAssert s = .next held) ∧
     (s.boot.compute = false → s.computeIdle = false → exec .computeResetAssert s = .next held.startCompute)) ∧
    (let freed : State := { s with boot := { s.boot with compute := false } }
     (s.boot.compute = false → exec .computeResetDeassert s = .next freed) ∧
     (s.boot.compute = true → s.computeIdle = false → s.domOn 63 = true → exec .computeResetDeassert s =
       .next (foldS (List.range 8) freed fun t p => if t.fpSt p = 0 then (t.resetRegs [.ITK_FPSTAT] p).toNegotiate p else t))) ∧
    (s.phase = 6 → s.fenced pc.val = false → s.boot.tested.contains pc.val = false →
      let r := s.assayed pc.val f
      let opened := (r.1.wr F.PC_STAT_STATE pc.val 1).wr F.GLB_BOOTSTAT_OPENPCS 0 (r.1.rd F.GLB_BOOTSTAT_OPENPCS 0 + 1)
      exec (.bringUpTestDone pc f) s = .next ((if r.2.1 then opened else r.1).finishTest pc.val)) ∧
    (s.flag F.GLB_MAPSTAT_BUSY 0 = true → exec .privilegedFillDone s = .next
      (foldS (List.range 8) (s.privFill.wrB F.GLB_MAPSTAT_BUSY 0 false) fun t p => t.releasePort p).tryReady) ∧
    (s.phase = 2 → s.role = 0 ∨ s.role = 1 → exec .startTimeout s = .next (s.emit Ev.START_TIMEOUT Un.inst 0 0).enterWake) ∧
    (let chosen := fun (k : Nat) => ({ s with boot := { s.boot with wrapper := k, wso := if k = 1 then some (s.reg .GLB_ID 0) else none } } : State)
     (op.toNat ≤ 1 → exec (.wrapperInstructionLoad op) s = .next (chosen op.toNat)) ∧
     (2 ≤ op.toNat → s.boot.rstN = true → exec (.wrapperInstructionLoad op) s = .next ((chosen 0).emit Ev.WRAPPER_REFUSED Un.inst op.toNat 0)) ∧
     (2 ≤ op.toNat → op.toNat ≤ 3 → s.boot.rstN = false → exec (.wrapperInstructionLoad op) s = .next (chosen op.toNat)) ∧
     (4 ≤ op.toNat → s.boot.rstN = false → exec (.wrapperInstructionLoad op) s = .next (chosen 0)) ∧
     exec .wrstnAssert s = .next (chosen 0))

/-! ## Cascade, services and events -/

/-- From R503 to R515: the cascade. HELLO with its own number and nonce shows that the loop is whole, and lets an instance without a role take a reply that it
has kept, one with its own number and another's nonce is an INST_DUP; the election names the lowest instance that is ranked first; a manager sends START and
TIME, and takes TELEM and RINGRPT; a worker follows TIME, SETCFG and START, and sends TELEM; a lost link and a lost manager are recorded once; the cap that
a manager alone allots itself is at most 60,000; a message that passes through goes on, counted where its check failed, one for this instance alone does
not, and the instance's own that has come round is removed, and counted where it was for one instance. -/
def Obligations.CascadeIsKept : Prop :=
  ∀ (s t : State) (c : CasHdr),
    (∀ m : HelloP, (s.passHello c m).casTake c 0x01 true = (t, true) → t.cas.drawn = true →
      (m.inst.val = t.me → m.nonce.toNat = t.cas.nonce →
        let back := t.updCas fun k => { k with returned := true }
        (t.role ≠ 0 ∨ t.cas.heard = [] → exec (.hello c m) s = .next back) ∧
        (∀ r, t.role = 0 → t.cas.heard.find? (fun h => h.reply && h.mgrValid) = some r → exec (.hello c m) s = .next (back.takeReply r))) ∧
      (m.inst.val = t.me → m.nonce.toNat ≠ t.cas.nonce → exec (.hello c m) s = .next (t.instDup m.nonce.toNat)) ∧
      (m.inst.val ≠ t.me → exec (.hello c m) s = .next (t.takeHello m))) ∧
    (s.cas.drawn = true → s.role = 0 → exec .helloResend s = .next s.sayHello) ∧
    (s.cas.drawn = true → s.role = 0 → s.cas.returned = true →
      let members := maskOf ((s.hellos.filter fun h => !dupIn s.hellos h.inst.val).map fun h => h.inst.val)
      (electFrom s.hellos = none → exec .electionTimeout s = .next s) ∧
      (∀ w, electFrom s.hellos = some w → w ≠ s.me →
        let u := (s.takeRole 1 w 1 members).emit Ev.MGR_ELECTED Un.inst w 1
        exec .electionTimeout s = .next (if s.strap then u.emit Ev.MGR_DUP Un.inst 0 0 else u)) ∧
      (electFrom s.hellos = some s.me → s.hellos.any (fun h => h.strap) = true → members = 0xFFFF →
        exec .electionTimeout s = .next ((s.becomeManager 1 members).emit Ev.MGR_ELECTED Un.inst s.me 1))) ∧
    (s.casTake c 0x02 true = (t, true) → t.role = 0 → t.cas.drawn = true → t.cas.returned = true → t.strap = false → ∀ (m : Inst) (e : BitVec 32) (w : BitVec 16), m.val ≠ t.me →
      c.src.val ≠ t.me →
      exec (.role c m e w) s = .next ((t.takeRole 1 m.val e.toNat w.toNat).emit Ev.MGR_ELECTED Un.inst m.val e.toNat)) ∧
    (s.role = 2 → s.phase = 3 → s.cas.startAt = 15 → s.me = 0 →
      let u := s.updCas fun k => { k with startAt := 16 }
      exec .startSend s = .next (if s.memberList.contains 15 then u.send 0x03 false true 15 [15] else u)) ∧
    (s.role = 2 → s.cas.away < 3 →
      exec .timeSend s = .next ((s.send 0x04 true true 0 [s.wall, s.rd F.TIM_WSTAT_WSTATE 0]).updCas fun k => { k with away := k.away + 1 })) ∧
    (s.role = 1 → exec .telemSend s =
      .next (s.send 0x06 false false s.mgr [s.rd F.PWR_STAT_PAVG 0, s.rd F.PWR_STAT_LADDER 0, s.rd F.THM_STAT_MAXT 0, s.levelWord])) ∧
    (s.cas.linkDown = false → exec .casLinkDown s =
      .next ((s.updCas fun k => { k with linkDown := true }).emit Ev.CAS_LINK_DOWN Un.inst 0 0)) ∧
    (s.role = 1 → s.cas.lostMgr = false → exec .mgrLost s =
      .next ((s.updCas fun k => { k with lostMgr := true }).emit Ev.MGR_LOST Un.inst 0 0)) ∧
    (s.casTake c 0x03 false = (t, true) → t.role ≠ 3 → ∀ phase,
      let u := t.setRefPhase (BitVec.toNat phase)
      exec (.start c phase) s = .next (if u.phase = 2 then u.enterWake else u)) ∧
    (s.casTake c 0x04 false = (t, true) → ∀ wall w,
      (t.role = 1 → c.src.val = t.mgr → exec (.time c wall w) s =
        .next ((t.updCas fun k => { k with lostMgr := false }).followManager ((BitVec.toNat wall + (t.me + 16 - t.mgr) % 16 * 40) % 2 ^ 64))) ∧
      (t.role = 2 → c.src.val = t.me → t.cas.broken = false → exec (.time c wall w) s =
        .next ((t.updCas fun k => { k with away := 0, broken := false }).wr F.CAS_STAT_LOOPOK 0 1))) ∧
    (s.casTake c 0x05 false = (t, true) → t.role = 1 → c.src.val = t.mgr → ∀ v,
      exec (.setcfg c 0 v) s = .next ((t.updCas fun k => { k with node := some (v.toNat % 64) }).setNode (v.toNat % 64)) ∧
      exec (.setcfg c 1 v) s = .next (t.setRefPhase v.toNat) ∧
      exec (.setcfg c 2 v) s = .next ((t.updCas fun k => { k with cap := some (v.toNat % 2 ^ 16) }).wr F.PWR_CAP_CAP 0 v.toNat)) ∧
    (s.casTake c 0x06 false = (t, true) → t.role = 2 → ∀ p l m w,
      exec (.telem c p l m w) s = .next (t.updCas fun k => { k with telem := Store.insert k.telem c.src.val (p, 0) })) ∧
    (s.casTake c 0x07 false = (t, true) → t.role = 2 → ∀ r z, exec (.ringrpt c r z) s = .next (t.ringReport c.src.val r.toNat)) ∧
    (s.role = 2 → s.cas.broken = false → s.memberList = [s.me] →
      let u := s.updCas fun k => { k with telem := k.telem.map fun e => (e.1, (e.2.1, e.2.2 + 1)) }
      ∃ cap, exec .capAllocate s = .next (u.wr F.PWR_CAP_CAP 0 cap) ∧ cap ≤ 60000) ∧
    (∀ (typ : BitVec 8) crcOk len,
      let u := s.updCas fun k => { k with linkDown := false }
      let own := c.src.val = s.me ∧ typ ≠ 1 ∧ s.role ≠ 3
      let toMe := c.bc = false ∧ c.dst.val = s.me
      let passed := u.updCas fun k => { k with fwd := k.fwd ++ [FwdMsg.mk c typ.toNat (some len) crcOk] }
      (¬ own → ¬ toMe → exec (.cascadeForward c typ crcOk false len) s = .next (if crcOk then passed else passed.bump F.CAS_CNT_CRCERR 0 1)) ∧
      (toMe → exec (.cascadeForward c typ crcOk false len) s = .next (if crcOk then u else u.bump F.CAS_CNT_CRCERR 0 1)) ∧
      (own → ¬ toMe → crcOk = true → exec (.cascadeForward c typ crcOk false len) s = .next (if c.bc then u else u.bump F.CAS_CNT_UNDELIV 0 1)))

/-- From R517 to R520, R522, R524 and R532 to R538: the services. The oldest call that waits for its answer is served: the pool allocates, counts, releases,
publishes, finds, evicts and fetches pages, and answers 0x08 while it is not configured and 0x03 for a handle that it does not know; the census takes its
snapshots; a mailbox message is taken or refused; STATUS, ASSAY_REPAIR and ASSAY_TEST answer theirs, and a board message waits before phase 8; a key slot
that is not locked takes its words and a locked one answers DECERR. -/
def Obligations.ServicesAnswer : Prop :=
  ∀ (s : State) (h e : Nat) (w : Word) (pc : Pc) (slot : Fin 8) (k : Fin 4) (j : Fin 16),
    (∀ node data,
      let onH := s.poolOn = true → ∀ p, s.page h = some p →
        (s.serving 0x101 [h] = true → p.count < 65535 →
          exec (.poolAddref h) s = .next ((s.setPage p.handle (some { p with count := p.count + 1 })).svcReply 0 p.handle (p.count + 1))) ∧
        (s.serving 0x102 [h] = true → exec (.poolRelease h) s = .next ((s.release p).svcReply 0 h (p.count - 1))) ∧
        (s.serving 0x103 [h] = true → p.spill = none → ∀ u d, s.fontRead p.addr (2 ^ p.s) = (u, some d) → u.font.pages = [p] → p.hash ≠ none →
          let x := contentHash (2 ^ p.s / 8) d p.s
          exec (.poolPublish h) s = .next (s.wholly fun _ => (u.setPage p.handle (some { p with hash := some x })).svcReply 0 p.handle x)) ∧
        (s.serving 0x105 [h, node] = true → s.spillOn = true → p.spill = none → node < 64 → s.route node = 1 → ∀ a, s.spillPlace node p.s = some a →
          exec (.poolEvict h node true) s = .next (((s.setPage h (some { p with spill := some (node, a) })).freeBlocks p.addr p.s).svcReply 0 h 0)) ∧
        (s.serving 0x106 [h] = true → (p.spill = none → exec (.poolFetch h data) s = .next (s.wholly fun s => s.svcReply 0 h (s.pageAddr p))) ∧
          (p.spill ≠ none → s.spillOn = true → data.length = 2 ^ p.s → ∀ a, s.arenaPlace p.s = some a →
            let q := { p with addr := a, spill := none }
            exec (.poolFetch h data) s = .next (s.wholly fun s => ((s.fontWrite a data).setPage h (some q)).svcReply 0 h (s.pageAddr q)))) ∧
        (s.serving 0x107 [h] = true →
          exec (.poolAddr h) s = .next (if p.spill = none then s.svcReply 0 h (s.pageAddr p) else s.svcReply 9 0 0))
      onH ∧
      (s.poolOn = false → s.serving 0x101 [h] = true → exec (.poolAddref h) s = .next (s.svcReply 8 0 0)) ∧
      (s.poolOn = true → s.page h = none → s.serving 0x107 [h] = true → exec (.poolAddr h) s = .next (s.svcReply 3 0 0))) ∧
    (s.serving 0x100 [e] = true → s.poolOn = true →
      (e < 12 ∨ 21 < e → exec (.poolAlloc e) s = .next (s.svcReply 4 0 0)) ∧
      (12 ≤ e → e ≤ 21 → s.arenaPlace e = none → exec (.poolAlloc e) s = .next (s.svcReply 1 0 0)) ∧
      (12 ≤ e → e ≤ 21 → s.font.pages = [] → ∀ a, s.arenaPlace e = some a →
        let n := s.font.nextPage % 2 ^ 32
        let p : PoolPage := { handle := n, s := e, addr := a, count := 1, spill := none, hash := none }
        let t : State := { s with font := { s.font with pages := [p], nextPage := (n + 1) % 2 ^ 32 } }
        exec (.poolAlloc e) s = .next (t.svcReply 0 n (t.pageAddr p)))) ∧
    (s.serving 0x104 [w.toNat, e] = true → s.poolOn = true →
      ((s.font.pages.find? fun p => p.hash == some w.toNat && p.s == e) = none → exec (.poolLookup w e) s = .next (s.svcReply 2 0 0)) ∧
      (∀ p, (s.font.pages.find? fun p => p.hash == some w.toNat && p.s == e) = some p → p.spill = none →
        exec (.poolLookup w e) s = .next (s.addRef p (s.pageAddr p)))) ∧
    (∀ (mask : BitVec 8) c, s.headCall = some c → c.func = 0x200 → c.args.headD 0 % 256 = mask.toNat →
      exec (.censusSnapCall mask) s = .next (if s.censusOn then (s.takeSnaps mask.toNat).svcReply 0 0 0 else s.svcReply 8 0 0)) ∧
    (∀ x, (s.pc pc.val).queue = [x] → (∃ a b, x.req.origin = .census a b) →
      exec (.censusReadMissed pc) s = .next ((s.updPc pc.val fun q => { q with queue := [] }).respond x.req 1 false []).censusDone) ∧
    (exec (.mailboxSubmit slot w) s = .next (s.mboxSubmit slot.val w.toNat) ∧
      (s.font.mboxBusy.contains slot.val = true → s.mboxSubmit slot.val w.toNat = s.decerr)) ∧
    (∀ l, (s.font.bmc.length < 8 → exec (.bmcMessage l) s = .next { s with font := { s.font with bmc := s.font.bmc ++ [l], bmcAck := true } }) ∧
      (8 ≤ s.font.bmc.length → exec (.bmcMessage l) s = .next { s with font := { s.font with bmcAck := false } })) ∧
    (s.domOn 64 = true →
      (∀ i, s.mboxFind 1 none = some i → exec .status s = .next (s.mboxDone i 0 s.statusWords)) ∧
      (s.mboxFind 1 none = none → exec .status s = .next (if s.phase = 8 then s.bmcServe else s)) ∧
      (∀ i r ok, s.mboxFind 2 (some pc.val) = some i →
        (s.pcSt pc.val ≠ 1 → exec (.assayRepair pc r ok) s = .next (s.mboxDone i 3 [])) ∧
        (s.pcSt pc.val = 1 → r = [] →
          let t := (s.quietPc pc.val).wr F.PC_STAT_STATE pc.val 0
          exec (.assayRepair pc r ok) s = .next ((t.outOfSelfRefresh pc.val ok ok).mboxDone i 0 [0, 0]))) ∧
      (∀ i f, s.mboxFind 3 (some pc.val) = some i →
        (s.anyOpen = true → exec (.assayTest pc f) s = .next (s.mboxDone i 3 [])) ∧
        (s.anyOpen = false →
          let t := (s.quietPc pc.val).dropLines (fun l => (s.map.chunk l.chunk).1 = pc.val) 1
          let u := { t with basin := { t.basin with buffer := t.basin.buffer.filter fun l => (s.map.chunk l.chunk).1 ≠ pc.val } }
          let r := u.assayed pc.val f
          exec (.assayTest pc f) s = .next (r.1.mboxDone i 0 [b2n !r.2.1, r.2.2.1, r.2.2.2])))) ∧
    (s.answers (Reg.FNT_SVCBASE.addr 0) = true → exec (.svcConfigRead w) s = .next (s.wFntSvcbase w.toNat).ok) ∧
    (s.answers 0x904000 = true → (Store.get 0 s.font.keys (k.val * 16 + 12)).testBit 63 = false → j.val < 12 →
      exec (.keySlotWrite k j w) s =
        .next ({ s with font := { s.font with keys := Store.put 0 s.font.keys (k.val * 16 + j.val) w.toNat } } : State).ok) ∧
    (s.answers 0x904000 = true → (Store.get 0 s.font.keys (k.val * 16 + 12)).testBit 63 = true → exec (.keySlotWrite k j w) s = .next s.decerr) ∧
    (s.answers (Reg.FNT_FWCTL.addr 0) = true → exec (.fwLoad w) s = .next (s.wFntFwctl w.toNat).ok)

/-- From R525 to R531: plume. START and CANCEL act as FNT_PLCTL says; a receiver whose font is ON takes the announced header, writes each packet that is good to
its area, answers the roll call with 2 without an area, arms its copy, takes GO, and drops the image when it is excluded or the plume is cancelled; the
manager takes the answers, and fails an instance without an area or without an answer. What touches memory waits as a whole while memory holds it. -/
def Obligations.PlumesRun : Prop :=
  ∀ (s t : State) (c : CasHdr) (v : Word),
    (s.answers (Reg.FNT_PLCTL.addr 0) = true →
      exec (.plumeStart v) s = .next (s.wFntPlctl (setBits v.toNat 63 63 1)).ok ∧ exec (.plumeCancel v) s = .next (s.wFntPlctl (setBits v.toNat 62 62 1)).ok) ∧
    (let got := fun (typ : Nat) => s.casTake c typ false = (t, true) ∧ t.domOn 64 = true ∧ c.src.val ≠ t.me;
     let plume := fun (f : State → State) => t.wholly f;
      (∀ hdr, got 0x20 → exec (.plAnnounce c hdr) s = .next (plume fun t => t.updPl fun p => { p with hdr := hdr, got := [], armed := false, go := none })) ∧
      (∀ (image : BitVec 16) (n crc : BitVec 32) data a, got 0x21 → t.plumeArea = some a → t.plHas image.toNat = true →
        headerGood t.font.plume.hdr = true → lengthGood t.font.plume.hdr = true → n.toNat < packetsOf t.font.plume.hdr → data.length = 4096 →
        crc32c data = crc.toNat → exec (.plData c image n crc data) s = .next (plume fun t =>
          (t.fontWrite (a + n.toNat * 4096) data).updPl fun p => { p with got := Ranges.add p.got n.toNat (n.toNat + 1) })) ∧
      (∀ (image : BitVec 16) r, got 0x22 → t.plHas image.toNat = true → t.plumeArea = none →
        exec (.plRoll c image r) s = .next (plume fun t => t.send 0x23 false false t.mgr [2, 0])) ∧
      (∀ (image : BitVec 16) (out : BitVec 16), got 0x24 → t.plHas image.toNat = true →
        exec (.plArm c image out) s = .next (plume fun t => if out.toNat.testBit t.me then t.plDrop else t.armSelf)) ∧
      (∀ (image : BitVec 16) now go map, got 0x26 →
        exec (.plGo c image now go map) s = .next (plume fun t => t.takeGo image.toNat now go.toNat map.toNat)) ∧
      (∀ (image : BitVec 16), got 0x27 → t.plHas image.toNat = true → exec (.plCancel c image) s = .next (plume fun t => t.plDrop)) ∧
      (t.role = 2 →
        (∀ code cores jets, got 0x25 →
          exec (.plReady c code cores jets) s = .next (plume fun t => t.takeReady c.src.val code.toNat cores.toNat jets.toNat)) ∧
        (got 0x23 → t.plSt = 3 → t.plMembers.contains c.src.val = true → ∀ total l,
          exec (.plMiss c 2 total l) s = .next (plume fun t => (t.bootFailed c.src.val).rollStep) ∧
          exec (.plMiss c 0 total l) s =
            .next (plume fun t => (t.updPl fun p => { p with misses := Store.insert p.misses c.src.val (0, total.toNat, l) }).rollStep)))) ∧
    (∀ a, s.plumeArea = some a → s.domOn 64 = true →
      (s.role = 2 → s.plSt = 3 → exec .rollwaitExpire s = .next (s.wholly fun t => t.rollEnd a)) ∧
      (s.font.plume.armed = true → exec .armwaitExpire s = .next (s.wholly fun t =>
        let r := (t.updPl fun p => { p with armed := false }).readyCores a t.plImage
        r.1.sayReady 0 r.2 0))) ∧
    (∀ k : Inst, s.role = 2 → s.plSt = 5 → s.domOn 64 = true → s.plMembers.contains k.val = true → s.font.plume.done.contains k.val = false →
      exec (.plReadyTimeout k) s = .next (s.wholly fun t => (t.bootFailed k.val).armDone))

/-- From R544 to R556: event records. The collector takes the earliest record, that of the lowest unit first, logs it, and drops it where no queue takes it
while writing is possible, buffers it, or counts it where the buffer is full, which a fatal one finds at 256 records; a queue's record is written to its
area with the next PROD, or counted lost where the queue is full, when a fatal one takes the place of the newest; records lost are reported first once there
is room; CONS is taken within the records written; FREEZE and REARM act on the log as GLB_SEDCTL says; and the aggregation asks a member once more, and then
goes on without it. -/
def Obligations.EventsAreCollected : Prop :=
  ∀ (s : State) (q : Fin 2) (v : Word), let n := q.val
    (s.nextRecord = none → exec .eventCollect s = .next s) ∧
    (∀ e, s.nextRecord = some e →
      let t := (s.updEv fun v => { v with arising := dropFirst (fun x => x == e) v.arising }).logRecord e
      (t.evWritable = true → t.evRoute e = none → exec .eventCollect s = .next (t.evDrop e)) ∧
      let taken := t.updEv fun v => { v with buffer := v.buffer ++ [e] }
      (t.evWritable = false ∨ t.evRoute e ≠ none →
        (e.sev ≠ 4 → exec .eventCollect s = .next (if t.evFull then t.bump F.GLB_EVCNT_DROPPED 0 1 else taken)) ∧
        (e.sev = 4 → exec .eventCollect s = .next (if 256 ≤ t.events.buffer.length then t.bump F.GLB_EVCNT_DROPPED 0 1 else taken)))) ∧
    (s.evWritable = false → exec (.eventQueueWrite q) s = .next (s.wholly fun s => s)) ∧
    (s.evWritable = true → ∀ t o, s.evFirst n s.events.buffer = (t, o) →
      let full := (t.prod n + 2 ^ 32 - t.consOf n) % 2 ^ 32 = t.evSize n
      let lost := Store.get 0 t.events.lostRun n
      let early := ¬ full ∧ lost ≠ 0 ∧ t.queueOn n = true
      (early → ∀ u, t.evPut n (t.prod n) ((t.prod n + 1) % 2 ^ 32) (t.lostRecord n lost) = (u, true) →
        exec (.eventQueueWrite q) s = .next (s.wholly fun _ => (u.updEv fun v => { v with lostRun := Store.put 0 v.lostRun n 0 }).evNote n false)) ∧
      (¬ early → o = none → exec (.eventQueueWrite q) s = .next (s.wholly fun _ => t)) ∧
      (¬ early → ∀ e, o = some e →
        let taken := fun (u : State) => u.updEv fun v => { v with buffer := dropFirst (fun x => x == e) v.buffer }
        (full → e.sev ≠ 4 → exec (.eventQueueWrite q) s = .next (s.wholly fun _ => (taken t).evLost n 1)) ∧
        (full → e.sev = 4 → ∀ u, (t.evLost n 1).evPut n (t.prod n + 2 ^ 32 - 1) (t.prod n) e = (u, true) →
          exec (.eventQueueWrite q) s = .next (s.wholly fun _ => (taken u).evNote n true)) ∧
        (¬ full → ∀ u, t.evPut n (t.prod n) ((t.prod n + 1) % 2 ^ 32) e = (u, true) →
          exec (.eventQueueWrite q) s = .next (s.wholly fun _ => (taken u).evNote n (e.sev == 4))))) ∧
    (s.answers (Reg.GLB_EVQPTR.addr n) = true →
      let c := F.GLB_EVQPTR_CONS.of v.toNat
      let behind := (s.prod n + 2 ^ 32 - c) % 2 ^ 32
      (s.evSize n < behind → exec (.consWrite q v) s = .next (s.sedRefuse 4 (Reg.addr .GLB_EVQPTR n)).ok) ∧
      (behind ≤ s.evSize n →
        let t := (s.wr F.GLB_EVQPTR_CONS n c).setArmed n true
        exec (.consWrite q v) s = .next (if t.prod n = c then t else t.notify n).ok)) ∧
    (s.answers (Reg.GLB_EVQ.addr n) = true → exec (.glbEvqWrite q v) s = .next (s.wEvq n v.toNat).ok) ∧
    (s.answers (Reg.GLB_SEDCTL.addr 0) = true →
      exec .freeze s = .next (s.wSedctl (s.reg .GLB_SEDCTL 0 + 2 ^ 63)).ok ∧
      exec (.rearm true) s = .next (s.wSedctl (s.reg .GLB_SEDCTL 0 + 2 ^ 62 + 2 ^ 61)).ok ∧
      exec (.rearm false) s = .next (s.wSedctl (s.reg .GLB_SEDCTL 0 + 2 ^ 62)).ok) ∧
    (s.answers (Reg.GLB_SEDAGG.addr 0) = true → exec (.sedAggStart v) s = .next (s.wSedagg (setBits v.toNat 63 63 1)).ok) ∧
    (∀ c t, s.casTake c 0x30 false = (t, true) →
      (t.role = 1 → c.src.val = t.mgr → ∀ p,
        exec (.sed c 0 p [0]) s = .next (t.wholly fun t => (t.updEv fun v => { v with aggSnap := t.logState }).sedSend (logIndices t.logState))) ∧
      (t.role = 2 → t.rd F.GLB_SEDAGGSTAT_STATE 0 = 1 → t.rd F.GLB_SEDAGGSTAT_CUR 0 = c.src.val → ∀ p data,
        exec (.sed c 2 p data) s = .next (t.wholly fun t => t.aggEnd c.src.val (leNat (sliceB data 0 8))))) ∧
    (s.role = 2 → s.rd F.GLB_SEDAGGSTAT_STATE 0 = 1 →
      (s.events.aggRetry = false → exec .sedWorkerTimeout s = .next (s.updEv fun v => { v with aggRetry := true }).aggReq) ∧
      (s.events.aggRetry = true → exec .sedWorkerTimeout s =
        .next (s.wr F.GLB_SEDAGGSTAT_INCOMPLETE 0 (s.rd F.GLB_SEDAGGSTAT_INCOMPLETE 0 ||| 2 ^ s.rd F.GLB_SEDAGGSTAT_CUR 0)).aggNext))

/-! ## Memory, reset and the instruction words -/

/-- From R23, R81 and R83: stack memory reads back what was put into it: each byte of a run reads the byte put there and every other byte as before; a granule
written raw, data and check bytes, reads raw as written, whether its check slot lies in an open page's check buffer or in memory; and the list of bytes
stays in its form. -/
def Obligations.MemoryReadsBack : Prop :=
  ∀ (s : State) (k a : Nat) (l w : Bytes) (x : Loc),
    (k ≤ a → a < k + l.length → (s.setRun k l).memB a = l.getD (a - k) 0) ∧
    (a < k ∨ k + l.length ≤ a → (s.setRun k l).memB a = s.memB a) ∧
    (s.setRun k l).memRun k l.length = l ∧
    (x.slot < 15 → w.length = 68 → (s.setGranuleRaw x w).rawGranule x = w) ∧
    (Memory.wf s.mem = true → Memory.wf (s.setRun k l).mem = true ∧ Memory.wf (s.setGranuleRaw x w).mem = true)

/-- From R17, R146 and the register tables: the state after reset. Every register reads the reset value of its table; no byte of stack memory reads other than 0
(the model's choice, notes/assumptions/4.md); no command waits, no event has arisen, each generator holds its constant, and the state is in its form. -/
def Obligations.ResetStateHolds : Prop :=
  (∀ r i, State.reset.reg r i = r.resetVal i) ∧ (∀ k, State.reset.memB k = 0) ∧ State.reset.pending = [] ∧ State.reset.events.arising = [] ∧
  (∀ n, (State.reset.sp n).gen = 0x9E3779B97F4A7C15) ∧ State.reset.wf = true ∧
  State.reset.rd F.AQD_RTO_RTO 0 = 2000 ∧ State.reset.rd F.GLB_BOOTSTAT_PHASE 0 = 0 ∧ State.reset.spSt 0 = 0

/-- The words that the spec writes out in its examples (06_zynsa_encoding.md, "Example"; 07_jet_engines.md, R183 and after) decode to their instructions. -/
def Obligations.WorkedWordsDecode : Prop :=
  ∀ sp : Sp, let h : Hdr := { sp := sp, ps := 0, x := false, ext := 0 }
    let d := fun w => decodeInsn sp w 0
    d 0x1001800000000000 = some (.movr h 0x10 0 0) ∧ d 0x1002000000000000 = some (.ldd h 0 0 0) ∧ d 0x1002400008000000 = some (.ldd h 1 0 1) ∧
    d 0x1003880004000000 = some (.ldr h 0x11 0 4) ∧ d 0x1003900005000000 = some (.ldr h 0x12 0 5) ∧ d 0x1000100000000800 = some (.ldi h 2 1) ∧
    d 0x0400000000000418 = some (.loop h 0 4 1 true) ∧
    d 0x2000244000000000 = some (.move h { od := 2, dd := 1, oa := 1, da := 0, ob := 0, db := 0, rm := 0, sat := false, ac := 0, gx := 0, px := 0, imm := 0 }) ∧
    d 0x10018C5000000000 = some (.movr h 0x11 0x11 0x4000) ∧ d 0x1001949000000000 = some (.movr h 0x12 0x12 0x4000) ∧
    d 0x0401000000000000 = some (.endloop h) ∧
    d 0x0C010000C9400000 = some (.signal h { aa := 0, disp := 6, op := 1, gv := 2, evt := true, ret := false, gr := 0 }) ∧
    d 0x0001000000000000 = some (.halt h) ∧
    d 0x8000984840000000 =
      some (.gemv h { od := 9, dd := 2, oa := 1, da := 0, ob := 8, db := 1, rm := 0, sat := false, ac := 0, gx := 0, px := 0, imm := 0 })

/-- From R159, R160, R167, R168 and R180 to R183: for every instruction, with every operand at every value of its fields, decoding the word that its encoding
gives (for its spout, with its extension word) gives the instruction back. -/
def Obligations.EncodedInstructionsDecode : Prop :=
  ∀ (i : Instr) (w : Nat), i.wf = true → encodeInsn i = some w →
    ∃ sp ext, decodeInsn sp w ext = some i
end

