-- ==== Sys2Proof/Laws/Bits.lean ====
section
/-! SUPPORT. Sys2Proof/Laws/Bits.lean: reading and writing bit fields, and byte order. -/
namespace Sys2Proof.Machine

theorem bits_lt (n hi lo : Nat) : bits n hi lo < 2 ^ (hi + 1 - lo) := Nat.mod_lt _ (Nat.two_pow_pos _)

/-- A number as what stands above a field, in it and below it. -/
theorem split_field (n hi lo : Nat) (h : lo ≤ hi) :
    n = n / 2 ^ (hi + 1) * 2 ^ (hi + 1) + (bits n hi lo * 2 ^ lo + n % 2 ^ lo) := by
  have e : 2 ^ (hi + 1) = 2 ^ (hi + 1 - lo) * 2 ^ lo := by rw [← Nat.pow_add]; congr 1; omega
  have a := Nat.div_add_mod n (2 ^ lo)
  have b := Nat.div_add_mod (n / 2 ^ lo) (2 ^ (hi + 1 - lo))
  have d : n / 2 ^ (hi + 1) = n / 2 ^ lo / 2 ^ (hi + 1 - lo) := by rw [e, Nat.mul_comm, Nat.div_div_eq_div_mul]
  unfold bits
  rw [Nat.shiftRight_eq_div_pow, d, e]
  calc n = 2 ^ lo * (n / 2 ^ lo) + n % 2 ^ lo := a.symm
    _ = 2 ^ lo * (2 ^ (hi + 1 - lo) * (n / 2 ^ lo / 2 ^ (hi + 1 - lo)) + n / 2 ^ lo % 2 ^ (hi + 1 - lo)) + n % 2 ^ lo := by rw [b]
    _ = _ := by rw [Nat.mul_add, ← Nat.add_assoc]; congr 1; congr 1
                · rw [← Nat.mul_assoc, Nat.mul_comm (2 ^ lo), Nat.mul_comm]
                · rw [Nat.mul_comm]

/-- What writing a field leaves: the number above it, the value in it, the number below it. -/
theorem setBits_eq (n hi lo v : Nat) (h : lo ≤ hi) :
    setBits n hi lo v = n / 2 ^ (hi + 1) * 2 ^ (hi + 1) + (v % 2 ^ (hi + 1 - lo) * 2 ^ lo + n % 2 ^ lo) := by
  have s := split_field n hi lo h
  unfold setBits
  simp only
  omega

theorem bits_testBit (n hi lo k : Nat) : (bits n hi lo).testBit k = (decide (k < hi + 1 - lo) && n.testBit (lo + k)) := by
  simp [bits, Nat.testBit_mod_two_pow, Nat.testBit_shiftRight]

theorem setBits_testBit (n hi lo v k : Nat) (h : lo ≤ hi) :
    (setBits n hi lo v).testBit k = if k < lo then n.testBit k else if k ≤ hi then v.testBit (k - lo) else n.testBit k := by
  have hm : n % 2 ^ lo < 2 ^ lo := Nat.mod_lt _ (Nat.two_pow_pos _)
  have hv : v % 2 ^ (hi + 1 - lo) < 2 ^ (hi + 1 - lo) := Nat.mod_lt _ (Nat.two_pow_pos _)
  have e : 2 ^ (hi + 1) = 2 ^ lo * 2 ^ (hi + 1 - lo) := by rw [← Nat.pow_add]; congr 1; omega
  have hb : 2 ^ lo * (v % 2 ^ (hi + 1 - lo)) + n % 2 ^ lo < 2 ^ (hi + 1) := by
    rw [e]
    calc 2 ^ lo * (v % 2 ^ (hi + 1 - lo)) + n % 2 ^ lo < 2 ^ lo * (v % 2 ^ (hi + 1 - lo)) + 2 ^ lo := by omega
      _ = 2 ^ lo * (v % 2 ^ (hi + 1 - lo) + 1) := by rw [Nat.mul_add, Nat.mul_one]
      _ ≤ _ := Nat.mul_le_mul_left _ hv
  rw [setBits_eq _ _ _ _ h, Nat.mul_comm (n / _), Nat.mul_comm (v % _), Nat.testBit_two_pow_mul_add _ hb, Nat.testBit_two_pow_mul_add _ hm,
    Nat.testBit_div_two_pow, Nat.testBit_mod_two_pow, Nat.testBit_mod_two_pow]
  by_cases a : k < lo
  · have b : k < hi + 1 := by omega
    simp [a, b]
  · by_cases b : k ≤ hi
    · have c : k < hi + 1 := by omega
      have d : k - lo < hi + 1 - lo := by omega
      simp [a, b, c, d]
    · have c : ¬ k < hi + 1 := by omega
      have d : k - (hi + 1) + (hi + 1) = k := by omega
      simp [a, b, c, d]

/-- A field reads as what was written to it. -/
theorem bits_setBits_same (n hi lo v : Nat) (h : lo ≤ hi) : bits (setBits n hi lo v) hi lo = v % 2 ^ (hi + 1 - lo) := by
  apply Nat.eq_of_testBit_eq
  intro k
  rw [bits_testBit, setBits_testBit _ _ _ _ _ h, Nat.testBit_mod_two_pow]
  by_cases a : k < hi + 1 - lo
  · have b : lo + k ≤ hi := by omega
    have c : ¬ lo + k < lo := by omega
    simp [a, b, c]
  · simp [a]

/-- A field that does not overlap the one written reads as before. -/
theorem bits_setBits_apart (n hi lo v h2 l2 : Nat) (h : lo ≤ hi) (d : h2 < lo ∨ hi < l2) : bits (setBits n hi lo v) h2 l2 = bits n h2 l2 := by
  apply Nat.eq_of_testBit_eq
  intro k
  rw [bits_testBit, bits_testBit, setBits_testBit _ _ _ _ _ h]
  by_cases a : k < h2 + 1 - l2
  · rcases d with d | d
    · have b : l2 + k < lo := by omega
      simp [b]
    · have b : ¬ l2 + k < lo := by omega
      have c : ¬ l2 + k ≤ hi := by omega
      simp [b, c]
  · simp [a]

/-- Writing a field keeps a number within a width that holds the field. -/
theorem setBits_lt (n hi lo v w : Nat) (h : lo ≤ hi) (hw : hi < w) (hn : n < 2 ^ w) : setBits n hi lo v < 2 ^ w := by
  apply Nat.lt_pow_two_of_testBit
  intro k hk
  rw [setBits_testBit _ _ _ _ _ h]
  have a : ¬ k < lo := by omega
  have b : ¬ k ≤ hi := by omega
  simp only [a, b, if_false]
  exact Nat.testBit_lt_two_pow (Nat.lt_of_lt_of_le hn (Nat.pow_le_pow_right (by decide) hk))

/-! ## Byte order -/

theorem toLE_length (n v : Nat) : (toLE n v).length = n := by
  induction n generalizing v with
  | zero => rfl
  | succ n ih => simp [toLE, ih]

/-- The little-endian bytes of a number spell it. -/
theorem leNat_toLE (n v : Nat) : leNat (toLE n v) = v % 2 ^ (8 * n) := by
  induction n generalizing v with
  | zero => simp [toLE, leNat, Nat.mod_one]
  | succ n ih =>
    have e : 2 ^ (8 * (n + 1)) = 256 * 2 ^ (8 * n) := by rw [Nat.mul_add, Nat.pow_add, Nat.mul_comm]
    simp only [toLE, leNat, ih, BitVec.toNat_ofNat]
    rw [e, Nat.mod_mul]

end Sys2Proof.Machine
end

