-- ==== Sys2Proof/Laws/Store.lean ====
section
/-! SUPPORT. Sys2Proof/Laws/Store.lean: reading a store after a write, and the canonical form that every write keeps. -/
namespace Sys2Proof.Machine

variable {α : Type}

@[simp] theorem Store.find_erase_same (m : Store α) (k : Nat) : Store.find (Store.erase m k) k = none := by
  induction m with
  | nil => rfl
  | cons e m ih => obtain ⟨j, w⟩ := e; by_cases h : j = k <;> simp [Store.erase, Store.find, h, ih]

theorem Store.find_erase_ne (m : Store α) {k j : Nat} (h : k ≠ j) : Store.find (Store.erase m j) k = Store.find m k := by
  induction m with
  | nil => rfl
  | cons e m ih =>
    obtain ⟨i, w⟩ := e
    by_cases a : i = j
    · have b : ¬ i = k := fun c => h (c.symm.trans a)
      simp only [Store.erase, a, if_true, ih]
      simp only [Store.find]; rw [if_neg (fun c => h c.symm)]
    · by_cases b : i = k
      · subst b; simp [Store.erase, Store.find, a]
      · simp [Store.erase, Store.find, a, b, ih]

@[simp] theorem Store.find_insert_same (m : Store α) (k : Nat) (v : α) : Store.find (Store.insert m k v) k = some v := by
  induction m with
  | nil => simp [Store.insert, Store.find]
  | cons e m ih =>
    obtain ⟨j, w⟩ := e
    by_cases a : k < j
    · simp [Store.insert, Store.find, a]
    · by_cases b : k = j
      · simp [Store.insert, Store.find, b]
      · simp [Store.insert, Store.find, a, b, ih, Ne.symm b]

theorem Store.find_insert_ne (m : Store α) {k j : Nat} (v : α) (h : k ≠ j) : Store.find (Store.insert m j v) k = Store.find m k := by
  induction m with
  | nil => simp [Store.insert, Store.find, Ne.symm h]
  | cons e m ih =>
    obtain ⟨i, w⟩ := e
    by_cases a : j < i
    · simp [Store.insert, Store.find, a, Ne.symm h]
    · by_cases b : j = i
      · subst b
        have c : ¬ j = k := fun c => h c.symm
        simp [Store.insert, Store.find, c]
      · by_cases c : i = k
        · subst c; simp [Store.insert, Store.find, a, b]
        · simp [Store.insert, Store.find, a, b, c, ih]

/-- A key reads as what was written to it. -/
@[simp] theorem Store.get_put_same [DecidableEq α] (d : α) (m : Store α) (k : Nat) (v : α) : Store.get d (Store.put d m k v) k = v := by
  unfold Store.get Store.put
  by_cases h : v = d <;> simp [h]

/-- Another key reads as before. -/
theorem Store.get_put_ne [DecidableEq α] (d e : α) (m : Store α) {k j : Nat} (v : α) (h : k ≠ j) :
    Store.get e (Store.put d m j v) k = Store.get e m k := by
  unfold Store.get Store.put
  by_cases a : v = d
  · simp [a, Store.find_erase_ne m h]
  · simp [a, Store.find_insert_ne m v h]

theorem Store.find_put_ne [DecidableEq α] (d : α) (m : Store α) {k j : Nat} (v : α) (h : k ≠ j) :
    Store.find (Store.put d m j v) k = Store.find m k := by
  unfold Store.put
  by_cases a : v = d
  · simp [a, Store.find_erase_ne m h]
  · simp [a, Store.find_insert_ne m v h]

/-! ## The canonical form -/

theorem Store.rises_erase (m : Store α) (b : Option Nat) (k : Nat) (h : Store.risesFrom b m = true) :
    Store.risesFrom b (Store.erase m k) = true ∧ ∀ c, Store.risesFrom (some c) m = true → Store.risesFrom (some c) (Store.erase m k) = true := by
  have weaken : ∀ (l : Store α) (c d : Nat), c ≤ d → Store.risesFrom (some d) l = true → Store.risesFrom (some c) l = true := by
    intro l c d hcd hl
    cases l with
    | nil => rfl
    | cons e l => obtain ⟨i, w⟩ := e; simp [Store.risesFrom] at *; exact ⟨by omega, hl.2⟩
  have main : ∀ (l : Store α) (c : Nat), Store.risesFrom (some c) l = true → Store.risesFrom (some c) (Store.erase l k) = true := by
    intro l
    induction l with
    | nil => intro c _; rfl
    | cons e l ih =>
      obtain ⟨i, w⟩ := e
      intro c hc
      simp [Store.risesFrom] at hc
      by_cases a : i = k
      · simp only [Store.erase, a, if_true]
        exact ih c (weaken l c i (by omega) hc.2)
      · simp only [Store.erase, a, if_false, Store.risesFrom, Bool.and_eq_true, decide_eq_true_eq]
        exact ⟨hc.1, ih i hc.2⟩
  refine ⟨?_, main m⟩
  cases b with
  | some c => exact main m c h
  | none =>
    induction m with
    | nil => rfl
    | cons e l ih =>
      obtain ⟨i, w⟩ := e
      simp only [Store.risesFrom] at h
      by_cases a : i = k
      · simp only [Store.erase, a, if_true]
        apply ih
        cases l with
        | nil => rfl
        | cons e2 l2 => obtain ⟨i2, w2⟩ := e2; simp [Store.risesFrom] at *; exact h.2
      · simp only [Store.erase, a, if_false, Store.risesFrom]
        exact main l i h

theorem Store.rises_insert (m : Store α) (k : Nat) (v : α) :
    (Store.risesFrom none m = true → Store.risesFrom none (Store.insert m k v) = true) ∧
    ∀ c, c < k → Store.risesFrom (some c) m = true → Store.risesFrom (some c) (Store.insert m k v) = true := by
  have main : ∀ (l : Store α) (c : Nat), c < k → Store.risesFrom (some c) l = true → Store.risesFrom (some c) (Store.insert l k v) = true := by
    intro l
    induction l with
    | nil => intro c hc _; simp [Store.insert, Store.risesFrom, hc]
    | cons e l ih =>
      obtain ⟨i, w⟩ := e
      intro c hc h
      simp [Store.risesFrom] at h
      by_cases a : k < i
      · simp [Store.insert, a, Store.risesFrom, hc, h.2]
      · by_cases b : k = i
        · subst b; simp [Store.insert, Store.risesFrom, hc, h.2]
        · simp only [Store.insert, a, b, if_false, Store.risesFrom, Bool.and_eq_true, decide_eq_true_eq]
          exact ⟨h.1, ih i (by omega) h.2⟩
  refine ⟨?_, main m⟩
  intro h
  cases m with
  | nil => rfl
  | cons e l =>
    obtain ⟨i, w⟩ := e
    simp only [Store.risesFrom] at h
    by_cases a : k < i
    · simp [Store.insert, a, Store.risesFrom, h]
    · by_cases b : k = i
      · subst b; simp [Store.insert, Store.risesFrom, h]
      · simp only [Store.insert, a, b, if_false, Store.risesFrom]
        exact main l i (by omega) h

theorem Store.mem_erase (m : Store α) (k : Nat) (e : Nat × α) (h : e ∈ Store.erase m k) : e ∈ m := by
  induction m with
  | nil => simp [Store.erase] at h
  | cons x m ih =>
    obtain ⟨j, w⟩ := x
    by_cases a : j = k
    · simp only [Store.erase, a, if_true] at h; exact List.mem_cons_of_mem _ (ih h)
    · simp only [Store.erase, a, if_false, List.mem_cons] at h
      rcases h with h | h
      · exact h ▸ List.mem_cons_self ..
      · exact List.mem_cons_of_mem _ (ih h)

theorem Store.mem_insert (m : Store α) (k : Nat) (v : α) (e : Nat × α) (h : e ∈ Store.insert m k v) : e = (k, v) ∨ e ∈ m := by
  induction m with
  | nil => simp [Store.insert] at h; exact .inl h
  | cons x m ih =>
    obtain ⟨j, w⟩ := x
    by_cases a : k < j
    · simpa [Store.insert, a] using h
    · by_cases b : k = j
      · simp only [Store.insert, a, b, if_false, if_true, List.mem_cons, Nat.lt_irrefl] at h
        rcases h with h | h
        · exact .inl (b ▸ h)
        · exact .inr (List.mem_cons_of_mem _ h)
      · simp only [Store.insert, a, b, if_false, List.mem_cons] at h
        rcases h with h | h
        · exact .inr (h ▸ List.mem_cons_self ..)
        · rcases ih h with h | h
          · exact .inl h
          · exact .inr (List.mem_cons_of_mem _ h)

/-- A write keeps the canonical form. -/
theorem Store.canon_put [DecidableEq α] (df : Nat → α) (m : Store α) (k : Nat) (v : α) (h : Store.canon df m = true) :
    Store.canon df (Store.put (df k) m k v) = true := by
  simp only [Store.canon, Bool.and_eq_true, List.all_eq_true, decide_eq_true_eq] at h ⊢
  unfold Store.put
  by_cases a : v = df k
  · simp only [a, if_true]
    exact ⟨(Store.rises_erase m none k h.1).1, fun e he => h.2 e (Store.mem_erase m k e he)⟩
  · simp only [a, if_false]
    refine ⟨(Store.rises_insert m k v).1 h.1, fun e he => ?_⟩
    rcases Store.mem_insert m k v e he with he | he
    · subst he; exact a
    · exact h.2 e he

/-- Dropping entries keeps the canonical form. -/
theorem Store.canon_filter [DecidableEq α] (df : Nat → α) (m : Store α) (p : Nat × α → Bool) (h : Store.canon df m = true) :
    Store.canon df (m.filter p) = true := by
  simp only [Store.canon, Bool.and_eq_true, List.all_eq_true, decide_eq_true_eq] at h ⊢
  have weaken : ∀ (l : Store α) (c d : Nat), c ≤ d → Store.risesFrom (some d) l = true → Store.risesFrom (some c) l = true := by
    intro l c d hcd hl
    cases l with
    | nil => rfl
    | cons e l => obtain ⟨i, w⟩ := e; simp [Store.risesFrom] at *; exact ⟨by omega, hl.2⟩
  have main : ∀ (l : Store α) (c : Nat), Store.risesFrom (some c) l = true → Store.risesFrom (some c) (l.filter p) = true := by
    intro l
    induction l with
    | nil => intro c _; rfl
    | cons e l ih =>
      obtain ⟨i, w⟩ := e
      intro c hc
      simp [Store.risesFrom] at hc
      by_cases a : p (i, w) = true
      · simp only [List.filter_cons, a, if_true, Store.risesFrom, Bool.and_eq_true, decide_eq_true_eq]; exact ⟨hc.1, ih i hc.2⟩
      · simp only [List.filter_cons, a]; exact ih c (weaken l c i (by omega) hc.2)
  refine ⟨?_, fun e he => h.2 e (List.mem_filter.1 he).1⟩
  have any : ∀ l : Store α, Store.risesFrom none l = true → Store.risesFrom none (l.filter p) = true := by
    intro l
    induction l with
    | nil => intro _; rfl
    | cons e l ih =>
      obtain ⟨i, w⟩ := e
      intro hl
      simp only [Store.risesFrom] at hl
      by_cases a : p (i, w) = true
      · simp only [List.filter_cons, a, if_true, Store.risesFrom]; exact main l i hl
      · simp only [List.filter_cons, a]
        apply ih
        cases l with
        | nil => rfl
        | cons e2 l2 => obtain ⟨i2, w2⟩ := e2; simp [Store.risesFrom] at *; exact hl.2
  exact any m h.1

end Sys2Proof.Machine
end

