-- ==== Sys2Proof/Laws/State.lean ====
section
/-! SUPPORT. Sys2Proof/Laws/State.lean: for each update of the state, what it leaves, field by field and part by part; and what it writes reads as. -/
namespace Sys2Proof.Machine

/-! ## What an update leaves -/

@[simp] theorem State.setReg_mem (s : State) (r : Reg) (i v : Nat) : (s.setReg r i v).mem = s.mem := (rfl)
@[simp] theorem State.setReg_tiles (s : State) (r : Reg) (i v : Nat) : (s.setReg r i v).tiles = s.tiles := (rfl)
@[simp] theorem State.setReg_tier (s : State) (r : Reg) (i v : Nat) : (s.setReg r i v).tier = s.tier := (rfl)
@[simp] theorem State.setReg_ctl (s : State) (r : Reg) (i v : Nat) : (s.setReg r i v).ctl = s.ctl := (rfl)
@[simp] theorem State.setReg_map (s : State) (r : Reg) (i v : Nat) : (s.setReg r i v).map = s.map := (rfl)
@[simp] theorem State.setReg_pcs (s : State) (r : Reg) (i v : Nat) : (s.setReg r i v).pcs = s.pcs := (rfl)
@[simp] theorem State.setReg_sched (s : State) (r : Reg) (i v : Nat) : (s.setReg r i v).sched = s.sched := (rfl)
@[simp] theorem State.setReg_intake (s : State) (r : Reg) (i v : Nat) : (s.setReg r i v).intake = s.intake := (rfl)
@[simp] theorem State.setReg_basin (s : State) (r : Reg) (i v : Nat) : (s.setReg r i v).basin = s.basin := (rfl)
@[simp] theorem State.setReg_ras (s : State) (r : Reg) (i v : Nat) : (s.setReg r i v).ras = s.ras := (rfl)
@[simp] theorem State.setReg_spouts (s : State) (r : Reg) (i v : Nat) : (s.setReg r i v).spouts = s.spouts := (rfl)
@[simp] theorem State.setReg_jets (s : State) (r : Reg) (i v : Nat) : (s.setReg r i v).jets = s.jets := (rfl)
@[simp] theorem State.setReg_chans (s : State) (r : Reg) (i v : Nat) : (s.setReg r i v).chans = s.chans := (rfl)
@[simp] theorem State.setReg_sluice (s : State) (r : Reg) (i v : Nat) : (s.setReg r i v).sluice = s.sluice := (rfl)
@[simp] theorem State.setReg_txu (s : State) (r : Reg) (i v : Nat) : (s.setReg r i v).txu = s.txu := (rfl)
@[simp] theorem State.setReg_aqd (s : State) (r : Reg) (i v : Nat) : (s.setReg r i v).aqd = s.aqd := (rfl)
@[simp] theorem State.setReg_ring (s : State) (r : Reg) (i v : Nat) : (s.setReg r i v).ring = s.ring := (rfl)
@[simp] theorem State.setReg_weirs (s : State) (r : Reg) (i v : Nat) : (s.setReg r i v).weirs = s.weirs := (rfl)
@[simp] theorem State.setReg_time (s : State) (r : Reg) (i v : Nat) : (s.setReg r i v).time = s.time := (rfl)
@[simp] theorem State.setReg_power (s : State) (r : Reg) (i v : Nat) : (s.setReg r i v).power = s.power := (rfl)
@[simp] theorem State.setReg_cal (s : State) (r : Reg) (i v : Nat) : (s.setReg r i v).cal = s.cal := (rfl)
@[simp] theorem State.setReg_boot (s : State) (r : Reg) (i v : Nat) : (s.setReg r i v).boot = s.boot := (rfl)
@[simp] theorem State.setReg_cas (s : State) (r : Reg) (i v : Nat) : (s.setReg r i v).cas = s.cas := (rfl)
@[simp] theorem State.setReg_font (s : State) (r : Reg) (i v : Nat) : (s.setReg r i v).font = s.font := (rfl)
@[simp] theorem State.setReg_events (s : State) (r : Reg) (i v : Nat) : (s.setReg r i v).events = s.events := (rfl)
@[simp] theorem State.setReg_free (s : State) (r : Reg) (i v : Nat) : (s.setReg r i v).free = s.free := (rfl)
@[simp] theorem State.setReg_pending (s : State) (r : Reg) (i v : Nat) : (s.setReg r i v).pending = s.pending := (rfl)
@[simp] theorem State.setReg_pc (s : State) (r : Reg) (i v : Nat) (j : Nat) : (s.setReg r i v).pc j = s.pc j := (rfl)
@[simp] theorem State.setReg_sp (s : State) (r : Reg) (i v : Nat) (j : Nat) : (s.setReg r i v).sp j = s.sp j := (rfl)
@[simp] theorem State.setReg_jet (s : State) (r : Reg) (i v : Nat) (j : Nat) : (s.setReg r i v).jet j = s.jet j := (rfl)
@[simp] theorem State.setReg_chan (s : State) (r : Reg) (i v : Nat) (j : Nat) : (s.setReg r i v).chan j = s.chan j := (rfl)
@[simp] theorem State.setReg_slot (s : State) (r : Reg) (i v : Nat) (j : Nat) : (s.setReg r i v).slot j = s.slot j := (rfl)
@[simp] theorem State.setReg_pkt (s : State) (r : Reg) (i v : Nat) (j : Nat) : (s.setReg r i v).pkt j = s.pkt j := (rfl)
@[simp] theorem State.setReg_aq (s : State) (r : Reg) (i v : Nat) (j : Nat) : (s.setReg r i v).aq j = s.aq j := (rfl)
@[simp] theorem State.setReg_weir (s : State) (r : Reg) (i v : Nat) (j : Nat) : (s.setReg r i v).weir j = s.weir j := (rfl)
@[simp] theorem State.setReg_memB (s : State) (r : Reg) (i v : Nat) (j : Nat) : (s.setReg r i v).memB j = s.memB j := (rfl)
@[simp] theorem State.setReg_evFull (s : State) (r : Reg) (i v : Nat) : (s.setReg r i v).evFull = s.evFull := (rfl)

@[simp] theorem State.wr_mem (s : State) (f : Field) (i v : Nat) : (s.wr f i v).mem = s.mem := (rfl)
@[simp] theorem State.wr_tiles (s : State) (f : Field) (i v : Nat) : (s.wr f i v).tiles = s.tiles := (rfl)
@[simp] theorem State.wr_tier (s : State) (f : Field) (i v : Nat) : (s.wr f i v).tier = s.tier := (rfl)
@[simp] theorem State.wr_ctl (s : State) (f : Field) (i v : Nat) : (s.wr f i v).ctl = s.ctl := (rfl)
@[simp] theorem State.wr_map (s : State) (f : Field) (i v : Nat) : (s.wr f i v).map = s.map := (rfl)
@[simp] theorem State.wr_pcs (s : State) (f : Field) (i v : Nat) : (s.wr f i v).pcs = s.pcs := (rfl)
@[simp] theorem State.wr_sched (s : State) (f : Field) (i v : Nat) : (s.wr f i v).sched = s.sched := (rfl)
@[simp] theorem State.wr_intake (s : State) (f : Field) (i v : Nat) : (s.wr f i v).intake = s.intake := (rfl)
@[simp] theorem State.wr_basin (s : State) (f : Field) (i v : Nat) : (s.wr f i v).basin = s.basin := (rfl)
@[simp] theorem State.wr_ras (s : State) (f : Field) (i v : Nat) : (s.wr f i v).ras = s.ras := (rfl)
@[simp] theorem State.wr_spouts (s : State) (f : Field) (i v : Nat) : (s.wr f i v).spouts = s.spouts := (rfl)
@[simp] theorem State.wr_jets (s : State) (f : Field) (i v : Nat) : (s.wr f i v).jets = s.jets := (rfl)
@[simp] theorem State.wr_chans (s : State) (f : Field) (i v : Nat) : (s.wr f i v).chans = s.chans := (rfl)
@[simp] theorem State.wr_sluice (s : State) (f : Field) (i v : Nat) : (s.wr f i v).sluice = s.sluice := (rfl)
@[simp] theorem State.wr_txu (s : State) (f : Field) (i v : Nat) : (s.wr f i v).txu = s.txu := (rfl)
@[simp] theorem State.wr_aqd (s : State) (f : Field) (i v : Nat) : (s.wr f i v).aqd = s.aqd := (rfl)
@[simp] theorem State.wr_ring (s : State) (f : Field) (i v : Nat) : (s.wr f i v).ring = s.ring := (rfl)
@[simp] theorem State.wr_weirs (s : State) (f : Field) (i v : Nat) : (s.wr f i v).weirs = s.weirs := (rfl)
@[simp] theorem State.wr_time (s : State) (f : Field) (i v : Nat) : (s.wr f i v).time = s.time := (rfl)
@[simp] theorem State.wr_power (s : State) (f : Field) (i v : Nat) : (s.wr f i v).power = s.power := (rfl)
@[simp] theorem State.wr_cal (s : State) (f : Field) (i v : Nat) : (s.wr f i v).cal = s.cal := (rfl)
@[simp] theorem State.wr_boot (s : State) (f : Field) (i v : Nat) : (s.wr f i v).boot = s.boot := (rfl)
@[simp] theorem State.wr_cas (s : State) (f : Field) (i v : Nat) : (s.wr f i v).cas = s.cas := (rfl)
@[simp] theorem State.wr_font (s : State) (f : Field) (i v : Nat) : (s.wr f i v).font = s.font := (rfl)
@[simp] theorem State.wr_events (s : State) (f : Field) (i v : Nat) : (s.wr f i v).events = s.events := (rfl)
@[simp] theorem State.wr_free (s : State) (f : Field) (i v : Nat) : (s.wr f i v).free = s.free := (rfl)
@[simp] theorem State.wr_pending (s : State) (f : Field) (i v : Nat) : (s.wr f i v).pending = s.pending := (rfl)
@[simp] theorem State.wr_pc (s : State) (f : Field) (i v : Nat) (j : Nat) : (s.wr f i v).pc j = s.pc j := (rfl)
@[simp] theorem State.wr_sp (s : State) (f : Field) (i v : Nat) (j : Nat) : (s.wr f i v).sp j = s.sp j := (rfl)
@[simp] theorem State.wr_jet (s : State) (f : Field) (i v : Nat) (j : Nat) : (s.wr f i v).jet j = s.jet j := (rfl)
@[simp] theorem State.wr_chan (s : State) (f : Field) (i v : Nat) (j : Nat) : (s.wr f i v).chan j = s.chan j := (rfl)
@[simp] theorem State.wr_slot (s : State) (f : Field) (i v : Nat) (j : Nat) : (s.wr f i v).slot j = s.slot j := (rfl)
@[simp] theorem State.wr_pkt (s : State) (f : Field) (i v : Nat) (j : Nat) : (s.wr f i v).pkt j = s.pkt j := (rfl)
@[simp] theorem State.wr_aq (s : State) (f : Field) (i v : Nat) (j : Nat) : (s.wr f i v).aq j = s.aq j := (rfl)
@[simp] theorem State.wr_weir (s : State) (f : Field) (i v : Nat) (j : Nat) : (s.wr f i v).weir j = s.weir j := (rfl)
@[simp] theorem State.wr_memB (s : State) (f : Field) (i v : Nat) (j : Nat) : (s.wr f i v).memB j = s.memB j := (rfl)
@[simp] theorem State.wr_evFull (s : State) (f : Field) (i v : Nat) : (s.wr f i v).evFull = s.evFull := (rfl)

@[simp] theorem State.wrB_mem (s : State) (f : Field) (i : Nat) (b : Bool) : (s.wrB f i b).mem = s.mem := (rfl)
@[simp] theorem State.wrB_tiles (s : State) (f : Field) (i : Nat) (b : Bool) : (s.wrB f i b).tiles = s.tiles := (rfl)
@[simp] theorem State.wrB_tier (s : State) (f : Field) (i : Nat) (b : Bool) : (s.wrB f i b).tier = s.tier := (rfl)
@[simp] theorem State.wrB_ctl (s : State) (f : Field) (i : Nat) (b : Bool) : (s.wrB f i b).ctl = s.ctl := (rfl)
@[simp] theorem State.wrB_map (s : State) (f : Field) (i : Nat) (b : Bool) : (s.wrB f i b).map = s.map := (rfl)
@[simp] theorem State.wrB_pcs (s : State) (f : Field) (i : Nat) (b : Bool) : (s.wrB f i b).pcs = s.pcs := (rfl)
@[simp] theorem State.wrB_sched (s : State) (f : Field) (i : Nat) (b : Bool) : (s.wrB f i b).sched = s.sched := (rfl)
@[simp] theorem State.wrB_intake (s : State) (f : Field) (i : Nat) (b : Bool) : (s.wrB f i b).intake = s.intake := (rfl)
@[simp] theorem State.wrB_basin (s : State) (f : Field) (i : Nat) (b : Bool) : (s.wrB f i b).basin = s.basin := (rfl)
@[simp] theorem State.wrB_ras (s : State) (f : Field) (i : Nat) (b : Bool) : (s.wrB f i b).ras = s.ras := (rfl)
@[simp] theorem State.wrB_spouts (s : State) (f : Field) (i : Nat) (b : Bool) : (s.wrB f i b).spouts = s.spouts := (rfl)
@[simp] theorem State.wrB_jets (s : State) (f : Field) (i : Nat) (b : Bool) : (s.wrB f i b).jets = s.jets := (rfl)
@[simp] theorem State.wrB_chans (s : State) (f : Field) (i : Nat) (b : Bool) : (s.wrB f i b).chans = s.chans := (rfl)
@[simp] theorem State.wrB_sluice (s : State) (f : Field) (i : Nat) (b : Bool) : (s.wrB f i b).sluice = s.sluice := (rfl)
@[simp] theorem State.wrB_txu (s : State) (f : Field) (i : Nat) (b : Bool) : (s.wrB f i b).txu = s.txu := (rfl)
@[simp] theorem State.wrB_aqd (s : State) (f : Field) (i : Nat) (b : Bool) : (s.wrB f i b).aqd = s.aqd := (rfl)
@[simp] theorem State.wrB_ring (s : State) (f : Field) (i : Nat) (b : Bool) : (s.wrB f i b).ring = s.ring := (rfl)
@[simp] theorem State.wrB_weirs (s : State) (f : Field) (i : Nat) (b : Bool) : (s.wrB f i b).weirs = s.weirs := (rfl)
@[simp] theorem State.wrB_time (s : State) (f : Field) (i : Nat) (b : Bool) : (s.wrB f i b).time = s.time := (rfl)
@[simp] theorem State.wrB_power (s : State) (f : Field) (i : Nat) (b : Bool) : (s.wrB f i b).power = s.power := (rfl)
@[simp] theorem State.wrB_cal (s : State) (f : Field) (i : Nat) (b : Bool) : (s.wrB f i b).cal = s.cal := (rfl)
@[simp] theorem State.wrB_boot (s : State) (f : Field) (i : Nat) (b : Bool) : (s.wrB f i b).boot = s.boot := (rfl)
@[simp] theorem State.wrB_cas (s : State) (f : Field) (i : Nat) (b : Bool) : (s.wrB f i b).cas = s.cas := (rfl)
@[simp] theorem State.wrB_font (s : State) (f : Field) (i : Nat) (b : Bool) : (s.wrB f i b).font = s.font := (rfl)
@[simp] theorem State.wrB_events (s : State) (f : Field) (i : Nat) (b : Bool) : (s.wrB f i b).events = s.events := (rfl)
@[simp] theorem State.wrB_free (s : State) (f : Field) (i : Nat) (b : Bool) : (s.wrB f i b).free = s.free := (rfl)
@[simp] theorem State.wrB_pending (s : State) (f : Field) (i : Nat) (b : Bool) : (s.wrB f i b).pending = s.pending := (rfl)
@[simp] theorem State.wrB_pc (s : State) (f : Field) (i : Nat) (b : Bool) (j : Nat) : (s.wrB f i b).pc j = s.pc j := (rfl)
@[simp] theorem State.wrB_sp (s : State) (f : Field) (i : Nat) (b : Bool) (j : Nat) : (s.wrB f i b).sp j = s.sp j := (rfl)
@[simp] theorem State.wrB_jet (s : State) (f : Field) (i : Nat) (b : Bool) (j : Nat) : (s.wrB f i b).jet j = s.jet j := (rfl)
@[simp] theorem State.wrB_chan (s : State) (f : Field) (i : Nat) (b : Bool) (j : Nat) : (s.wrB f i b).chan j = s.chan j := (rfl)
@[simp] theorem State.wrB_slot (s : State) (f : Field) (i : Nat) (b : Bool) (j : Nat) : (s.wrB f i b).slot j = s.slot j := (rfl)
@[simp] theorem State.wrB_pkt (s : State) (f : Field) (i : Nat) (b : Bool) (j : Nat) : (s.wrB f i b).pkt j = s.pkt j := (rfl)
@[simp] theorem State.wrB_aq (s : State) (f : Field) (i : Nat) (b : Bool) (j : Nat) : (s.wrB f i b).aq j = s.aq j := (rfl)
@[simp] theorem State.wrB_weir (s : State) (f : Field) (i : Nat) (b : Bool) (j : Nat) : (s.wrB f i b).weir j = s.weir j := (rfl)
@[simp] theorem State.wrB_memB (s : State) (f : Field) (i : Nat) (b : Bool) (j : Nat) : (s.wrB f i b).memB j = s.memB j := (rfl)
@[simp] theorem State.wrB_evFull (s : State) (f : Field) (i : Nat) (b : Bool) : (s.wrB f i b).evFull = s.evFull := (rfl)

@[simp] theorem State.bump_mem (s : State) (f : Field) (i n : Nat) : (s.bump f i n).mem = s.mem := (rfl)
@[simp] theorem State.bump_tiles (s : State) (f : Field) (i n : Nat) : (s.bump f i n).tiles = s.tiles := (rfl)
@[simp] theorem State.bump_tier (s : State) (f : Field) (i n : Nat) : (s.bump f i n).tier = s.tier := (rfl)
@[simp] theorem State.bump_ctl (s : State) (f : Field) (i n : Nat) : (s.bump f i n).ctl = s.ctl := (rfl)
@[simp] theorem State.bump_map (s : State) (f : Field) (i n : Nat) : (s.bump f i n).map = s.map := (rfl)
@[simp] theorem State.bump_pcs (s : State) (f : Field) (i n : Nat) : (s.bump f i n).pcs = s.pcs := (rfl)
@[simp] theorem State.bump_sched (s : State) (f : Field) (i n : Nat) : (s.bump f i n).sched = s.sched := (rfl)
@[simp] theorem State.bump_intake (s : State) (f : Field) (i n : Nat) : (s.bump f i n).intake = s.intake := (rfl)
@[simp] theorem State.bump_basin (s : State) (f : Field) (i n : Nat) : (s.bump f i n).basin = s.basin := (rfl)
@[simp] theorem State.bump_ras (s : State) (f : Field) (i n : Nat) : (s.bump f i n).ras = s.ras := (rfl)
@[simp] theorem State.bump_spouts (s : State) (f : Field) (i n : Nat) : (s.bump f i n).spouts = s.spouts := (rfl)
@[simp] theorem State.bump_jets (s : State) (f : Field) (i n : Nat) : (s.bump f i n).jets = s.jets := (rfl)
@[simp] theorem State.bump_chans (s : State) (f : Field) (i n : Nat) : (s.bump f i n).chans = s.chans := (rfl)
@[simp] theorem State.bump_sluice (s : State) (f : Field) (i n : Nat) : (s.bump f i n).sluice = s.sluice := (rfl)
@[simp] theorem State.bump_txu (s : State) (f : Field) (i n : Nat) : (s.bump f i n).txu = s.txu := (rfl)
@[simp] theorem State.bump_aqd (s : State) (f : Field) (i n : Nat) : (s.bump f i n).aqd = s.aqd := (rfl)
@[simp] theorem State.bump_ring (s : State) (f : Field) (i n : Nat) : (s.bump f i n).ring = s.ring := (rfl)
@[simp] theorem State.bump_weirs (s : State) (f : Field) (i n : Nat) : (s.bump f i n).weirs = s.weirs := (rfl)
@[simp] theorem State.bump_time (s : State) (f : Field) (i n : Nat) : (s.bump f i n).time = s.time := (rfl)
@[simp] theorem State.bump_power (s : State) (f : Field) (i n : Nat) : (s.bump f i n).power = s.power := (rfl)
@[simp] theorem State.bump_cal (s : State) (f : Field) (i n : Nat) : (s.bump f i n).cal = s.cal := (rfl)
@[simp] theorem State.bump_boot (s : State) (f : Field) (i n : Nat) : (s.bump f i n).boot = s.boot := (rfl)
@[simp] theorem State.bump_cas (s : State) (f : Field) (i n : Nat) : (s.bump f i n).cas = s.cas := (rfl)
@[simp] theorem State.bump_font (s : State) (f : Field) (i n : Nat) : (s.bump f i n).font = s.font := (rfl)
@[simp] theorem State.bump_events (s : State) (f : Field) (i n : Nat) : (s.bump f i n).events = s.events := (rfl)
@[simp] theorem State.bump_free (s : State) (f : Field) (i n : Nat) : (s.bump f i n).free = s.free := (rfl)
@[simp] theorem State.bump_pending (s : State) (f : Field) (i n : Nat) : (s.bump f i n).pending = s.pending := (rfl)
@[simp] theorem State.bump_pc (s : State) (f : Field) (i n : Nat) (j : Nat) : (s.bump f i n).pc j = s.pc j := (rfl)
@[simp] theorem State.bump_sp (s : State) (f : Field) (i n : Nat) (j : Nat) : (s.bump f i n).sp j = s.sp j := (rfl)
@[simp] theorem State.bump_jet (s : State) (f : Field) (i n : Nat) (j : Nat) : (s.bump f i n).jet j = s.jet j := (rfl)
@[simp] theorem State.bump_chan (s : State) (f : Field) (i n : Nat) (j : Nat) : (s.bump f i n).chan j = s.chan j := (rfl)
@[simp] theorem State.bump_slot (s : State) (f : Field) (i n : Nat) (j : Nat) : (s.bump f i n).slot j = s.slot j := (rfl)
@[simp] theorem State.bump_pkt (s : State) (f : Field) (i n : Nat) (j : Nat) : (s.bump f i n).pkt j = s.pkt j := (rfl)
@[simp] theorem State.bump_aq (s : State) (f : Field) (i n : Nat) (j : Nat) : (s.bump f i n).aq j = s.aq j := (rfl)
@[simp] theorem State.bump_weir (s : State) (f : Field) (i n : Nat) (j : Nat) : (s.bump f i n).weir j = s.weir j := (rfl)
@[simp] theorem State.bump_memB (s : State) (f : Field) (i n : Nat) (j : Nat) : (s.bump f i n).memB j = s.memB j := (rfl)
@[simp] theorem State.bump_evFull (s : State) (f : Field) (i n : Nat) : (s.bump f i n).evFull = s.evFull := (rfl)

@[simp] theorem State.resetDomains_mem (s : State) (l : List Domain) : (s.resetDomains l).mem = s.mem := (rfl)
@[simp] theorem State.resetDomains_tiles (s : State) (l : List Domain) : (s.resetDomains l).tiles = s.tiles := (rfl)
@[simp] theorem State.resetDomains_tier (s : State) (l : List Domain) : (s.resetDomains l).tier = s.tier := (rfl)
@[simp] theorem State.resetDomains_ctl (s : State) (l : List Domain) : (s.resetDomains l).ctl = s.ctl := (rfl)
@[simp] theorem State.resetDomains_map (s : State) (l : List Domain) : (s.resetDomains l).map = s.map := (rfl)
@[simp] theorem State.resetDomains_pcs (s : State) (l : List Domain) : (s.resetDomains l).pcs = s.pcs := (rfl)
@[simp] theorem State.resetDomains_sched (s : State) (l : List Domain) : (s.resetDomains l).sched = s.sched := (rfl)
@[simp] theorem State.resetDomains_intake (s : State) (l : List Domain) : (s.resetDomains l).intake = s.intake := (rfl)
@[simp] theorem State.resetDomains_basin (s : State) (l : List Domain) : (s.resetDomains l).basin = s.basin := (rfl)
@[simp] theorem State.resetDomains_ras (s : State) (l : List Domain) : (s.resetDomains l).ras = s.ras := (rfl)
@[simp] theorem State.resetDomains_spouts (s : State) (l : List Domain) : (s.resetDomains l).spouts = s.spouts := (rfl)
@[simp] theorem State.resetDomains_jets (s : State) (l : List Domain) : (s.resetDomains l).jets = s.jets := (rfl)
@[simp] theorem State.resetDomains_chans (s : State) (l : List Domain) : (s.resetDomains l).chans = s.chans := (rfl)
@[simp] theorem State.resetDomains_sluice (s : State) (l : List Domain) : (s.resetDomains l).sluice = s.sluice := (rfl)
@[simp] theorem State.resetDomains_txu (s : State) (l : List Domain) : (s.resetDomains l).txu = s.txu := (rfl)
@[simp] theorem State.resetDomains_aqd (s : State) (l : List Domain) : (s.resetDomains l).aqd = s.aqd := (rfl)
@[simp] theorem State.resetDomains_ring (s : State) (l : List Domain) : (s.resetDomains l).ring = s.ring := (rfl)
@[simp] theorem State.resetDomains_weirs (s : State) (l : List Domain) : (s.resetDomains l).weirs = s.weirs := (rfl)
@[simp] theorem State.resetDomains_time (s : State) (l : List Domain) : (s.resetDomains l).time = s.time := (rfl)
@[simp] theorem State.resetDomains_power (s : State) (l : List Domain) : (s.resetDomains l).power = s.power := (rfl)
@[simp] theorem State.resetDomains_cal (s : State) (l : List Domain) : (s.resetDomains l).cal = s.cal := (rfl)
@[simp] theorem State.resetDomains_boot (s : State) (l : List Domain) : (s.resetDomains l).boot = s.boot := (rfl)
@[simp] theorem State.resetDomains_cas (s : State) (l : List Domain) : (s.resetDomains l).cas = s.cas := (rfl)
@[simp] theorem State.resetDomains_font (s : State) (l : List Domain) : (s.resetDomains l).font = s.font := (rfl)
@[simp] theorem State.resetDomains_events (s : State) (l : List Domain) : (s.resetDomains l).events = s.events := (rfl)
@[simp] theorem State.resetDomains_free (s : State) (l : List Domain) : (s.resetDomains l).free = s.free := (rfl)
@[simp] theorem State.resetDomains_pending (s : State) (l : List Domain) : (s.resetDomains l).pending = s.pending := (rfl)
@[simp] theorem State.resetDomains_pc (s : State) (l : List Domain) (j : Nat) : (s.resetDomains l).pc j = s.pc j := (rfl)
@[simp] theorem State.resetDomains_sp (s : State) (l : List Domain) (j : Nat) : (s.resetDomains l).sp j = s.sp j := (rfl)
@[simp] theorem State.resetDomains_jet (s : State) (l : List Domain) (j : Nat) : (s.resetDomains l).jet j = s.jet j := (rfl)
@[simp] theorem State.resetDomains_chan (s : State) (l : List Domain) (j : Nat) : (s.resetDomains l).chan j = s.chan j := (rfl)
@[simp] theorem State.resetDomains_slot (s : State) (l : List Domain) (j : Nat) : (s.resetDomains l).slot j = s.slot j := (rfl)
@[simp] theorem State.resetDomains_pkt (s : State) (l : List Domain) (j : Nat) : (s.resetDomains l).pkt j = s.pkt j := (rfl)
@[simp] theorem State.resetDomains_aq (s : State) (l : List Domain) (j : Nat) : (s.resetDomains l).aq j = s.aq j := (rfl)
@[simp] theorem State.resetDomains_weir (s : State) (l : List Domain) (j : Nat) : (s.resetDomains l).weir j = s.weir j := (rfl)
@[simp] theorem State.resetDomains_memB (s : State) (l : List Domain) (j : Nat) : (s.resetDomains l).memB j = s.memB j := (rfl)
@[simp] theorem State.resetDomains_evFull (s : State) (l : List Domain) : (s.resetDomains l).evFull = s.evFull := (rfl)

@[simp] theorem State.setSpSt_mem (s : State) (n v : Nat) : (s.setSpSt n v).mem = s.mem := (rfl)
@[simp] theorem State.setSpSt_tiles (s : State) (n v : Nat) : (s.setSpSt n v).tiles = s.tiles := (rfl)
@[simp] theorem State.setSpSt_tier (s : State) (n v : Nat) : (s.setSpSt n v).tier = s.tier := (rfl)
@[simp] theorem State.setSpSt_ctl (s : State) (n v : Nat) : (s.setSpSt n v).ctl = s.ctl := (rfl)
@[simp] theorem State.setSpSt_map (s : State) (n v : Nat) : (s.setSpSt n v).map = s.map := (rfl)
@[simp] theorem State.setSpSt_pcs (s : State) (n v : Nat) : (s.setSpSt n v).pcs = s.pcs := (rfl)
@[simp] theorem State.setSpSt_sched (s : State) (n v : Nat) : (s.setSpSt n v).sched = s.sched := (rfl)
@[simp] theorem State.setSpSt_intake (s : State) (n v : Nat) : (s.setSpSt n v).intake = s.intake := (rfl)
@[simp] theorem State.setSpSt_basin (s : State) (n v : Nat) : (s.setSpSt n v).basin = s.basin := (rfl)
@[simp] theorem State.setSpSt_ras (s : State) (n v : Nat) : (s.setSpSt n v).ras = s.ras := (rfl)
@[simp] theorem State.setSpSt_spouts (s : State) (n v : Nat) : (s.setSpSt n v).spouts = s.spouts := (rfl)
@[simp] theorem State.setSpSt_jets (s : State) (n v : Nat) : (s.setSpSt n v).jets = s.jets := (rfl)
@[simp] theorem State.setSpSt_chans (s : State) (n v : Nat) : (s.setSpSt n v).chans = s.chans := (rfl)
@[simp] theorem State.setSpSt_sluice (s : State) (n v : Nat) : (s.setSpSt n v).sluice = s.sluice := (rfl)
@[simp] theorem State.setSpSt_txu (s : State) (n v : Nat) : (s.setSpSt n v).txu = s.txu := (rfl)
@[simp] theorem State.setSpSt_aqd (s : State) (n v : Nat) : (s.setSpSt n v).aqd = s.aqd := (rfl)
@[simp] theorem State.setSpSt_ring (s : State) (n v : Nat) : (s.setSpSt n v).ring = s.ring := (rfl)
@[simp] theorem State.setSpSt_weirs (s : State) (n v : Nat) : (s.setSpSt n v).weirs = s.weirs := (rfl)
@[simp] theorem State.setSpSt_time (s : State) (n v : Nat) : (s.setSpSt n v).time = s.time := (rfl)
@[simp] theorem State.setSpSt_power (s : State) (n v : Nat) : (s.setSpSt n v).power = s.power := (rfl)
@[simp] theorem State.setSpSt_cal (s : State) (n v : Nat) : (s.setSpSt n v).cal = s.cal := (rfl)
@[simp] theorem State.setSpSt_boot (s : State) (n v : Nat) : (s.setSpSt n v).boot = s.boot := (rfl)
@[simp] theorem State.setSpSt_cas (s : State) (n v : Nat) : (s.setSpSt n v).cas = s.cas := (rfl)
@[simp] theorem State.setSpSt_font (s : State) (n v : Nat) : (s.setSpSt n v).font = s.font := (rfl)
@[simp] theorem State.setSpSt_events (s : State) (n v : Nat) : (s.setSpSt n v).events = s.events := (rfl)
@[simp] theorem State.setSpSt_free (s : State) (n v : Nat) : (s.setSpSt n v).free = s.free := (rfl)
@[simp] theorem State.setSpSt_pending (s : State) (n v : Nat) : (s.setSpSt n v).pending = s.pending := (rfl)
@[simp] theorem State.setSpSt_pc (s : State) (n v : Nat) (j : Nat) : (s.setSpSt n v).pc j = s.pc j := (rfl)
@[simp] theorem State.setSpSt_sp (s : State) (n v : Nat) (j : Nat) : (s.setSpSt n v).sp j = s.sp j := (rfl)
@[simp] theorem State.setSpSt_jet (s : State) (n v : Nat) (j : Nat) : (s.setSpSt n v).jet j = s.jet j := (rfl)
@[simp] theorem State.setSpSt_chan (s : State) (n v : Nat) (j : Nat) : (s.setSpSt n v).chan j = s.chan j := (rfl)
@[simp] theorem State.setSpSt_slot (s : State) (n v : Nat) (j : Nat) : (s.setSpSt n v).slot j = s.slot j := (rfl)
@[simp] theorem State.setSpSt_pkt (s : State) (n v : Nat) (j : Nat) : (s.setSpSt n v).pkt j = s.pkt j := (rfl)
@[simp] theorem State.setSpSt_aq (s : State) (n v : Nat) (j : Nat) : (s.setSpSt n v).aq j = s.aq j := (rfl)
@[simp] theorem State.setSpSt_weir (s : State) (n v : Nat) (j : Nat) : (s.setSpSt n v).weir j = s.weir j := (rfl)
@[simp] theorem State.setSpSt_memB (s : State) (n v : Nat) (j : Nat) : (s.setSpSt n v).memB j = s.memB j := (rfl)
@[simp] theorem State.setSpSt_evFull (s : State) (n v : Nat) : (s.setSpSt n v).evFull = s.evFull := (rfl)

@[simp] theorem State.setPc_regs (s : State) (n : Nat) (p : PcState) : (s.setPc n p).regs = s.regs := (rfl)
@[simp] theorem State.setPc_mem (s : State) (n : Nat) (p : PcState) : (s.setPc n p).mem = s.mem := (rfl)
@[simp] theorem State.setPc_tiles (s : State) (n : Nat) (p : PcState) : (s.setPc n p).tiles = s.tiles := (rfl)
@[simp] theorem State.setPc_tier (s : State) (n : Nat) (p : PcState) : (s.setPc n p).tier = s.tier := (rfl)
@[simp] theorem State.setPc_ctl (s : State) (n : Nat) (p : PcState) : (s.setPc n p).ctl = s.ctl := (rfl)
@[simp] theorem State.setPc_map (s : State) (n : Nat) (p : PcState) : (s.setPc n p).map = s.map := (rfl)
@[simp] theorem State.setPc_sched (s : State) (n : Nat) (p : PcState) : (s.setPc n p).sched = s.sched := (rfl)
@[simp] theorem State.setPc_intake (s : State) (n : Nat) (p : PcState) : (s.setPc n p).intake = s.intake := (rfl)
@[simp] theorem State.setPc_basin (s : State) (n : Nat) (p : PcState) : (s.setPc n p).basin = s.basin := (rfl)
@[simp] theorem State.setPc_ras (s : State) (n : Nat) (p : PcState) : (s.setPc n p).ras = s.ras := (rfl)
@[simp] theorem State.setPc_spouts (s : State) (n : Nat) (p : PcState) : (s.setPc n p).spouts = s.spouts := (rfl)
@[simp] theorem State.setPc_jets (s : State) (n : Nat) (p : PcState) : (s.setPc n p).jets = s.jets := (rfl)
@[simp] theorem State.setPc_chans (s : State) (n : Nat) (p : PcState) : (s.setPc n p).chans = s.chans := (rfl)
@[simp] theorem State.setPc_sluice (s : State) (n : Nat) (p : PcState) : (s.setPc n p).sluice = s.sluice := (rfl)
@[simp] theorem State.setPc_txu (s : State) (n : Nat) (p : PcState) : (s.setPc n p).txu = s.txu := (rfl)
@[simp] theorem State.setPc_aqd (s : State) (n : Nat) (p : PcState) : (s.setPc n p).aqd = s.aqd := (rfl)
@[simp] theorem State.setPc_ring (s : State) (n : Nat) (p : PcState) : (s.setPc n p).ring = s.ring := (rfl)
@[simp] theorem State.setPc_weirs (s : State) (n : Nat) (p : PcState) : (s.setPc n p).weirs = s.weirs := (rfl)
@[simp] theorem State.setPc_time (s : State) (n : Nat) (p : PcState) : (s.setPc n p).time = s.time := (rfl)
@[simp] theorem State.setPc_power (s : State) (n : Nat) (p : PcState) : (s.setPc n p).power = s.power := (rfl)
@[simp] theorem State.setPc_cal (s : State) (n : Nat) (p : PcState) : (s.setPc n p).cal = s.cal := (rfl)
@[simp] theorem State.setPc_boot (s : State) (n : Nat) (p : PcState) : (s.setPc n p).boot = s.boot := (rfl)
@[simp] theorem State.setPc_cas (s : State) (n : Nat) (p : PcState) : (s.setPc n p).cas = s.cas := (rfl)
@[simp] theorem State.setPc_font (s : State) (n : Nat) (p : PcState) : (s.setPc n p).font = s.font := (rfl)
@[simp] theorem State.setPc_events (s : State) (n : Nat) (p : PcState) : (s.setPc n p).events = s.events := (rfl)
@[simp] theorem State.setPc_free (s : State) (n : Nat) (p : PcState) : (s.setPc n p).free = s.free := (rfl)
@[simp] theorem State.setPc_pending (s : State) (n : Nat) (p : PcState) : (s.setPc n p).pending = s.pending := (rfl)
@[simp] theorem State.setPc_reg (s : State) (n : Nat) (p : PcState) (q : Reg) (j : Nat) : (s.setPc n p).reg q j = s.reg q j := (rfl)
@[simp] theorem State.setPc_rd (s : State) (n : Nat) (p : PcState) (q : Field) (j : Nat) : (s.setPc n p).rd q j = s.rd q j := (rfl)
@[simp] theorem State.setPc_flag (s : State) (n : Nat) (p : PcState) (q : Field) (j : Nat) : (s.setPc n p).flag q j = s.flag q j := (rfl)
@[simp] theorem State.setPc_domSt (s : State) (n : Nat) (p : PcState) (j : Nat) : (s.setPc n p).domSt j = s.domSt j := (rfl)
@[simp] theorem State.setPc_domOn (s : State) (n : Nat) (p : PcState) (j : Nat) : (s.setPc n p).domOn j = s.domOn j := (rfl)
@[simp] theorem State.setPc_pcSt (s : State) (n : Nat) (p : PcState) (j : Nat) : (s.setPc n p).pcSt j = s.pcSt j := (rfl)
@[simp] theorem State.setPc_spSt (s : State) (n : Nat) (p : PcState) (j : Nat) : (s.setPc n p).spSt j = s.spSt j := (rfl)
@[simp] theorem State.setPc_phase (s : State) (n : Nat) (p : PcState) : (s.setPc n p).phase = s.phase := (rfl)
@[simp] theorem State.setPc_wall (s : State) (n : Nat) (p : PcState) : (s.setPc n p).wall = s.wall := (rfl)
@[simp] theorem State.setPc_sp (s : State) (n : Nat) (p : PcState) (j : Nat) : (s.setPc n p).sp j = s.sp j := (rfl)
@[simp] theorem State.setPc_jet (s : State) (n : Nat) (p : PcState) (j : Nat) : (s.setPc n p).jet j = s.jet j := (rfl)
@[simp] theorem State.setPc_chan (s : State) (n : Nat) (p : PcState) (j : Nat) : (s.setPc n p).chan j = s.chan j := (rfl)
@[simp] theorem State.setPc_slot (s : State) (n : Nat) (p : PcState) (j : Nat) : (s.setPc n p).slot j = s.slot j := (rfl)
@[simp] theorem State.setPc_pkt (s : State) (n : Nat) (p : PcState) (j : Nat) : (s.setPc n p).pkt j = s.pkt j := (rfl)
@[simp] theorem State.setPc_aq (s : State) (n : Nat) (p : PcState) (j : Nat) : (s.setPc n p).aq j = s.aq j := (rfl)
@[simp] theorem State.setPc_weir (s : State) (n : Nat) (p : PcState) (j : Nat) : (s.setPc n p).weir j = s.weir j := (rfl)
@[simp] theorem State.setPc_memB (s : State) (n : Nat) (p : PcState) (j : Nat) : (s.setPc n p).memB j = s.memB j := (rfl)
@[simp] theorem State.setPc_evFull (s : State) (n : Nat) (p : PcState) : (s.setPc n p).evFull = s.evFull := (rfl)

@[simp] theorem State.updPc_regs (s : State) (n : Nat) (f : PcState → PcState) : (s.updPc n f).regs = s.regs := (rfl)
@[simp] theorem State.updPc_mem (s : State) (n : Nat) (f : PcState → PcState) : (s.updPc n f).mem = s.mem := (rfl)
@[simp] theorem State.updPc_tiles (s : State) (n : Nat) (f : PcState → PcState) : (s.updPc n f).tiles = s.tiles := (rfl)
@[simp] theorem State.updPc_tier (s : State) (n : Nat) (f : PcState → PcState) : (s.updPc n f).tier = s.tier := (rfl)
@[simp] theorem State.updPc_ctl (s : State) (n : Nat) (f : PcState → PcState) : (s.updPc n f).ctl = s.ctl := (rfl)
@[simp] theorem State.updPc_map (s : State) (n : Nat) (f : PcState → PcState) : (s.updPc n f).map = s.map := (rfl)
@[simp] theorem State.updPc_sched (s : State) (n : Nat) (f : PcState → PcState) : (s.updPc n f).sched = s.sched := (rfl)
@[simp] theorem State.updPc_intake (s : State) (n : Nat) (f : PcState → PcState) : (s.updPc n f).intake = s.intake := (rfl)
@[simp] theorem State.updPc_basin (s : State) (n : Nat) (f : PcState → PcState) : (s.updPc n f).basin = s.basin := (rfl)
@[simp] theorem State.updPc_ras (s : State) (n : Nat) (f : PcState → PcState) : (s.updPc n f).ras = s.ras := (rfl)
@[simp] theorem State.updPc_spouts (s : State) (n : Nat) (f : PcState → PcState) : (s.updPc n f).spouts = s.spouts := (rfl)
@[simp] theorem State.updPc_jets (s : State) (n : Nat) (f : PcState → PcState) : (s.updPc n f).jets = s.jets := (rfl)
@[simp] theorem State.updPc_chans (s : State) (n : Nat) (f : PcState → PcState) : (s.updPc n f).chans = s.chans := (rfl)
@[simp] theorem State.updPc_sluice (s : State) (n : Nat) (f : PcState → PcState) : (s.updPc n f).sluice = s.sluice := (rfl)
@[simp] theorem State.updPc_txu (s : State) (n : Nat) (f : PcState → PcState) : (s.updPc n f).txu = s.txu := (rfl)
@[simp] theorem State.updPc_aqd (s : State) (n : Nat) (f : PcState → PcState) : (s.updPc n f).aqd = s.aqd := (rfl)
@[simp] theorem State.updPc_ring (s : State) (n : Nat) (f : PcState → PcState) : (s.updPc n f).ring = s.ring := (rfl)
@[simp] theorem State.updPc_weirs (s : State) (n : Nat) (f : PcState → PcState) : (s.updPc n f).weirs = s.weirs := (rfl)
@[simp] theorem State.updPc_time (s : State) (n : Nat) (f : PcState → PcState) : (s.updPc n f).time = s.time := (rfl)
@[simp] theorem State.updPc_power (s : State) (n : Nat) (f : PcState → PcState) : (s.updPc n f).power = s.power := (rfl)
@[simp] theorem State.updPc_cal (s : State) (n : Nat) (f : PcState → PcState) : (s.updPc n f).cal = s.cal := (rfl)
@[simp] theorem State.updPc_boot (s : State) (n : Nat) (f : PcState → PcState) : (s.updPc n f).boot = s.boot := (rfl)
@[simp] theorem State.updPc_cas (s : State) (n : Nat) (f : PcState → PcState) : (s.updPc n f).cas = s.cas := (rfl)
@[simp] theorem State.updPc_font (s : State) (n : Nat) (f : PcState → PcState) : (s.updPc n f).font = s.font := (rfl)
@[simp] theorem State.updPc_events (s : State) (n : Nat) (f : PcState → PcState) : (s.updPc n f).events = s.events := (rfl)
@[simp] theorem State.updPc_free (s : State) (n : Nat) (f : PcState → PcState) : (s.updPc n f).free = s.free := (rfl)
@[simp] theorem State.updPc_pending (s : State) (n : Nat) (f : PcState → PcState) : (s.updPc n f).pending = s.pending := (rfl)
@[simp] theorem State.updPc_reg (s : State) (n : Nat) (f : PcState → PcState) (q : Reg) (j : Nat) : (s.updPc n f).reg q j = s.reg q j := (rfl)
@[simp] theorem State.updPc_rd (s : State) (n : Nat) (f : PcState → PcState) (q : Field) (j : Nat) : (s.updPc n f).rd q j = s.rd q j := (rfl)
@[simp] theorem State.updPc_flag (s : State) (n : Nat) (f : PcState → PcState) (q : Field) (j : Nat) : (s.updPc n f).flag q j = s.flag q j := (rfl)
@[simp] theorem State.updPc_domSt (s : State) (n : Nat) (f : PcState → PcState) (j : Nat) : (s.updPc n f).domSt j = s.domSt j := (rfl)
@[simp] theorem State.updPc_domOn (s : State) (n : Nat) (f : PcState → PcState) (j : Nat) : (s.updPc n f).domOn j = s.domOn j := (rfl)
@[simp] theorem State.updPc_pcSt (s : State) (n : Nat) (f : PcState → PcState) (j : Nat) : (s.updPc n f).pcSt j = s.pcSt j := (rfl)
@[simp] theorem State.updPc_spSt (s : State) (n : Nat) (f : PcState → PcState) (j : Nat) : (s.updPc n f).spSt j = s.spSt j := (rfl)
@[simp] theorem State.updPc_phase (s : State) (n : Nat) (f : PcState → PcState) : (s.updPc n f).phase = s.phase := (rfl)
@[simp] theorem State.updPc_wall (s : State) (n : Nat) (f : PcState → PcState) : (s.updPc n f).wall = s.wall := (rfl)
@[simp] theorem State.updPc_sp (s : State) (n : Nat) (f : PcState → PcState) (j : Nat) : (s.updPc n f).sp j = s.sp j := (rfl)
@[simp] theorem State.updPc_jet (s : State) (n : Nat) (f : PcState → PcState) (j : Nat) : (s.updPc n f).jet j = s.jet j := (rfl)
@[simp] theorem State.updPc_chan (s : State) (n : Nat) (f : PcState → PcState) (j : Nat) : (s.updPc n f).chan j = s.chan j := (rfl)
@[simp] theorem State.updPc_slot (s : State) (n : Nat) (f : PcState → PcState) (j : Nat) : (s.updPc n f).slot j = s.slot j := (rfl)
@[simp] theorem State.updPc_pkt (s : State) (n : Nat) (f : PcState → PcState) (j : Nat) : (s.updPc n f).pkt j = s.pkt j := (rfl)
@[simp] theorem State.updPc_aq (s : State) (n : Nat) (f : PcState → PcState) (j : Nat) : (s.updPc n f).aq j = s.aq j := (rfl)
@[simp] theorem State.updPc_weir (s : State) (n : Nat) (f : PcState → PcState) (j : Nat) : (s.updPc n f).weir j = s.weir j := (rfl)
@[simp] theorem State.updPc_memB (s : State) (n : Nat) (f : PcState → PcState) (j : Nat) : (s.updPc n f).memB j = s.memB j := (rfl)
@[simp] theorem State.updPc_evFull (s : State) (n : Nat) (f : PcState → PcState) : (s.updPc n f).evFull = s.evFull := (rfl)

@[simp] theorem State.setSp_regs (s : State) (n : Nat) (x : Spout) : (s.setSp n x).regs = s.regs := (rfl)
@[simp] theorem State.setSp_mem (s : State) (n : Nat) (x : Spout) : (s.setSp n x).mem = s.mem := (rfl)
@[simp] theorem State.setSp_tiles (s : State) (n : Nat) (x : Spout) : (s.setSp n x).tiles = s.tiles := (rfl)
@[simp] theorem State.setSp_tier (s : State) (n : Nat) (x : Spout) : (s.setSp n x).tier = s.tier := (rfl)
@[simp] theorem State.setSp_ctl (s : State) (n : Nat) (x : Spout) : (s.setSp n x).ctl = s.ctl := (rfl)
@[simp] theorem State.setSp_map (s : State) (n : Nat) (x : Spout) : (s.setSp n x).map = s.map := (rfl)
@[simp] theorem State.setSp_pcs (s : State) (n : Nat) (x : Spout) : (s.setSp n x).pcs = s.pcs := (rfl)
@[simp] theorem State.setSp_sched (s : State) (n : Nat) (x : Spout) : (s.setSp n x).sched = s.sched := (rfl)
@[simp] theorem State.setSp_intake (s : State) (n : Nat) (x : Spout) : (s.setSp n x).intake = s.intake := (rfl)
@[simp] theorem State.setSp_basin (s : State) (n : Nat) (x : Spout) : (s.setSp n x).basin = s.basin := (rfl)
@[simp] theorem State.setSp_ras (s : State) (n : Nat) (x : Spout) : (s.setSp n x).ras = s.ras := (rfl)
@[simp] theorem State.setSp_jets (s : State) (n : Nat) (x : Spout) : (s.setSp n x).jets = s.jets := (rfl)
@[simp] theorem State.setSp_chans (s : State) (n : Nat) (x : Spout) : (s.setSp n x).chans = s.chans := (rfl)
@[simp] theorem State.setSp_sluice (s : State) (n : Nat) (x : Spout) : (s.setSp n x).sluice = s.sluice := (rfl)
@[simp] theorem State.setSp_txu (s : State) (n : Nat) (x : Spout) : (s.setSp n x).txu = s.txu := (rfl)
@[simp] theorem State.setSp_aqd (s : State) (n : Nat) (x : Spout) : (s.setSp n x).aqd = s.aqd := (rfl)
@[simp] theorem State.setSp_ring (s : State) (n : Nat) (x : Spout) : (s.setSp n x).ring = s.ring := (rfl)
@[simp] theorem State.setSp_weirs (s : State) (n : Nat) (x : Spout) : (s.setSp n x).weirs = s.weirs := (rfl)
@[simp] theorem State.setSp_time (s : State) (n : Nat) (x : Spout) : (s.setSp n x).time = s.time := (rfl)
@[simp] theorem State.setSp_power (s : State) (n : Nat) (x : Spout) : (s.setSp n x).power = s.power := (rfl)
@[simp] theorem State.setSp_cal (s : State) (n : Nat) (x : Spout) : (s.setSp n x).cal = s.cal := (rfl)
@[simp] theorem State.setSp_boot (s : State) (n : Nat) (x : Spout) : (s.setSp n x).boot = s.boot := (rfl)
@[simp] theorem State.setSp_cas (s : State) (n : Nat) (x : Spout) : (s.setSp n x).cas = s.cas := (rfl)
@[simp] theorem State.setSp_font (s : State) (n : Nat) (x : Spout) : (s.setSp n x).font = s.font := (rfl)
@[simp] theorem State.setSp_events (s : State) (n : Nat) (x : Spout) : (s.setSp n x).events = s.events := (rfl)
@[simp] theorem State.setSp_free (s : State) (n : Nat) (x : Spout) : (s.setSp n x).free = s.free := (rfl)
@[simp] theorem State.setSp_pending (s : State) (n : Nat) (x : Spout) : (s.setSp n x).pending = s.pending := (rfl)
@[simp] theorem State.setSp_reg (s : State) (n : Nat) (x : Spout) (q : Reg) (j : Nat) : (s.setSp n x).reg q j = s.reg q j := (rfl)
@[simp] theorem State.setSp_rd (s : State) (n : Nat) (x : Spout) (q : Field) (j : Nat) : (s.setSp n x).rd q j = s.rd q j := (rfl)
@[simp] theorem State.setSp_flag (s : State) (n : Nat) (x : Spout) (q : Field) (j : Nat) : (s.setSp n x).flag q j = s.flag q j := (rfl)
@[simp] theorem State.setSp_domSt (s : State) (n : Nat) (x : Spout) (j : Nat) : (s.setSp n x).domSt j = s.domSt j := (rfl)
@[simp] theorem State.setSp_domOn (s : State) (n : Nat) (x : Spout) (j : Nat) : (s.setSp n x).domOn j = s.domOn j := (rfl)
@[simp] theorem State.setSp_pcSt (s : State) (n : Nat) (x : Spout) (j : Nat) : (s.setSp n x).pcSt j = s.pcSt j := (rfl)
@[simp] theorem State.setSp_spSt (s : State) (n : Nat) (x : Spout) (j : Nat) : (s.setSp n x).spSt j = s.spSt j := (rfl)
@[simp] theorem State.setSp_phase (s : State) (n : Nat) (x : Spout) : (s.setSp n x).phase = s.phase := (rfl)
@[simp] theorem State.setSp_wall (s : State) (n : Nat) (x : Spout) : (s.setSp n x).wall = s.wall := (rfl)
@[simp] theorem State.setSp_pc (s : State) (n : Nat) (x : Spout) (j : Nat) : (s.setSp n x).pc j = s.pc j := (rfl)
@[simp] theorem State.setSp_jet (s : State) (n : Nat) (x : Spout) (j : Nat) : (s.setSp n x).jet j = s.jet j := (rfl)
@[simp] theorem State.setSp_chan (s : State) (n : Nat) (x : Spout) (j : Nat) : (s.setSp n x).chan j = s.chan j := (rfl)
@[simp] theorem State.setSp_slot (s : State) (n : Nat) (x : Spout) (j : Nat) : (s.setSp n x).slot j = s.slot j := (rfl)
@[simp] theorem State.setSp_pkt (s : State) (n : Nat) (x : Spout) (j : Nat) : (s.setSp n x).pkt j = s.pkt j := (rfl)
@[simp] theorem State.setSp_aq (s : State) (n : Nat) (x : Spout) (j : Nat) : (s.setSp n x).aq j = s.aq j := (rfl)
@[simp] theorem State.setSp_weir (s : State) (n : Nat) (x : Spout) (j : Nat) : (s.setSp n x).weir j = s.weir j := (rfl)
@[simp] theorem State.setSp_memB (s : State) (n : Nat) (x : Spout) (j : Nat) : (s.setSp n x).memB j = s.memB j := (rfl)
@[simp] theorem State.setSp_evFull (s : State) (n : Nat) (x : Spout) : (s.setSp n x).evFull = s.evFull := (rfl)

@[simp] theorem State.updSp_regs (s : State) (n : Nat) (f : Spout → Spout) : (s.updSp n f).regs = s.regs := (rfl)
@[simp] theorem State.updSp_mem (s : State) (n : Nat) (f : Spout → Spout) : (s.updSp n f).mem = s.mem := (rfl)
@[simp] theorem State.updSp_tiles (s : State) (n : Nat) (f : Spout → Spout) : (s.updSp n f).tiles = s.tiles := (rfl)
@[simp] theorem State.updSp_tier (s : State) (n : Nat) (f : Spout → Spout) : (s.updSp n f).tier = s.tier := (rfl)
@[simp] theorem State.updSp_ctl (s : State) (n : Nat) (f : Spout → Spout) : (s.updSp n f).ctl = s.ctl := (rfl)
@[simp] theorem State.updSp_map (s : State) (n : Nat) (f : Spout → Spout) : (s.updSp n f).map = s.map := (rfl)
@[simp] theorem State.updSp_pcs (s : State) (n : Nat) (f : Spout → Spout) : (s.updSp n f).pcs = s.pcs := (rfl)
@[simp] theorem State.updSp_sched (s : State) (n : Nat) (f : Spout → Spout) : (s.updSp n f).sched = s.sched := (rfl)
@[simp] theorem State.updSp_intake (s : State) (n : Nat) (f : Spout → Spout) : (s.updSp n f).intake = s.intake := (rfl)
@[simp] theorem State.updSp_basin (s : State) (n : Nat) (f : Spout → Spout) : (s.updSp n f).basin = s.basin := (rfl)
@[simp] theorem State.updSp_ras (s : State) (n : Nat) (f : Spout → Spout) : (s.updSp n f).ras = s.ras := (rfl)
@[simp] theorem State.updSp_jets (s : State) (n : Nat) (f : Spout → Spout) : (s.updSp n f).jets = s.jets := (rfl)
@[simp] theorem State.updSp_chans (s : State) (n : Nat) (f : Spout → Spout) : (s.updSp n f).chans = s.chans := (rfl)
@[simp] theorem State.updSp_sluice (s : State) (n : Nat) (f : Spout → Spout) : (s.updSp n f).sluice = s.sluice := (rfl)
@[simp] theorem State.updSp_txu (s : State) (n : Nat) (f : Spout → Spout) : (s.updSp n f).txu = s.txu := (rfl)
@[simp] theorem State.updSp_aqd (s : State) (n : Nat) (f : Spout → Spout) : (s.updSp n f).aqd = s.aqd := (rfl)
@[simp] theorem State.updSp_ring (s : State) (n : Nat) (f : Spout → Spout) : (s.updSp n f).ring = s.ring := (rfl)
@[simp] theorem State.updSp_weirs (s : State) (n : Nat) (f : Spout → Spout) : (s.updSp n f).weirs = s.weirs := (rfl)
@[simp] theorem State.updSp_time (s : State) (n : Nat) (f : Spout → Spout) : (s.updSp n f).time = s.time := (rfl)
@[simp] theorem State.updSp_power (s : State) (n : Nat) (f : Spout → Spout) : (s.updSp n f).power = s.power := (rfl)
@[simp] theorem State.updSp_cal (s : State) (n : Nat) (f : Spout → Spout) : (s.updSp n f).cal = s.cal := (rfl)
@[simp] theorem State.updSp_boot (s : State) (n : Nat) (f : Spout → Spout) : (s.updSp n f).boot = s.boot := (rfl)
@[simp] theorem State.updSp_cas (s : State) (n : Nat) (f : Spout → Spout) : (s.updSp n f).cas = s.cas := (rfl)
@[simp] theorem State.updSp_font (s : State) (n : Nat) (f : Spout → Spout) : (s.updSp n f).font = s.font := (rfl)
@[simp] theorem State.updSp_events (s : State) (n : Nat) (f : Spout → Spout) : (s.updSp n f).events = s.events := (rfl)
@[simp] theorem State.updSp_free (s : State) (n : Nat) (f : Spout → Spout) : (s.updSp n f).free = s.free := (rfl)
@[simp] theorem State.updSp_pending (s : State) (n : Nat) (f : Spout → Spout) : (s.updSp n f).pending = s.pending := (rfl)
@[simp] theorem State.updSp_reg (s : State) (n : Nat) (f : Spout → Spout) (q : Reg) (j : Nat) : (s.updSp n f).reg q j = s.reg q j := (rfl)
@[simp] theorem State.updSp_rd (s : State) (n : Nat) (f : Spout → Spout) (q : Field) (j : Nat) : (s.updSp n f).rd q j = s.rd q j := (rfl)
@[simp] theorem State.updSp_flag (s : State) (n : Nat) (f : Spout → Spout) (q : Field) (j : Nat) : (s.updSp n f).flag q j = s.flag q j := (rfl)
@[simp] theorem State.updSp_domSt (s : State) (n : Nat) (f : Spout → Spout) (j : Nat) : (s.updSp n f).domSt j = s.domSt j := (rfl)
@[simp] theorem State.updSp_domOn (s : State) (n : Nat) (f : Spout → Spout) (j : Nat) : (s.updSp n f).domOn j = s.domOn j := (rfl)
@[simp] theorem State.updSp_pcSt (s : State) (n : Nat) (f : Spout → Spout) (j : Nat) : (s.updSp n f).pcSt j = s.pcSt j := (rfl)
@[simp] theorem State.updSp_spSt (s : State) (n : Nat) (f : Spout → Spout) (j : Nat) : (s.updSp n f).spSt j = s.spSt j := (rfl)
@[simp] theorem State.updSp_phase (s : State) (n : Nat) (f : Spout → Spout) : (s.updSp n f).phase = s.phase := (rfl)
@[simp] theorem State.updSp_wall (s : State) (n : Nat) (f : Spout → Spout) : (s.updSp n f).wall = s.wall := (rfl)
@[simp] theorem State.updSp_pc (s : State) (n : Nat) (f : Spout → Spout) (j : Nat) : (s.updSp n f).pc j = s.pc j := (rfl)
@[simp] theorem State.updSp_jet (s : State) (n : Nat) (f : Spout → Spout) (j : Nat) : (s.updSp n f).jet j = s.jet j := (rfl)
@[simp] theorem State.updSp_chan (s : State) (n : Nat) (f : Spout → Spout) (j : Nat) : (s.updSp n f).chan j = s.chan j := (rfl)
@[simp] theorem State.updSp_slot (s : State) (n : Nat) (f : Spout → Spout) (j : Nat) : (s.updSp n f).slot j = s.slot j := (rfl)
@[simp] theorem State.updSp_pkt (s : State) (n : Nat) (f : Spout → Spout) (j : Nat) : (s.updSp n f).pkt j = s.pkt j := (rfl)
@[simp] theorem State.updSp_aq (s : State) (n : Nat) (f : Spout → Spout) (j : Nat) : (s.updSp n f).aq j = s.aq j := (rfl)
@[simp] theorem State.updSp_weir (s : State) (n : Nat) (f : Spout → Spout) (j : Nat) : (s.updSp n f).weir j = s.weir j := (rfl)
@[simp] theorem State.updSp_memB (s : State) (n : Nat) (f : Spout → Spout) (j : Nat) : (s.updSp n f).memB j = s.memB j := (rfl)
@[simp] theorem State.updSp_evFull (s : State) (n : Nat) (f : Spout → Spout) : (s.updSp n f).evFull = s.evFull := (rfl)

@[simp] theorem State.updJet_regs (s : State) (n : Nat) (f : JetState → JetState) : (s.updJet n f).regs = s.regs := (rfl)
@[simp] theorem State.updJet_mem (s : State) (n : Nat) (f : JetState → JetState) : (s.updJet n f).mem = s.mem := (rfl)
@[simp] theorem State.updJet_tiles (s : State) (n : Nat) (f : JetState → JetState) : (s.updJet n f).tiles = s.tiles := (rfl)
@[simp] theorem State.updJet_tier (s : State) (n : Nat) (f : JetState → JetState) : (s.updJet n f).tier = s.tier := (rfl)
@[simp] theorem State.updJet_ctl (s : State) (n : Nat) (f : JetState → JetState) : (s.updJet n f).ctl = s.ctl := (rfl)
@[simp] theorem State.updJet_map (s : State) (n : Nat) (f : JetState → JetState) : (s.updJet n f).map = s.map := (rfl)
@[simp] theorem State.updJet_pcs (s : State) (n : Nat) (f : JetState → JetState) : (s.updJet n f).pcs = s.pcs := (rfl)
@[simp] theorem State.updJet_sched (s : State) (n : Nat) (f : JetState → JetState) : (s.updJet n f).sched = s.sched := (rfl)
@[simp] theorem State.updJet_intake (s : State) (n : Nat) (f : JetState → JetState) : (s.updJet n f).intake = s.intake := (rfl)
@[simp] theorem State.updJet_basin (s : State) (n : Nat) (f : JetState → JetState) : (s.updJet n f).basin = s.basin := (rfl)
@[simp] theorem State.updJet_ras (s : State) (n : Nat) (f : JetState → JetState) : (s.updJet n f).ras = s.ras := (rfl)
@[simp] theorem State.updJet_spouts (s : State) (n : Nat) (f : JetState → JetState) : (s.updJet n f).spouts = s.spouts := (rfl)
@[simp] theorem State.updJet_chans (s : State) (n : Nat) (f : JetState → JetState) : (s.updJet n f).chans = s.chans := (rfl)
@[simp] theorem State.updJet_sluice (s : State) (n : Nat) (f : JetState → JetState) : (s.updJet n f).sluice = s.sluice := (rfl)
@[simp] theorem State.updJet_txu (s : State) (n : Nat) (f : JetState → JetState) : (s.updJet n f).txu = s.txu := (rfl)
@[simp] theorem State.updJet_aqd (s : State) (n : Nat) (f : JetState → JetState) : (s.updJet n f).aqd = s.aqd := (rfl)
@[simp] theorem State.updJet_ring (s : State) (n : Nat) (f : JetState → JetState) : (s.updJet n f).ring = s.ring := (rfl)
@[simp] theorem State.updJet_weirs (s : State) (n : Nat) (f : JetState → JetState) : (s.updJet n f).weirs = s.weirs := (rfl)
@[simp] theorem State.updJet_time (s : State) (n : Nat) (f : JetState → JetState) : (s.updJet n f).time = s.time := (rfl)
@[simp] theorem State.updJet_power (s : State) (n : Nat) (f : JetState → JetState) : (s.updJet n f).power = s.power := (rfl)
@[simp] theorem State.updJet_cal (s : State) (n : Nat) (f : JetState → JetState) : (s.updJet n f).cal = s.cal := (rfl)
@[simp] theorem State.updJet_boot (s : State) (n : Nat) (f : JetState → JetState) : (s.updJet n f).boot = s.boot := (rfl)
@[simp] theorem State.updJet_cas (s : State) (n : Nat) (f : JetState → JetState) : (s.updJet n f).cas = s.cas := (rfl)
@[simp] theorem State.updJet_font (s : State) (n : Nat) (f : JetState → JetState) : (s.updJet n f).font = s.font := (rfl)
@[simp] theorem State.updJet_events (s : State) (n : Nat) (f : JetState → JetState) : (s.updJet n f).events = s.events := (rfl)
@[simp] theorem State.updJet_free (s : State) (n : Nat) (f : JetState → JetState) : (s.updJet n f).free = s.free := (rfl)
@[simp] theorem State.updJet_pending (s : State) (n : Nat) (f : JetState → JetState) : (s.updJet n f).pending = s.pending := (rfl)
@[simp] theorem State.updJet_reg (s : State) (n : Nat) (f : JetState → JetState) (q : Reg) (j : Nat) : (s.updJet n f).reg q j = s.reg q j := (rfl)
@[simp] theorem State.updJet_rd (s : State) (n : Nat) (f : JetState → JetState) (q : Field) (j : Nat) : (s.updJet n f).rd q j = s.rd q j := (rfl)
@[simp] theorem State.updJet_flag (s : State) (n : Nat) (f : JetState → JetState) (q : Field) (j : Nat) : (s.updJet n f).flag q j = s.flag q j := (rfl)
@[simp] theorem State.updJet_domSt (s : State) (n : Nat) (f : JetState → JetState) (j : Nat) : (s.updJet n f).domSt j = s.domSt j := (rfl)
@[simp] theorem State.updJet_domOn (s : State) (n : Nat) (f : JetState → JetState) (j : Nat) : (s.updJet n f).domOn j = s.domOn j := (rfl)
@[simp] theorem State.updJet_pcSt (s : State) (n : Nat) (f : JetState → JetState) (j : Nat) : (s.updJet n f).pcSt j = s.pcSt j := (rfl)
@[simp] theorem State.updJet_spSt (s : State) (n : Nat) (f : JetState → JetState) (j : Nat) : (s.updJet n f).spSt j = s.spSt j := (rfl)
@[simp] theorem State.updJet_phase (s : State) (n : Nat) (f : JetState → JetState) : (s.updJet n f).phase = s.phase := (rfl)
@[simp] theorem State.updJet_wall (s : State) (n : Nat) (f : JetState → JetState) : (s.updJet n f).wall = s.wall := (rfl)
@[simp] theorem State.updJet_pc (s : State) (n : Nat) (f : JetState → JetState) (j : Nat) : (s.updJet n f).pc j = s.pc j := (rfl)
@[simp] theorem State.updJet_sp (s : State) (n : Nat) (f : JetState → JetState) (j : Nat) : (s.updJet n f).sp j = s.sp j := (rfl)
@[simp] theorem State.updJet_chan (s : State) (n : Nat) (f : JetState → JetState) (j : Nat) : (s.updJet n f).chan j = s.chan j := (rfl)
@[simp] theorem State.updJet_slot (s : State) (n : Nat) (f : JetState → JetState) (j : Nat) : (s.updJet n f).slot j = s.slot j := (rfl)
@[simp] theorem State.updJet_pkt (s : State) (n : Nat) (f : JetState → JetState) (j : Nat) : (s.updJet n f).pkt j = s.pkt j := (rfl)
@[simp] theorem State.updJet_aq (s : State) (n : Nat) (f : JetState → JetState) (j : Nat) : (s.updJet n f).aq j = s.aq j := (rfl)
@[simp] theorem State.updJet_weir (s : State) (n : Nat) (f : JetState → JetState) (j : Nat) : (s.updJet n f).weir j = s.weir j := (rfl)
@[simp] theorem State.updJet_memB (s : State) (n : Nat) (f : JetState → JetState) (j : Nat) : (s.updJet n f).memB j = s.memB j := (rfl)
@[simp] theorem State.updJet_evFull (s : State) (n : Nat) (f : JetState → JetState) : (s.updJet n f).evFull = s.evFull := (rfl)

@[simp] theorem State.updChan_regs (s : State) (n : Nat) (f : ChanState → ChanState) : (s.updChan n f).regs = s.regs := (rfl)
@[simp] theorem State.updChan_mem (s : State) (n : Nat) (f : ChanState → ChanState) : (s.updChan n f).mem = s.mem := (rfl)
@[simp] theorem State.updChan_tiles (s : State) (n : Nat) (f : ChanState → ChanState) : (s.updChan n f).tiles = s.tiles := (rfl)
@[simp] theorem State.updChan_tier (s : State) (n : Nat) (f : ChanState → ChanState) : (s.updChan n f).tier = s.tier := (rfl)
@[simp] theorem State.updChan_ctl (s : State) (n : Nat) (f : ChanState → ChanState) : (s.updChan n f).ctl = s.ctl := (rfl)
@[simp] theorem State.updChan_map (s : State) (n : Nat) (f : ChanState → ChanState) : (s.updChan n f).map = s.map := (rfl)
@[simp] theorem State.updChan_pcs (s : State) (n : Nat) (f : ChanState → ChanState) : (s.updChan n f).pcs = s.pcs := (rfl)
@[simp] theorem State.updChan_sched (s : State) (n : Nat) (f : ChanState → ChanState) : (s.updChan n f).sched = s.sched := (rfl)
@[simp] theorem State.updChan_intake (s : State) (n : Nat) (f : ChanState → ChanState) : (s.updChan n f).intake = s.intake := (rfl)
@[simp] theorem State.updChan_basin (s : State) (n : Nat) (f : ChanState → ChanState) : (s.updChan n f).basin = s.basin := (rfl)
@[simp] theorem State.updChan_ras (s : State) (n : Nat) (f : ChanState → ChanState) : (s.updChan n f).ras = s.ras := (rfl)
@[simp] theorem State.updChan_spouts (s : State) (n : Nat) (f : ChanState → ChanState) : (s.updChan n f).spouts = s.spouts := (rfl)
@[simp] theorem State.updChan_jets (s : State) (n : Nat) (f : ChanState → ChanState) : (s.updChan n f).jets = s.jets := (rfl)
@[simp] theorem State.updChan_sluice (s : State) (n : Nat) (f : ChanState → ChanState) : (s.updChan n f).sluice = s.sluice := (rfl)
@[simp] theorem State.updChan_txu (s : State) (n : Nat) (f : ChanState → ChanState) : (s.updChan n f).txu = s.txu := (rfl)
@[simp] theorem State.updChan_aqd (s : State) (n : Nat) (f : ChanState → ChanState) : (s.updChan n f).aqd = s.aqd := (rfl)
@[simp] theorem State.updChan_ring (s : State) (n : Nat) (f : ChanState → ChanState) : (s.updChan n f).ring = s.ring := (rfl)
@[simp] theorem State.updChan_weirs (s : State) (n : Nat) (f : ChanState → ChanState) : (s.updChan n f).weirs = s.weirs := (rfl)
@[simp] theorem State.updChan_time (s : State) (n : Nat) (f : ChanState → ChanState) : (s.updChan n f).time = s.time := (rfl)
@[simp] theorem State.updChan_power (s : State) (n : Nat) (f : ChanState → ChanState) : (s.updChan n f).power = s.power := (rfl)
@[simp] theorem State.updChan_cal (s : State) (n : Nat) (f : ChanState → ChanState) : (s.updChan n f).cal = s.cal := (rfl)
@[simp] theorem State.updChan_boot (s : State) (n : Nat) (f : ChanState → ChanState) : (s.updChan n f).boot = s.boot := (rfl)
@[simp] theorem State.updChan_cas (s : State) (n : Nat) (f : ChanState → ChanState) : (s.updChan n f).cas = s.cas := (rfl)
@[simp] theorem State.updChan_font (s : State) (n : Nat) (f : ChanState → ChanState) : (s.updChan n f).font = s.font := (rfl)
@[simp] theorem State.updChan_events (s : State) (n : Nat) (f : ChanState → ChanState) : (s.updChan n f).events = s.events := (rfl)
@[simp] theorem State.updChan_free (s : State) (n : Nat) (f : ChanState → ChanState) : (s.updChan n f).free = s.free := (rfl)
@[simp] theorem State.updChan_pending (s : State) (n : Nat) (f : ChanState → ChanState) : (s.updChan n f).pending = s.pending := (rfl)
@[simp] theorem State.updChan_reg (s : State) (n : Nat) (f : ChanState → ChanState) (q : Reg) (j : Nat) : (s.updChan n f).reg q j = s.reg q j := (rfl)
@[simp] theorem State.updChan_rd (s : State) (n : Nat) (f : ChanState → ChanState) (q : Field) (j : Nat) : (s.updChan n f).rd q j = s.rd q j := (rfl)
@[simp] theorem State.updChan_flag (s : State) (n : Nat) (f : ChanState → ChanState) (q : Field) (j : Nat) : (s.updChan n f).flag q j = s.flag q j := (rfl)
@[simp] theorem State.updChan_domSt (s : State) (n : Nat) (f : ChanState → ChanState) (j : Nat) : (s.updChan n f).domSt j = s.domSt j := (rfl)
@[simp] theorem State.updChan_domOn (s : State) (n : Nat) (f : ChanState → ChanState) (j : Nat) : (s.updChan n f).domOn j = s.domOn j := (rfl)
@[simp] theorem State.updChan_pcSt (s : State) (n : Nat) (f : ChanState → ChanState) (j : Nat) : (s.updChan n f).pcSt j = s.pcSt j := (rfl)
@[simp] theorem State.updChan_spSt (s : State) (n : Nat) (f : ChanState → ChanState) (j : Nat) : (s.updChan n f).spSt j = s.spSt j := (rfl)
@[simp] theorem State.updChan_phase (s : State) (n : Nat) (f : ChanState → ChanState) : (s.updChan n f).phase = s.phase := (rfl)
@[simp] theorem State.updChan_wall (s : State) (n : Nat) (f : ChanState → ChanState) : (s.updChan n f).wall = s.wall := (rfl)
@[simp] theorem State.updChan_pc (s : State) (n : Nat) (f : ChanState → ChanState) (j : Nat) : (s.updChan n f).pc j = s.pc j := (rfl)
@[simp] theorem State.updChan_sp (s : State) (n : Nat) (f : ChanState → ChanState) (j : Nat) : (s.updChan n f).sp j = s.sp j := (rfl)
@[simp] theorem State.updChan_jet (s : State) (n : Nat) (f : ChanState → ChanState) (j : Nat) : (s.updChan n f).jet j = s.jet j := (rfl)
@[simp] theorem State.updChan_slot (s : State) (n : Nat) (f : ChanState → ChanState) (j : Nat) : (s.updChan n f).slot j = s.slot j := (rfl)
@[simp] theorem State.updChan_pkt (s : State) (n : Nat) (f : ChanState → ChanState) (j : Nat) : (s.updChan n f).pkt j = s.pkt j := (rfl)
@[simp] theorem State.updChan_aq (s : State) (n : Nat) (f : ChanState → ChanState) (j : Nat) : (s.updChan n f).aq j = s.aq j := (rfl)
@[simp] theorem State.updChan_weir (s : State) (n : Nat) (f : ChanState → ChanState) (j : Nat) : (s.updChan n f).weir j = s.weir j := (rfl)
@[simp] theorem State.updChan_memB (s : State) (n : Nat) (f : ChanState → ChanState) (j : Nat) : (s.updChan n f).memB j = s.memB j := (rfl)
@[simp] theorem State.updChan_evFull (s : State) (n : Nat) (f : ChanState → ChanState) : (s.updChan n f).evFull = s.evFull := (rfl)

@[simp] theorem State.updSlot_regs (s : State) (n : Nat) (f : TxSlot → TxSlot) : (s.updSlot n f).regs = s.regs := (rfl)
@[simp] theorem State.updSlot_mem (s : State) (n : Nat) (f : TxSlot → TxSlot) : (s.updSlot n f).mem = s.mem := (rfl)
@[simp] theorem State.updSlot_tiles (s : State) (n : Nat) (f : TxSlot → TxSlot) : (s.updSlot n f).tiles = s.tiles := (rfl)
@[simp] theorem State.updSlot_tier (s : State) (n : Nat) (f : TxSlot → TxSlot) : (s.updSlot n f).tier = s.tier := (rfl)
@[simp] theorem State.updSlot_ctl (s : State) (n : Nat) (f : TxSlot → TxSlot) : (s.updSlot n f).ctl = s.ctl := (rfl)
@[simp] theorem State.updSlot_map (s : State) (n : Nat) (f : TxSlot → TxSlot) : (s.updSlot n f).map = s.map := (rfl)
@[simp] theorem State.updSlot_pcs (s : State) (n : Nat) (f : TxSlot → TxSlot) : (s.updSlot n f).pcs = s.pcs := (rfl)
@[simp] theorem State.updSlot_sched (s : State) (n : Nat) (f : TxSlot → TxSlot) : (s.updSlot n f).sched = s.sched := (rfl)
@[simp] theorem State.updSlot_intake (s : State) (n : Nat) (f : TxSlot → TxSlot) : (s.updSlot n f).intake = s.intake := (rfl)
@[simp] theorem State.updSlot_basin (s : State) (n : Nat) (f : TxSlot → TxSlot) : (s.updSlot n f).basin = s.basin := (rfl)
@[simp] theorem State.updSlot_ras (s : State) (n : Nat) (f : TxSlot → TxSlot) : (s.updSlot n f).ras = s.ras := (rfl)
@[simp] theorem State.updSlot_spouts (s : State) (n : Nat) (f : TxSlot → TxSlot) : (s.updSlot n f).spouts = s.spouts := (rfl)
@[simp] theorem State.updSlot_jets (s : State) (n : Nat) (f : TxSlot → TxSlot) : (s.updSlot n f).jets = s.jets := (rfl)
@[simp] theorem State.updSlot_chans (s : State) (n : Nat) (f : TxSlot → TxSlot) : (s.updSlot n f).chans = s.chans := (rfl)
@[simp] theorem State.updSlot_sluice (s : State) (n : Nat) (f : TxSlot → TxSlot) : (s.updSlot n f).sluice = s.sluice := (rfl)
@[simp] theorem State.updSlot_aqd (s : State) (n : Nat) (f : TxSlot → TxSlot) : (s.updSlot n f).aqd = s.aqd := (rfl)
@[simp] theorem State.updSlot_ring (s : State) (n : Nat) (f : TxSlot → TxSlot) : (s.updSlot n f).ring = s.ring := (rfl)
@[simp] theorem State.updSlot_weirs (s : State) (n : Nat) (f : TxSlot → TxSlot) : (s.updSlot n f).weirs = s.weirs := (rfl)
@[simp] theorem State.updSlot_time (s : State) (n : Nat) (f : TxSlot → TxSlot) : (s.updSlot n f).time = s.time := (rfl)
@[simp] theorem State.updSlot_power (s : State) (n : Nat) (f : TxSlot → TxSlot) : (s.updSlot n f).power = s.power := (rfl)
@[simp] theorem State.updSlot_cal (s : State) (n : Nat) (f : TxSlot → TxSlot) : (s.updSlot n f).cal = s.cal := (rfl)
@[simp] theorem State.updSlot_boot (s : State) (n : Nat) (f : TxSlot → TxSlot) : (s.updSlot n f).boot = s.boot := (rfl)
@[simp] theorem State.updSlot_cas (s : State) (n : Nat) (f : TxSlot → TxSlot) : (s.updSlot n f).cas = s.cas := (rfl)
@[simp] theorem State.updSlot_font (s : State) (n : Nat) (f : TxSlot → TxSlot) : (s.updSlot n f).font = s.font := (rfl)
@[simp] theorem State.updSlot_events (s : State) (n : Nat) (f : TxSlot → TxSlot) : (s.updSlot n f).events = s.events := (rfl)
@[simp] theorem State.updSlot_free (s : State) (n : Nat) (f : TxSlot → TxSlot) : (s.updSlot n f).free = s.free := (rfl)
@[simp] theorem State.updSlot_pending (s : State) (n : Nat) (f : TxSlot → TxSlot) : (s.updSlot n f).pending = s.pending := (rfl)
@[simp] theorem State.updSlot_reg (s : State) (n : Nat) (f : TxSlot → TxSlot) (q : Reg) (j : Nat) : (s.updSlot n f).reg q j = s.reg q j := (rfl)
@[simp] theorem State.updSlot_rd (s : State) (n : Nat) (f : TxSlot → TxSlot) (q : Field) (j : Nat) : (s.updSlot n f).rd q j = s.rd q j := (rfl)
@[simp] theorem State.updSlot_flag (s : State) (n : Nat) (f : TxSlot → TxSlot) (q : Field) (j : Nat) : (s.updSlot n f).flag q j = s.flag q j := (rfl)
@[simp] theorem State.updSlot_domSt (s : State) (n : Nat) (f : TxSlot → TxSlot) (j : Nat) : (s.updSlot n f).domSt j = s.domSt j := (rfl)
@[simp] theorem State.updSlot_domOn (s : State) (n : Nat) (f : TxSlot → TxSlot) (j : Nat) : (s.updSlot n f).domOn j = s.domOn j := (rfl)
@[simp] theorem State.updSlot_pcSt (s : State) (n : Nat) (f : TxSlot → TxSlot) (j : Nat) : (s.updSlot n f).pcSt j = s.pcSt j := (rfl)
@[simp] theorem State.updSlot_spSt (s : State) (n : Nat) (f : TxSlot → TxSlot) (j : Nat) : (s.updSlot n f).spSt j = s.spSt j := (rfl)
@[simp] theorem State.updSlot_phase (s : State) (n : Nat) (f : TxSlot → TxSlot) : (s.updSlot n f).phase = s.phase := (rfl)
@[simp] theorem State.updSlot_wall (s : State) (n : Nat) (f : TxSlot → TxSlot) : (s.updSlot n f).wall = s.wall := (rfl)
@[simp] theorem State.updSlot_pc (s : State) (n : Nat) (f : TxSlot → TxSlot) (j : Nat) : (s.updSlot n f).pc j = s.pc j := (rfl)
@[simp] theorem State.updSlot_sp (s : State) (n : Nat) (f : TxSlot → TxSlot) (j : Nat) : (s.updSlot n f).sp j = s.sp j := (rfl)
@[simp] theorem State.updSlot_jet (s : State) (n : Nat) (f : TxSlot → TxSlot) (j : Nat) : (s.updSlot n f).jet j = s.jet j := (rfl)
@[simp] theorem State.updSlot_chan (s : State) (n : Nat) (f : TxSlot → TxSlot) (j : Nat) : (s.updSlot n f).chan j = s.chan j := (rfl)
@[simp] theorem State.updSlot_aq (s : State) (n : Nat) (f : TxSlot → TxSlot) (j : Nat) : (s.updSlot n f).aq j = s.aq j := (rfl)
@[simp] theorem State.updSlot_weir (s : State) (n : Nat) (f : TxSlot → TxSlot) (j : Nat) : (s.updSlot n f).weir j = s.weir j := (rfl)
@[simp] theorem State.updSlot_memB (s : State) (n : Nat) (f : TxSlot → TxSlot) (j : Nat) : (s.updSlot n f).memB j = s.memB j := (rfl)
@[simp] theorem State.updSlot_evFull (s : State) (n : Nat) (f : TxSlot → TxSlot) : (s.updSlot n f).evFull = s.evFull := (rfl)

@[simp] theorem State.updPkt_regs (s : State) (n : Nat) (f : XRec → XRec) : (s.updPkt n f).regs = s.regs := (rfl)
@[simp] theorem State.updPkt_mem (s : State) (n : Nat) (f : XRec → XRec) : (s.updPkt n f).mem = s.mem := (rfl)
@[simp] theorem State.updPkt_tiles (s : State) (n : Nat) (f : XRec → XRec) : (s.updPkt n f).tiles = s.tiles := (rfl)
@[simp] theorem State.updPkt_tier (s : State) (n : Nat) (f : XRec → XRec) : (s.updPkt n f).tier = s.tier := (rfl)
@[simp] theorem State.updPkt_ctl (s : State) (n : Nat) (f : XRec → XRec) : (s.updPkt n f).ctl = s.ctl := (rfl)
@[simp] theorem State.updPkt_map (s : State) (n : Nat) (f : XRec → XRec) : (s.updPkt n f).map = s.map := (rfl)
@[simp] theorem State.updPkt_pcs (s : State) (n : Nat) (f : XRec → XRec) : (s.updPkt n f).pcs = s.pcs := (rfl)
@[simp] theorem State.updPkt_sched (s : State) (n : Nat) (f : XRec → XRec) : (s.updPkt n f).sched = s.sched := (rfl)
@[simp] theorem State.updPkt_intake (s : State) (n : Nat) (f : XRec → XRec) : (s.updPkt n f).intake = s.intake := (rfl)
@[simp] theorem State.updPkt_basin (s : State) (n : Nat) (f : XRec → XRec) : (s.updPkt n f).basin = s.basin := (rfl)
@[simp] theorem State.updPkt_ras (s : State) (n : Nat) (f : XRec → XRec) : (s.updPkt n f).ras = s.ras := (rfl)
@[simp] theorem State.updPkt_spouts (s : State) (n : Nat) (f : XRec → XRec) : (s.updPkt n f).spouts = s.spouts := (rfl)
@[simp] theorem State.updPkt_jets (s : State) (n : Nat) (f : XRec → XRec) : (s.updPkt n f).jets = s.jets := (rfl)
@[simp] theorem State.updPkt_chans (s : State) (n : Nat) (f : XRec → XRec) : (s.updPkt n f).chans = s.chans := (rfl)
@[simp] theorem State.updPkt_sluice (s : State) (n : Nat) (f : XRec → XRec) : (s.updPkt n f).sluice = s.sluice := (rfl)
@[simp] theorem State.updPkt_aqd (s : State) (n : Nat) (f : XRec → XRec) : (s.updPkt n f).aqd = s.aqd := (rfl)
@[simp] theorem State.updPkt_ring (s : State) (n : Nat) (f : XRec → XRec) : (s.updPkt n f).ring = s.ring := (rfl)
@[simp] theorem State.updPkt_weirs (s : State) (n : Nat) (f : XRec → XRec) : (s.updPkt n f).weirs = s.weirs := (rfl)
@[simp] theorem State.updPkt_time (s : State) (n : Nat) (f : XRec → XRec) : (s.updPkt n f).time = s.time := (rfl)
@[simp] theorem State.updPkt_power (s : State) (n : Nat) (f : XRec → XRec) : (s.updPkt n f).power = s.power := (rfl)
@[simp] theorem State.updPkt_cal (s : State) (n : Nat) (f : XRec → XRec) : (s.updPkt n f).cal = s.cal := (rfl)
@[simp] theorem State.updPkt_boot (s : State) (n : Nat) (f : XRec → XRec) : (s.updPkt n f).boot = s.boot := (rfl)
@[simp] theorem State.updPkt_cas (s : State) (n : Nat) (f : XRec → XRec) : (s.updPkt n f).cas = s.cas := (rfl)
@[simp] theorem State.updPkt_font (s : State) (n : Nat) (f : XRec → XRec) : (s.updPkt n f).font = s.font := (rfl)
@[simp] theorem State.updPkt_events (s : State) (n : Nat) (f : XRec → XRec) : (s.updPkt n f).events = s.events := (rfl)
@[simp] theorem State.updPkt_free (s : State) (n : Nat) (f : XRec → XRec) : (s.updPkt n f).free = s.free := (rfl)
@[simp] theorem State.updPkt_pending (s : State) (n : Nat) (f : XRec → XRec) : (s.updPkt n f).pending = s.pending := (rfl)
@[simp] theorem State.updPkt_reg (s : State) (n : Nat) (f : XRec → XRec) (q : Reg) (j : Nat) : (s.updPkt n f).reg q j = s.reg q j := (rfl)
@[simp] theorem State.updPkt_rd (s : State) (n : Nat) (f : XRec → XRec) (q : Field) (j : Nat) : (s.updPkt n f).rd q j = s.rd q j := (rfl)
@[simp] theorem State.updPkt_flag (s : State) (n : Nat) (f : XRec → XRec) (q : Field) (j : Nat) : (s.updPkt n f).flag q j = s.flag q j := (rfl)
@[simp] theorem State.updPkt_domSt (s : State) (n : Nat) (f : XRec → XRec) (j : Nat) : (s.updPkt n f).domSt j = s.domSt j := (rfl)
@[simp] theorem State.updPkt_domOn (s : State) (n : Nat) (f : XRec → XRec) (j : Nat) : (s.updPkt n f).domOn j = s.domOn j := (rfl)
@[simp] theorem State.updPkt_pcSt (s : State) (n : Nat) (f : XRec → XRec) (j : Nat) : (s.updPkt n f).pcSt j = s.pcSt j := (rfl)
@[simp] theorem State.updPkt_spSt (s : State) (n : Nat) (f : XRec → XRec) (j : Nat) : (s.updPkt n f).spSt j = s.spSt j := (rfl)
@[simp] theorem State.updPkt_phase (s : State) (n : Nat) (f : XRec → XRec) : (s.updPkt n f).phase = s.phase := (rfl)
@[simp] theorem State.updPkt_wall (s : State) (n : Nat) (f : XRec → XRec) : (s.updPkt n f).wall = s.wall := (rfl)
@[simp] theorem State.updPkt_pc (s : State) (n : Nat) (f : XRec → XRec) (j : Nat) : (s.updPkt n f).pc j = s.pc j := (rfl)
@[simp] theorem State.updPkt_sp (s : State) (n : Nat) (f : XRec → XRec) (j : Nat) : (s.updPkt n f).sp j = s.sp j := (rfl)
@[simp] theorem State.updPkt_jet (s : State) (n : Nat) (f : XRec → XRec) (j : Nat) : (s.updPkt n f).jet j = s.jet j := (rfl)
@[simp] theorem State.updPkt_chan (s : State) (n : Nat) (f : XRec → XRec) (j : Nat) : (s.updPkt n f).chan j = s.chan j := (rfl)
@[simp] theorem State.updPkt_aq (s : State) (n : Nat) (f : XRec → XRec) (j : Nat) : (s.updPkt n f).aq j = s.aq j := (rfl)
@[simp] theorem State.updPkt_weir (s : State) (n : Nat) (f : XRec → XRec) (j : Nat) : (s.updPkt n f).weir j = s.weir j := (rfl)
@[simp] theorem State.updPkt_memB (s : State) (n : Nat) (f : XRec → XRec) (j : Nat) : (s.updPkt n f).memB j = s.memB j := (rfl)
@[simp] theorem State.updPkt_evFull (s : State) (n : Nat) (f : XRec → XRec) : (s.updPkt n f).evFull = s.evFull := (rfl)

@[simp] theorem State.updAq_regs (s : State) (n : Nat) (f : AqPort → AqPort) : (s.updAq n f).regs = s.regs := (rfl)
@[simp] theorem State.updAq_mem (s : State) (n : Nat) (f : AqPort → AqPort) : (s.updAq n f).mem = s.mem := (rfl)
@[simp] theorem State.updAq_tiles (s : State) (n : Nat) (f : AqPort → AqPort) : (s.updAq n f).tiles = s.tiles := (rfl)
@[simp] theorem State.updAq_tier (s : State) (n : Nat) (f : AqPort → AqPort) : (s.updAq n f).tier = s.tier := (rfl)
@[simp] theorem State.updAq_ctl (s : State) (n : Nat) (f : AqPort → AqPort) : (s.updAq n f).ctl = s.ctl := (rfl)
@[simp] theorem State.updAq_map (s : State) (n : Nat) (f : AqPort → AqPort) : (s.updAq n f).map = s.map := (rfl)
@[simp] theorem State.updAq_pcs (s : State) (n : Nat) (f : AqPort → AqPort) : (s.updAq n f).pcs = s.pcs := (rfl)
@[simp] theorem State.updAq_sched (s : State) (n : Nat) (f : AqPort → AqPort) : (s.updAq n f).sched = s.sched := (rfl)
@[simp] theorem State.updAq_intake (s : State) (n : Nat) (f : AqPort → AqPort) : (s.updAq n f).intake = s.intake := (rfl)
@[simp] theorem State.updAq_basin (s : State) (n : Nat) (f : AqPort → AqPort) : (s.updAq n f).basin = s.basin := (rfl)
@[simp] theorem State.updAq_ras (s : State) (n : Nat) (f : AqPort → AqPort) : (s.updAq n f).ras = s.ras := (rfl)
@[simp] theorem State.updAq_spouts (s : State) (n : Nat) (f : AqPort → AqPort) : (s.updAq n f).spouts = s.spouts := (rfl)
@[simp] theorem State.updAq_jets (s : State) (n : Nat) (f : AqPort → AqPort) : (s.updAq n f).jets = s.jets := (rfl)
@[simp] theorem State.updAq_chans (s : State) (n : Nat) (f : AqPort → AqPort) : (s.updAq n f).chans = s.chans := (rfl)
@[simp] theorem State.updAq_sluice (s : State) (n : Nat) (f : AqPort → AqPort) : (s.updAq n f).sluice = s.sluice := (rfl)
@[simp] theorem State.updAq_txu (s : State) (n : Nat) (f : AqPort → AqPort) : (s.updAq n f).txu = s.txu := (rfl)
@[simp] theorem State.updAq_ring (s : State) (n : Nat) (f : AqPort → AqPort) : (s.updAq n f).ring = s.ring := (rfl)
@[simp] theorem State.updAq_weirs (s : State) (n : Nat) (f : AqPort → AqPort) : (s.updAq n f).weirs = s.weirs := (rfl)
@[simp] theorem State.updAq_time (s : State) (n : Nat) (f : AqPort → AqPort) : (s.updAq n f).time = s.time := (rfl)
@[simp] theorem State.updAq_power (s : State) (n : Nat) (f : AqPort → AqPort) : (s.updAq n f).power = s.power := (rfl)
@[simp] theorem State.updAq_cal (s : State) (n : Nat) (f : AqPort → AqPort) : (s.updAq n f).cal = s.cal := (rfl)
@[simp] theorem State.updAq_boot (s : State) (n : Nat) (f : AqPort → AqPort) : (s.updAq n f).boot = s.boot := (rfl)
@[simp] theorem State.updAq_cas (s : State) (n : Nat) (f : AqPort → AqPort) : (s.updAq n f).cas = s.cas := (rfl)
@[simp] theorem State.updAq_font (s : State) (n : Nat) (f : AqPort → AqPort) : (s.updAq n f).font = s.font := (rfl)
@[simp] theorem State.updAq_events (s : State) (n : Nat) (f : AqPort → AqPort) : (s.updAq n f).events = s.events := (rfl)
@[simp] theorem State.updAq_free (s : State) (n : Nat) (f : AqPort → AqPort) : (s.updAq n f).free = s.free := (rfl)
@[simp] theorem State.updAq_pending (s : State) (n : Nat) (f : AqPort → AqPort) : (s.updAq n f).pending = s.pending := (rfl)
@[simp] theorem State.updAq_reg (s : State) (n : Nat) (f : AqPort → AqPort) (q : Reg) (j : Nat) : (s.updAq n f).reg q j = s.reg q j := (rfl)
@[simp] theorem State.updAq_rd (s : State) (n : Nat) (f : AqPort → AqPort) (q : Field) (j : Nat) : (s.updAq n f).rd q j = s.rd q j := (rfl)
@[simp] theorem State.updAq_flag (s : State) (n : Nat) (f : AqPort → AqPort) (q : Field) (j : Nat) : (s.updAq n f).flag q j = s.flag q j := (rfl)
@[simp] theorem State.updAq_domSt (s : State) (n : Nat) (f : AqPort → AqPort) (j : Nat) : (s.updAq n f).domSt j = s.domSt j := (rfl)
@[simp] theorem State.updAq_domOn (s : State) (n : Nat) (f : AqPort → AqPort) (j : Nat) : (s.updAq n f).domOn j = s.domOn j := (rfl)
@[simp] theorem State.updAq_pcSt (s : State) (n : Nat) (f : AqPort → AqPort) (j : Nat) : (s.updAq n f).pcSt j = s.pcSt j := (rfl)
@[simp] theorem State.updAq_spSt (s : State) (n : Nat) (f : AqPort → AqPort) (j : Nat) : (s.updAq n f).spSt j = s.spSt j := (rfl)
@[simp] theorem State.updAq_phase (s : State) (n : Nat) (f : AqPort → AqPort) : (s.updAq n f).phase = s.phase := (rfl)
@[simp] theorem State.updAq_wall (s : State) (n : Nat) (f : AqPort → AqPort) : (s.updAq n f).wall = s.wall := (rfl)
@[simp] theorem State.updAq_pc (s : State) (n : Nat) (f : AqPort → AqPort) (j : Nat) : (s.updAq n f).pc j = s.pc j := (rfl)
@[simp] theorem State.updAq_sp (s : State) (n : Nat) (f : AqPort → AqPort) (j : Nat) : (s.updAq n f).sp j = s.sp j := (rfl)
@[simp] theorem State.updAq_jet (s : State) (n : Nat) (f : AqPort → AqPort) (j : Nat) : (s.updAq n f).jet j = s.jet j := (rfl)
@[simp] theorem State.updAq_chan (s : State) (n : Nat) (f : AqPort → AqPort) (j : Nat) : (s.updAq n f).chan j = s.chan j := (rfl)
@[simp] theorem State.updAq_slot (s : State) (n : Nat) (f : AqPort → AqPort) (j : Nat) : (s.updAq n f).slot j = s.slot j := (rfl)
@[simp] theorem State.updAq_pkt (s : State) (n : Nat) (f : AqPort → AqPort) (j : Nat) : (s.updAq n f).pkt j = s.pkt j := (rfl)
@[simp] theorem State.updAq_weir (s : State) (n : Nat) (f : AqPort → AqPort) (j : Nat) : (s.updAq n f).weir j = s.weir j := (rfl)
@[simp] theorem State.updAq_memB (s : State) (n : Nat) (f : AqPort → AqPort) (j : Nat) : (s.updAq n f).memB j = s.memB j := (rfl)
@[simp] theorem State.updAq_evFull (s : State) (n : Nat) (f : AqPort → AqPort) : (s.updAq n f).evFull = s.evFull := (rfl)

@[simp] theorem State.updWeir_regs (s : State) (n : Nat) (f : Weir → Weir) : (s.updWeir n f).regs = s.regs := (rfl)
@[simp] theorem State.updWeir_mem (s : State) (n : Nat) (f : Weir → Weir) : (s.updWeir n f).mem = s.mem := (rfl)
@[simp] theorem State.updWeir_tiles (s : State) (n : Nat) (f : Weir → Weir) : (s.updWeir n f).tiles = s.tiles := (rfl)
@[simp] theorem State.updWeir_tier (s : State) (n : Nat) (f : Weir → Weir) : (s.updWeir n f).tier = s.tier := (rfl)
@[simp] theorem State.updWeir_ctl (s : State) (n : Nat) (f : Weir → Weir) : (s.updWeir n f).ctl = s.ctl := (rfl)
@[simp] theorem State.updWeir_map (s : State) (n : Nat) (f : Weir → Weir) : (s.updWeir n f).map = s.map := (rfl)
@[simp] theorem State.updWeir_pcs (s : State) (n : Nat) (f : Weir → Weir) : (s.updWeir n f).pcs = s.pcs := (rfl)
@[simp] theorem State.updWeir_sched (s : State) (n : Nat) (f : Weir → Weir) : (s.updWeir n f).sched = s.sched := (rfl)
@[simp] theorem State.updWeir_intake (s : State) (n : Nat) (f : Weir → Weir) : (s.updWeir n f).intake = s.intake := (rfl)
@[simp] theorem State.updWeir_basin (s : State) (n : Nat) (f : Weir → Weir) : (s.updWeir n f).basin = s.basin := (rfl)
@[simp] theorem State.updWeir_ras (s : State) (n : Nat) (f : Weir → Weir) : (s.updWeir n f).ras = s.ras := (rfl)
@[simp] theorem State.updWeir_spouts (s : State) (n : Nat) (f : Weir → Weir) : (s.updWeir n f).spouts = s.spouts := (rfl)
@[simp] theorem State.updWeir_jets (s : State) (n : Nat) (f : Weir → Weir) : (s.updWeir n f).jets = s.jets := (rfl)
@[simp] theorem State.updWeir_chans (s : State) (n : Nat) (f : Weir → Weir) : (s.updWeir n f).chans = s.chans := (rfl)
@[simp] theorem State.updWeir_sluice (s : State) (n : Nat) (f : Weir → Weir) : (s.updWeir n f).sluice = s.sluice := (rfl)
@[simp] theorem State.updWeir_txu (s : State) (n : Nat) (f : Weir → Weir) : (s.updWeir n f).txu = s.txu := (rfl)
@[simp] theorem State.updWeir_aqd (s : State) (n : Nat) (f : Weir → Weir) : (s.updWeir n f).aqd = s.aqd := (rfl)
@[simp] theorem State.updWeir_ring (s : State) (n : Nat) (f : Weir → Weir) : (s.updWeir n f).ring = s.ring := (rfl)
@[simp] theorem State.updWeir_time (s : State) (n : Nat) (f : Weir → Weir) : (s.updWeir n f).time = s.time := (rfl)
@[simp] theorem State.updWeir_power (s : State) (n : Nat) (f : Weir → Weir) : (s.updWeir n f).power = s.power := (rfl)
@[simp] theorem State.updWeir_cal (s : State) (n : Nat) (f : Weir → Weir) : (s.updWeir n f).cal = s.cal := (rfl)
@[simp] theorem State.updWeir_boot (s : State) (n : Nat) (f : Weir → Weir) : (s.updWeir n f).boot = s.boot := (rfl)
@[simp] theorem State.updWeir_cas (s : State) (n : Nat) (f : Weir → Weir) : (s.updWeir n f).cas = s.cas := (rfl)
@[simp] theorem State.updWeir_font (s : State) (n : Nat) (f : Weir → Weir) : (s.updWeir n f).font = s.font := (rfl)
@[simp] theorem State.updWeir_events (s : State) (n : Nat) (f : Weir → Weir) : (s.updWeir n f).events = s.events := (rfl)
@[simp] theorem State.updWeir_free (s : State) (n : Nat) (f : Weir → Weir) : (s.updWeir n f).free = s.free := (rfl)
@[simp] theorem State.updWeir_pending (s : State) (n : Nat) (f : Weir → Weir) : (s.updWeir n f).pending = s.pending := (rfl)
@[simp] theorem State.updWeir_reg (s : State) (n : Nat) (f : Weir → Weir) (q : Reg) (j : Nat) : (s.updWeir n f).reg q j = s.reg q j := (rfl)
@[simp] theorem State.updWeir_rd (s : State) (n : Nat) (f : Weir → Weir) (q : Field) (j : Nat) : (s.updWeir n f).rd q j = s.rd q j := (rfl)
@[simp] theorem State.updWeir_flag (s : State) (n : Nat) (f : Weir → Weir) (q : Field) (j : Nat) : (s.updWeir n f).flag q j = s.flag q j := (rfl)
@[simp] theorem State.updWeir_domSt (s : State) (n : Nat) (f : Weir → Weir) (j : Nat) : (s.updWeir n f).domSt j = s.domSt j := (rfl)
@[simp] theorem State.updWeir_domOn (s : State) (n : Nat) (f : Weir → Weir) (j : Nat) : (s.updWeir n f).domOn j = s.domOn j := (rfl)
@[simp] theorem State.updWeir_pcSt (s : State) (n : Nat) (f : Weir → Weir) (j : Nat) : (s.updWeir n f).pcSt j = s.pcSt j := (rfl)
@[simp] theorem State.updWeir_spSt (s : State) (n : Nat) (f : Weir → Weir) (j : Nat) : (s.updWeir n f).spSt j = s.spSt j := (rfl)
@[simp] theorem State.updWeir_phase (s : State) (n : Nat) (f : Weir → Weir) : (s.updWeir n f).phase = s.phase := (rfl)
@[simp] theorem State.updWeir_wall (s : State) (n : Nat) (f : Weir → Weir) : (s.updWeir n f).wall = s.wall := (rfl)
@[simp] theorem State.updWeir_pc (s : State) (n : Nat) (f : Weir → Weir) (j : Nat) : (s.updWeir n f).pc j = s.pc j := (rfl)
@[simp] theorem State.updWeir_sp (s : State) (n : Nat) (f : Weir → Weir) (j : Nat) : (s.updWeir n f).sp j = s.sp j := (rfl)
@[simp] theorem State.updWeir_jet (s : State) (n : Nat) (f : Weir → Weir) (j : Nat) : (s.updWeir n f).jet j = s.jet j := (rfl)
@[simp] theorem State.updWeir_chan (s : State) (n : Nat) (f : Weir → Weir) (j : Nat) : (s.updWeir n f).chan j = s.chan j := (rfl)
@[simp] theorem State.updWeir_slot (s : State) (n : Nat) (f : Weir → Weir) (j : Nat) : (s.updWeir n f).slot j = s.slot j := (rfl)
@[simp] theorem State.updWeir_pkt (s : State) (n : Nat) (f : Weir → Weir) (j : Nat) : (s.updWeir n f).pkt j = s.pkt j := (rfl)
@[simp] theorem State.updWeir_aq (s : State) (n : Nat) (f : Weir → Weir) (j : Nat) : (s.updWeir n f).aq j = s.aq j := (rfl)
@[simp] theorem State.updWeir_memB (s : State) (n : Nat) (f : Weir → Weir) (j : Nat) : (s.updWeir n f).memB j = s.memB j := (rfl)
@[simp] theorem State.updWeir_evFull (s : State) (n : Nat) (f : Weir → Weir) : (s.updWeir n f).evFull = s.evFull := (rfl)

@[simp] theorem State.emit_regs (s : State) (c u x y : Nat) : (s.emit c u x y).regs = s.regs := (rfl)
@[simp] theorem State.emit_mem (s : State) (c u x y : Nat) : (s.emit c u x y).mem = s.mem := (rfl)
@[simp] theorem State.emit_tiles (s : State) (c u x y : Nat) : (s.emit c u x y).tiles = s.tiles := (rfl)
@[simp] theorem State.emit_tier (s : State) (c u x y : Nat) : (s.emit c u x y).tier = s.tier := (rfl)
@[simp] theorem State.emit_ctl (s : State) (c u x y : Nat) : (s.emit c u x y).ctl = s.ctl := (rfl)
@[simp] theorem State.emit_map (s : State) (c u x y : Nat) : (s.emit c u x y).map = s.map := (rfl)
@[simp] theorem State.emit_pcs (s : State) (c u x y : Nat) : (s.emit c u x y).pcs = s.pcs := (rfl)
@[simp] theorem State.emit_sched (s : State) (c u x y : Nat) : (s.emit c u x y).sched = s.sched := (rfl)
@[simp] theorem State.emit_intake (s : State) (c u x y : Nat) : (s.emit c u x y).intake = s.intake := (rfl)
@[simp] theorem State.emit_basin (s : State) (c u x y : Nat) : (s.emit c u x y).basin = s.basin := (rfl)
@[simp] theorem State.emit_ras (s : State) (c u x y : Nat) : (s.emit c u x y).ras = s.ras := (rfl)
@[simp] theorem State.emit_spouts (s : State) (c u x y : Nat) : (s.emit c u x y).spouts = s.spouts := (rfl)
@[simp] theorem State.emit_jets (s : State) (c u x y : Nat) : (s.emit c u x y).jets = s.jets := (rfl)
@[simp] theorem State.emit_chans (s : State) (c u x y : Nat) : (s.emit c u x y).chans = s.chans := (rfl)
@[simp] theorem State.emit_sluice (s : State) (c u x y : Nat) : (s.emit c u x y).sluice = s.sluice := (rfl)
@[simp] theorem State.emit_txu (s : State) (c u x y : Nat) : (s.emit c u x y).txu = s.txu := (rfl)
@[simp] theorem State.emit_aqd (s : State) (c u x y : Nat) : (s.emit c u x y).aqd = s.aqd := (rfl)
@[simp] theorem State.emit_ring (s : State) (c u x y : Nat) : (s.emit c u x y).ring = s.ring := (rfl)
@[simp] theorem State.emit_weirs (s : State) (c u x y : Nat) : (s.emit c u x y).weirs = s.weirs := (rfl)
@[simp] theorem State.emit_time (s : State) (c u x y : Nat) : (s.emit c u x y).time = s.time := (rfl)
@[simp] theorem State.emit_power (s : State) (c u x y : Nat) : (s.emit c u x y).power = s.power := (rfl)
@[simp] theorem State.emit_cal (s : State) (c u x y : Nat) : (s.emit c u x y).cal = s.cal := (rfl)
@[simp] theorem State.emit_boot (s : State) (c u x y : Nat) : (s.emit c u x y).boot = s.boot := (rfl)
@[simp] theorem State.emit_cas (s : State) (c u x y : Nat) : (s.emit c u x y).cas = s.cas := (rfl)
@[simp] theorem State.emit_font (s : State) (c u x y : Nat) : (s.emit c u x y).font = s.font := (rfl)
@[simp] theorem State.emit_free (s : State) (c u x y : Nat) : (s.emit c u x y).free = s.free := (rfl)
@[simp] theorem State.emit_pending (s : State) (c u x y : Nat) : (s.emit c u x y).pending = s.pending := (rfl)
@[simp] theorem State.emit_reg (s : State) (c u x y : Nat) (q : Reg) (j : Nat) : (s.emit c u x y).reg q j = s.reg q j := (rfl)
@[simp] theorem State.emit_rd (s : State) (c u x y : Nat) (q : Field) (j : Nat) : (s.emit c u x y).rd q j = s.rd q j := (rfl)
@[simp] theorem State.emit_flag (s : State) (c u x y : Nat) (q : Field) (j : Nat) : (s.emit c u x y).flag q j = s.flag q j := (rfl)
@[simp] theorem State.emit_domSt (s : State) (c u x y : Nat) (j : Nat) : (s.emit c u x y).domSt j = s.domSt j := (rfl)
@[simp] theorem State.emit_domOn (s : State) (c u x y : Nat) (j : Nat) : (s.emit c u x y).domOn j = s.domOn j := (rfl)
@[simp] theorem State.emit_pcSt (s : State) (c u x y : Nat) (j : Nat) : (s.emit c u x y).pcSt j = s.pcSt j := (rfl)
@[simp] theorem State.emit_spSt (s : State) (c u x y : Nat) (j : Nat) : (s.emit c u x y).spSt j = s.spSt j := (rfl)
@[simp] theorem State.emit_phase (s : State) (c u x y : Nat) : (s.emit c u x y).phase = s.phase := (rfl)
@[simp] theorem State.emit_wall (s : State) (c u x y : Nat) : (s.emit c u x y).wall = s.wall := (rfl)
@[simp] theorem State.emit_pc (s : State) (c u x y : Nat) (j : Nat) : (s.emit c u x y).pc j = s.pc j := (rfl)
@[simp] theorem State.emit_sp (s : State) (c u x y : Nat) (j : Nat) : (s.emit c u x y).sp j = s.sp j := (rfl)
@[simp] theorem State.emit_jet (s : State) (c u x y : Nat) (j : Nat) : (s.emit c u x y).jet j = s.jet j := (rfl)
@[simp] theorem State.emit_chan (s : State) (c u x y : Nat) (j : Nat) : (s.emit c u x y).chan j = s.chan j := (rfl)
@[simp] theorem State.emit_slot (s : State) (c u x y : Nat) (j : Nat) : (s.emit c u x y).slot j = s.slot j := (rfl)
@[simp] theorem State.emit_pkt (s : State) (c u x y : Nat) (j : Nat) : (s.emit c u x y).pkt j = s.pkt j := (rfl)
@[simp] theorem State.emit_aq (s : State) (c u x y : Nat) (j : Nat) : (s.emit c u x y).aq j = s.aq j := (rfl)
@[simp] theorem State.emit_weir (s : State) (c u x y : Nat) (j : Nat) : (s.emit c u x y).weir j = s.weir j := (rfl)
@[simp] theorem State.emit_memB (s : State) (c u x y : Nat) (j : Nat) : (s.emit c u x y).memB j = s.memB j := (rfl)

@[simp] theorem State.ok_regs (s : State) : (s.ok).regs = s.regs := (rfl)
@[simp] theorem State.ok_mem (s : State) : (s.ok).mem = s.mem := (rfl)
@[simp] theorem State.ok_tiles (s : State) : (s.ok).tiles = s.tiles := (rfl)
@[simp] theorem State.ok_tier (s : State) : (s.ok).tier = s.tier := (rfl)
@[simp] theorem State.ok_map (s : State) : (s.ok).map = s.map := (rfl)
@[simp] theorem State.ok_pcs (s : State) : (s.ok).pcs = s.pcs := (rfl)
@[simp] theorem State.ok_sched (s : State) : (s.ok).sched = s.sched := (rfl)
@[simp] theorem State.ok_intake (s : State) : (s.ok).intake = s.intake := (rfl)
@[simp] theorem State.ok_basin (s : State) : (s.ok).basin = s.basin := (rfl)
@[simp] theorem State.ok_ras (s : State) : (s.ok).ras = s.ras := (rfl)
@[simp] theorem State.ok_spouts (s : State) : (s.ok).spouts = s.spouts := (rfl)
@[simp] theorem State.ok_jets (s : State) : (s.ok).jets = s.jets := (rfl)
@[simp] theorem State.ok_chans (s : State) : (s.ok).chans = s.chans := (rfl)
@[simp] theorem State.ok_sluice (s : State) : (s.ok).sluice = s.sluice := (rfl)
@[simp] theorem State.ok_txu (s : State) : (s.ok).txu = s.txu := (rfl)
@[simp] theorem State.ok_aqd (s : State) : (s.ok).aqd = s.aqd := (rfl)
@[simp] theorem State.ok_ring (s : State) : (s.ok).ring = s.ring := (rfl)
@[simp] theorem State.ok_weirs (s : State) : (s.ok).weirs = s.weirs := (rfl)
@[simp] theorem State.ok_time (s : State) : (s.ok).time = s.time := (rfl)
@[simp] theorem State.ok_power (s : State) : (s.ok).power = s.power := (rfl)
@[simp] theorem State.ok_cal (s : State) : (s.ok).cal = s.cal := (rfl)
@[simp] theorem State.ok_boot (s : State) : (s.ok).boot = s.boot := (rfl)
@[simp] theorem State.ok_cas (s : State) : (s.ok).cas = s.cas := (rfl)
@[simp] theorem State.ok_font (s : State) : (s.ok).font = s.font := (rfl)
@[simp] theorem State.ok_events (s : State) : (s.ok).events = s.events := (rfl)
@[simp] theorem State.ok_free (s : State) : (s.ok).free = s.free := (rfl)
@[simp] theorem State.ok_pending (s : State) : (s.ok).pending = s.pending := (rfl)
@[simp] theorem State.ok_reg (s : State) (q : Reg) (j : Nat) : (s.ok).reg q j = s.reg q j := (rfl)
@[simp] theorem State.ok_rd (s : State) (q : Field) (j : Nat) : (s.ok).rd q j = s.rd q j := (rfl)
@[simp] theorem State.ok_flag (s : State) (q : Field) (j : Nat) : (s.ok).flag q j = s.flag q j := (rfl)
@[simp] theorem State.ok_domSt (s : State) (j : Nat) : (s.ok).domSt j = s.domSt j := (rfl)
@[simp] theorem State.ok_domOn (s : State) (j : Nat) : (s.ok).domOn j = s.domOn j := (rfl)
@[simp] theorem State.ok_pcSt (s : State) (j : Nat) : (s.ok).pcSt j = s.pcSt j := (rfl)
@[simp] theorem State.ok_spSt (s : State) (j : Nat) : (s.ok).spSt j = s.spSt j := (rfl)
@[simp] theorem State.ok_phase (s : State)  : (s.ok).phase = s.phase := (rfl)
@[simp] theorem State.ok_wall (s : State)  : (s.ok).wall = s.wall := (rfl)
@[simp] theorem State.ok_pc (s : State) (j : Nat) : (s.ok).pc j = s.pc j := (rfl)
@[simp] theorem State.ok_sp (s : State) (j : Nat) : (s.ok).sp j = s.sp j := (rfl)
@[simp] theorem State.ok_jet (s : State) (j : Nat) : (s.ok).jet j = s.jet j := (rfl)
@[simp] theorem State.ok_chan (s : State) (j : Nat) : (s.ok).chan j = s.chan j := (rfl)
@[simp] theorem State.ok_slot (s : State) (j : Nat) : (s.ok).slot j = s.slot j := (rfl)
@[simp] theorem State.ok_pkt (s : State) (j : Nat) : (s.ok).pkt j = s.pkt j := (rfl)
@[simp] theorem State.ok_aq (s : State) (j : Nat) : (s.ok).aq j = s.aq j := (rfl)
@[simp] theorem State.ok_weir (s : State) (j : Nat) : (s.ok).weir j = s.weir j := (rfl)
@[simp] theorem State.ok_memB (s : State) (j : Nat) : (s.ok).memB j = s.memB j := (rfl)
@[simp] theorem State.ok_evFull (s : State)  : (s.ok).evFull = s.evFull := (rfl)

@[simp] theorem State.decerr_regs (s : State) : (s.decerr).regs = s.regs := (rfl)
@[simp] theorem State.decerr_mem (s : State) : (s.decerr).mem = s.mem := (rfl)
@[simp] theorem State.decerr_tiles (s : State) : (s.decerr).tiles = s.tiles := (rfl)
@[simp] theorem State.decerr_tier (s : State) : (s.decerr).tier = s.tier := (rfl)
@[simp] theorem State.decerr_map (s : State) : (s.decerr).map = s.map := (rfl)
@[simp] theorem State.decerr_pcs (s : State) : (s.decerr).pcs = s.pcs := (rfl)
@[simp] theorem State.decerr_sched (s : State) : (s.decerr).sched = s.sched := (rfl)
@[simp] theorem State.decerr_intake (s : State) : (s.decerr).intake = s.intake := (rfl)
@[simp] theorem State.decerr_basin (s : State) : (s.decerr).basin = s.basin := (rfl)
@[simp] theorem State.decerr_ras (s : State) : (s.decerr).ras = s.ras := (rfl)
@[simp] theorem State.decerr_spouts (s : State) : (s.decerr).spouts = s.spouts := (rfl)
@[simp] theorem State.decerr_jets (s : State) : (s.decerr).jets = s.jets := (rfl)
@[simp] theorem State.decerr_chans (s : State) : (s.decerr).chans = s.chans := (rfl)
@[simp] theorem State.decerr_sluice (s : State) : (s.decerr).sluice = s.sluice := (rfl)
@[simp] theorem State.decerr_txu (s : State) : (s.decerr).txu = s.txu := (rfl)
@[simp] theorem State.decerr_aqd (s : State) : (s.decerr).aqd = s.aqd := (rfl)
@[simp] theorem State.decerr_ring (s : State) : (s.decerr).ring = s.ring := (rfl)
@[simp] theorem State.decerr_weirs (s : State) : (s.decerr).weirs = s.weirs := (rfl)
@[simp] theorem State.decerr_time (s : State) : (s.decerr).time = s.time := (rfl)
@[simp] theorem State.decerr_power (s : State) : (s.decerr).power = s.power := (rfl)
@[simp] theorem State.decerr_cal (s : State) : (s.decerr).cal = s.cal := (rfl)
@[simp] theorem State.decerr_boot (s : State) : (s.decerr).boot = s.boot := (rfl)
@[simp] theorem State.decerr_cas (s : State) : (s.decerr).cas = s.cas := (rfl)
@[simp] theorem State.decerr_font (s : State) : (s.decerr).font = s.font := (rfl)
@[simp] theorem State.decerr_events (s : State) : (s.decerr).events = s.events := (rfl)
@[simp] theorem State.decerr_free (s : State) : (s.decerr).free = s.free := (rfl)
@[simp] theorem State.decerr_pending (s : State) : (s.decerr).pending = s.pending := (rfl)
@[simp] theorem State.decerr_reg (s : State) (q : Reg) (j : Nat) : (s.decerr).reg q j = s.reg q j := (rfl)
@[simp] theorem State.decerr_rd (s : State) (q : Field) (j : Nat) : (s.decerr).rd q j = s.rd q j := (rfl)
@[simp] theorem State.decerr_flag (s : State) (q : Field) (j : Nat) : (s.decerr).flag q j = s.flag q j := (rfl)
@[simp] theorem State.decerr_domSt (s : State) (j : Nat) : (s.decerr).domSt j = s.domSt j := (rfl)
@[simp] theorem State.decerr_domOn (s : State) (j : Nat) : (s.decerr).domOn j = s.domOn j := (rfl)
@[simp] theorem State.decerr_pcSt (s : State) (j : Nat) : (s.decerr).pcSt j = s.pcSt j := (rfl)
@[simp] theorem State.decerr_spSt (s : State) (j : Nat) : (s.decerr).spSt j = s.spSt j := (rfl)
@[simp] theorem State.decerr_phase (s : State)  : (s.decerr).phase = s.phase := (rfl)
@[simp] theorem State.decerr_wall (s : State)  : (s.decerr).wall = s.wall := (rfl)
@[simp] theorem State.decerr_pc (s : State) (j : Nat) : (s.decerr).pc j = s.pc j := (rfl)
@[simp] theorem State.decerr_sp (s : State) (j : Nat) : (s.decerr).sp j = s.sp j := (rfl)
@[simp] theorem State.decerr_jet (s : State) (j : Nat) : (s.decerr).jet j = s.jet j := (rfl)
@[simp] theorem State.decerr_chan (s : State) (j : Nat) : (s.decerr).chan j = s.chan j := (rfl)
@[simp] theorem State.decerr_slot (s : State) (j : Nat) : (s.decerr).slot j = s.slot j := (rfl)
@[simp] theorem State.decerr_pkt (s : State) (j : Nat) : (s.decerr).pkt j = s.pkt j := (rfl)
@[simp] theorem State.decerr_aq (s : State) (j : Nat) : (s.decerr).aq j = s.aq j := (rfl)
@[simp] theorem State.decerr_weir (s : State) (j : Nat) : (s.decerr).weir j = s.weir j := (rfl)
@[simp] theorem State.decerr_memB (s : State) (j : Nat) : (s.decerr).memB j = s.memB j := (rfl)
@[simp] theorem State.decerr_evFull (s : State)  : (s.decerr).evFull = s.evFull := (rfl)

@[simp] theorem State.answer_regs (s : State) (v : Nat) : (s.answer v).regs = s.regs := (rfl)
@[simp] theorem State.answer_mem (s : State) (v : Nat) : (s.answer v).mem = s.mem := (rfl)
@[simp] theorem State.answer_tiles (s : State) (v : Nat) : (s.answer v).tiles = s.tiles := (rfl)
@[simp] theorem State.answer_tier (s : State) (v : Nat) : (s.answer v).tier = s.tier := (rfl)
@[simp] theorem State.answer_map (s : State) (v : Nat) : (s.answer v).map = s.map := (rfl)
@[simp] theorem State.answer_pcs (s : State) (v : Nat) : (s.answer v).pcs = s.pcs := (rfl)
@[simp] theorem State.answer_sched (s : State) (v : Nat) : (s.answer v).sched = s.sched := (rfl)
@[simp] theorem State.answer_intake (s : State) (v : Nat) : (s.answer v).intake = s.intake := (rfl)
@[simp] theorem State.answer_basin (s : State) (v : Nat) : (s.answer v).basin = s.basin := (rfl)
@[simp] theorem State.answer_ras (s : State) (v : Nat) : (s.answer v).ras = s.ras := (rfl)
@[simp] theorem State.answer_spouts (s : State) (v : Nat) : (s.answer v).spouts = s.spouts := (rfl)
@[simp] theorem State.answer_jets (s : State) (v : Nat) : (s.answer v).jets = s.jets := (rfl)
@[simp] theorem State.answer_chans (s : State) (v : Nat) : (s.answer v).chans = s.chans := (rfl)
@[simp] theorem State.answer_sluice (s : State) (v : Nat) : (s.answer v).sluice = s.sluice := (rfl)
@[simp] theorem State.answer_txu (s : State) (v : Nat) : (s.answer v).txu = s.txu := (rfl)
@[simp] theorem State.answer_aqd (s : State) (v : Nat) : (s.answer v).aqd = s.aqd := (rfl)
@[simp] theorem State.answer_ring (s : State) (v : Nat) : (s.answer v).ring = s.ring := (rfl)
@[simp] theorem State.answer_weirs (s : State) (v : Nat) : (s.answer v).weirs = s.weirs := (rfl)
@[simp] theorem State.answer_time (s : State) (v : Nat) : (s.answer v).time = s.time := (rfl)
@[simp] theorem State.answer_power (s : State) (v : Nat) : (s.answer v).power = s.power := (rfl)
@[simp] theorem State.answer_cal (s : State) (v : Nat) : (s.answer v).cal = s.cal := (rfl)
@[simp] theorem State.answer_boot (s : State) (v : Nat) : (s.answer v).boot = s.boot := (rfl)
@[simp] theorem State.answer_cas (s : State) (v : Nat) : (s.answer v).cas = s.cas := (rfl)
@[simp] theorem State.answer_font (s : State) (v : Nat) : (s.answer v).font = s.font := (rfl)
@[simp] theorem State.answer_events (s : State) (v : Nat) : (s.answer v).events = s.events := (rfl)
@[simp] theorem State.answer_free (s : State) (v : Nat) : (s.answer v).free = s.free := (rfl)
@[simp] theorem State.answer_pending (s : State) (v : Nat) : (s.answer v).pending = s.pending := (rfl)
@[simp] theorem State.answer_reg (s : State) (v : Nat) (q : Reg) (j : Nat) : (s.answer v).reg q j = s.reg q j := (rfl)
@[simp] theorem State.answer_rd (s : State) (v : Nat) (q : Field) (j : Nat) : (s.answer v).rd q j = s.rd q j := (rfl)
@[simp] theorem State.answer_flag (s : State) (v : Nat) (q : Field) (j : Nat) : (s.answer v).flag q j = s.flag q j := (rfl)
@[simp] theorem State.answer_domSt (s : State) (v : Nat) (j : Nat) : (s.answer v).domSt j = s.domSt j := (rfl)
@[simp] theorem State.answer_domOn (s : State) (v : Nat) (j : Nat) : (s.answer v).domOn j = s.domOn j := (rfl)
@[simp] theorem State.answer_pcSt (s : State) (v : Nat) (j : Nat) : (s.answer v).pcSt j = s.pcSt j := (rfl)
@[simp] theorem State.answer_spSt (s : State) (v : Nat) (j : Nat) : (s.answer v).spSt j = s.spSt j := (rfl)
@[simp] theorem State.answer_phase (s : State) (v : Nat) : (s.answer v).phase = s.phase := (rfl)
@[simp] theorem State.answer_wall (s : State) (v : Nat) : (s.answer v).wall = s.wall := (rfl)
@[simp] theorem State.answer_pc (s : State) (v : Nat) (j : Nat) : (s.answer v).pc j = s.pc j := (rfl)
@[simp] theorem State.answer_sp (s : State) (v : Nat) (j : Nat) : (s.answer v).sp j = s.sp j := (rfl)
@[simp] theorem State.answer_jet (s : State) (v : Nat) (j : Nat) : (s.answer v).jet j = s.jet j := (rfl)
@[simp] theorem State.answer_chan (s : State) (v : Nat) (j : Nat) : (s.answer v).chan j = s.chan j := (rfl)
@[simp] theorem State.answer_slot (s : State) (v : Nat) (j : Nat) : (s.answer v).slot j = s.slot j := (rfl)
@[simp] theorem State.answer_pkt (s : State) (v : Nat) (j : Nat) : (s.answer v).pkt j = s.pkt j := (rfl)
@[simp] theorem State.answer_aq (s : State) (v : Nat) (j : Nat) : (s.answer v).aq j = s.aq j := (rfl)
@[simp] theorem State.answer_weir (s : State) (v : Nat) (j : Nat) : (s.answer v).weir j = s.weir j := (rfl)
@[simp] theorem State.answer_memB (s : State) (v : Nat) (j : Nat) : (s.answer v).memB j = s.memB j := (rfl)
@[simp] theorem State.answer_evFull (s : State) (v : Nat) : (s.answer v).evFull = s.evFull := (rfl)

@[simp] theorem State.setRun_regs (s : State) (k : Nat) (l : Bytes) : (s.setRun k l).regs = s.regs := (rfl)
@[simp] theorem State.setRun_tiles (s : State) (k : Nat) (l : Bytes) : (s.setRun k l).tiles = s.tiles := (rfl)
@[simp] theorem State.setRun_tier (s : State) (k : Nat) (l : Bytes) : (s.setRun k l).tier = s.tier := (rfl)
@[simp] theorem State.setRun_ctl (s : State) (k : Nat) (l : Bytes) : (s.setRun k l).ctl = s.ctl := (rfl)
@[simp] theorem State.setRun_map (s : State) (k : Nat) (l : Bytes) : (s.setRun k l).map = s.map := (rfl)
@[simp] theorem State.setRun_pcs (s : State) (k : Nat) (l : Bytes) : (s.setRun k l).pcs = s.pcs := (rfl)
@[simp] theorem State.setRun_sched (s : State) (k : Nat) (l : Bytes) : (s.setRun k l).sched = s.sched := (rfl)
@[simp] theorem State.setRun_intake (s : State) (k : Nat) (l : Bytes) : (s.setRun k l).intake = s.intake := (rfl)
@[simp] theorem State.setRun_basin (s : State) (k : Nat) (l : Bytes) : (s.setRun k l).basin = s.basin := (rfl)
@[simp] theorem State.setRun_ras (s : State) (k : Nat) (l : Bytes) : (s.setRun k l).ras = s.ras := (rfl)
@[simp] theorem State.setRun_spouts (s : State) (k : Nat) (l : Bytes) : (s.setRun k l).spouts = s.spouts := (rfl)
@[simp] theorem State.setRun_jets (s : State) (k : Nat) (l : Bytes) : (s.setRun k l).jets = s.jets := (rfl)
@[simp] theorem State.setRun_chans (s : State) (k : Nat) (l : Bytes) : (s.setRun k l).chans = s.chans := (rfl)
@[simp] theorem State.setRun_sluice (s : State) (k : Nat) (l : Bytes) : (s.setRun k l).sluice = s.sluice := (rfl)
@[simp] theorem State.setRun_txu (s : State) (k : Nat) (l : Bytes) : (s.setRun k l).txu = s.txu := (rfl)
@[simp] theorem State.setRun_aqd (s : State) (k : Nat) (l : Bytes) : (s.setRun k l).aqd = s.aqd := (rfl)
@[simp] theorem State.setRun_ring (s : State) (k : Nat) (l : Bytes) : (s.setRun k l).ring = s.ring := (rfl)
@[simp] theorem State.setRun_weirs (s : State) (k : Nat) (l : Bytes) : (s.setRun k l).weirs = s.weirs := (rfl)
@[simp] theorem State.setRun_time (s : State) (k : Nat) (l : Bytes) : (s.setRun k l).time = s.time := (rfl)
@[simp] theorem State.setRun_power (s : State) (k : Nat) (l : Bytes) : (s.setRun k l).power = s.power := (rfl)
@[simp] theorem State.setRun_cal (s : State) (k : Nat) (l : Bytes) : (s.setRun k l).cal = s.cal := (rfl)
@[simp] theorem State.setRun_boot (s : State) (k : Nat) (l : Bytes) : (s.setRun k l).boot = s.boot := (rfl)
@[simp] theorem State.setRun_cas (s : State) (k : Nat) (l : Bytes) : (s.setRun k l).cas = s.cas := (rfl)
@[simp] theorem State.setRun_font (s : State) (k : Nat) (l : Bytes) : (s.setRun k l).font = s.font := (rfl)
@[simp] theorem State.setRun_events (s : State) (k : Nat) (l : Bytes) : (s.setRun k l).events = s.events := (rfl)
@[simp] theorem State.setRun_free (s : State) (k : Nat) (l : Bytes) : (s.setRun k l).free = s.free := (rfl)
@[simp] theorem State.setRun_pending (s : State) (k : Nat) (l : Bytes) : (s.setRun k l).pending = s.pending := (rfl)
@[simp] theorem State.setRun_reg (s : State) (k : Nat) (l : Bytes) (q : Reg) (j : Nat) : (s.setRun k l).reg q j = s.reg q j := (rfl)
@[simp] theorem State.setRun_rd (s : State) (k : Nat) (l : Bytes) (q : Field) (j : Nat) : (s.setRun k l).rd q j = s.rd q j := (rfl)
@[simp] theorem State.setRun_flag (s : State) (k : Nat) (l : Bytes) (q : Field) (j : Nat) : (s.setRun k l).flag q j = s.flag q j := (rfl)
@[simp] theorem State.setRun_domSt (s : State) (k : Nat) (l : Bytes) (j : Nat) : (s.setRun k l).domSt j = s.domSt j := (rfl)
@[simp] theorem State.setRun_domOn (s : State) (k : Nat) (l : Bytes) (j : Nat) : (s.setRun k l).domOn j = s.domOn j := (rfl)
@[simp] theorem State.setRun_pcSt (s : State) (k : Nat) (l : Bytes) (j : Nat) : (s.setRun k l).pcSt j = s.pcSt j := (rfl)
@[simp] theorem State.setRun_spSt (s : State) (k : Nat) (l : Bytes) (j : Nat) : (s.setRun k l).spSt j = s.spSt j := (rfl)
@[simp] theorem State.setRun_phase (s : State) (k : Nat) (l : Bytes) : (s.setRun k l).phase = s.phase := (rfl)
@[simp] theorem State.setRun_wall (s : State) (k : Nat) (l : Bytes) : (s.setRun k l).wall = s.wall := (rfl)
@[simp] theorem State.setRun_pc (s : State) (k : Nat) (l : Bytes) (j : Nat) : (s.setRun k l).pc j = s.pc j := (rfl)
@[simp] theorem State.setRun_sp (s : State) (k : Nat) (l : Bytes) (j : Nat) : (s.setRun k l).sp j = s.sp j := (rfl)
@[simp] theorem State.setRun_jet (s : State) (k : Nat) (l : Bytes) (j : Nat) : (s.setRun k l).jet j = s.jet j := (rfl)
@[simp] theorem State.setRun_chan (s : State) (k : Nat) (l : Bytes) (j : Nat) : (s.setRun k l).chan j = s.chan j := (rfl)
@[simp] theorem State.setRun_slot (s : State) (k : Nat) (l : Bytes) (j : Nat) : (s.setRun k l).slot j = s.slot j := (rfl)
@[simp] theorem State.setRun_pkt (s : State) (k : Nat) (l : Bytes) (j : Nat) : (s.setRun k l).pkt j = s.pkt j := (rfl)
@[simp] theorem State.setRun_aq (s : State) (k : Nat) (l : Bytes) (j : Nat) : (s.setRun k l).aq j = s.aq j := (rfl)
@[simp] theorem State.setRun_weir (s : State) (k : Nat) (l : Bytes) (j : Nat) : (s.setRun k l).weir j = s.weir j := (rfl)
@[simp] theorem State.setRun_evFull (s : State) (k : Nat) (l : Bytes) : (s.setRun k l).evFull = s.evFull := (rfl)

@[simp] theorem State.putTile_regs (s : State) (k : Nat) (l : Bytes) : (s.putTile k l).regs = s.regs := (rfl)
@[simp] theorem State.putTile_mem (s : State) (k : Nat) (l : Bytes) : (s.putTile k l).mem = s.mem := (rfl)
@[simp] theorem State.putTile_tier (s : State) (k : Nat) (l : Bytes) : (s.putTile k l).tier = s.tier := (rfl)
@[simp] theorem State.putTile_ctl (s : State) (k : Nat) (l : Bytes) : (s.putTile k l).ctl = s.ctl := (rfl)
@[simp] theorem State.putTile_map (s : State) (k : Nat) (l : Bytes) : (s.putTile k l).map = s.map := (rfl)
@[simp] theorem State.putTile_pcs (s : State) (k : Nat) (l : Bytes) : (s.putTile k l).pcs = s.pcs := (rfl)
@[simp] theorem State.putTile_sched (s : State) (k : Nat) (l : Bytes) : (s.putTile k l).sched = s.sched := (rfl)
@[simp] theorem State.putTile_intake (s : State) (k : Nat) (l : Bytes) : (s.putTile k l).intake = s.intake := (rfl)
@[simp] theorem State.putTile_basin (s : State) (k : Nat) (l : Bytes) : (s.putTile k l).basin = s.basin := (rfl)
@[simp] theorem State.putTile_ras (s : State) (k : Nat) (l : Bytes) : (s.putTile k l).ras = s.ras := (rfl)
@[simp] theorem State.putTile_spouts (s : State) (k : Nat) (l : Bytes) : (s.putTile k l).spouts = s.spouts := (rfl)
@[simp] theorem State.putTile_jets (s : State) (k : Nat) (l : Bytes) : (s.putTile k l).jets = s.jets := (rfl)
@[simp] theorem State.putTile_chans (s : State) (k : Nat) (l : Bytes) : (s.putTile k l).chans = s.chans := (rfl)
@[simp] theorem State.putTile_sluice (s : State) (k : Nat) (l : Bytes) : (s.putTile k l).sluice = s.sluice := (rfl)
@[simp] theorem State.putTile_txu (s : State) (k : Nat) (l : Bytes) : (s.putTile k l).txu = s.txu := (rfl)
@[simp] theorem State.putTile_aqd (s : State) (k : Nat) (l : Bytes) : (s.putTile k l).aqd = s.aqd := (rfl)
@[simp] theorem State.putTile_ring (s : State) (k : Nat) (l : Bytes) : (s.putTile k l).ring = s.ring := (rfl)
@[simp] theorem State.putTile_weirs (s : State) (k : Nat) (l : Bytes) : (s.putTile k l).weirs = s.weirs := (rfl)
@[simp] theorem State.putTile_time (s : State) (k : Nat) (l : Bytes) : (s.putTile k l).time = s.time := (rfl)
@[simp] theorem State.putTile_power (s : State) (k : Nat) (l : Bytes) : (s.putTile k l).power = s.power := (rfl)
@[simp] theorem State.putTile_cal (s : State) (k : Nat) (l : Bytes) : (s.putTile k l).cal = s.cal := (rfl)
@[simp] theorem State.putTile_boot (s : State) (k : Nat) (l : Bytes) : (s.putTile k l).boot = s.boot := (rfl)
@[simp] theorem State.putTile_cas (s : State) (k : Nat) (l : Bytes) : (s.putTile k l).cas = s.cas := (rfl)
@[simp] theorem State.putTile_font (s : State) (k : Nat) (l : Bytes) : (s.putTile k l).font = s.font := (rfl)
@[simp] theorem State.putTile_events (s : State) (k : Nat) (l : Bytes) : (s.putTile k l).events = s.events := (rfl)
@[simp] theorem State.putTile_free (s : State) (k : Nat) (l : Bytes) : (s.putTile k l).free = s.free := (rfl)
@[simp] theorem State.putTile_pending (s : State) (k : Nat) (l : Bytes) : (s.putTile k l).pending = s.pending := (rfl)
@[simp] theorem State.putTile_reg (s : State) (k : Nat) (l : Bytes) (q : Reg) (j : Nat) : (s.putTile k l).reg q j = s.reg q j := (rfl)
@[simp] theorem State.putTile_rd (s : State) (k : Nat) (l : Bytes) (q : Field) (j : Nat) : (s.putTile k l).rd q j = s.rd q j := (rfl)
@[simp] theorem State.putTile_flag (s : State) (k : Nat) (l : Bytes) (q : Field) (j : Nat) : (s.putTile k l).flag q j = s.flag q j := (rfl)
@[simp] theorem State.putTile_domSt (s : State) (k : Nat) (l : Bytes) (j : Nat) : (s.putTile k l).domSt j = s.domSt j := (rfl)
@[simp] theorem State.putTile_domOn (s : State) (k : Nat) (l : Bytes) (j : Nat) : (s.putTile k l).domOn j = s.domOn j := (rfl)
@[simp] theorem State.putTile_pcSt (s : State) (k : Nat) (l : Bytes) (j : Nat) : (s.putTile k l).pcSt j = s.pcSt j := (rfl)
@[simp] theorem State.putTile_spSt (s : State) (k : Nat) (l : Bytes) (j : Nat) : (s.putTile k l).spSt j = s.spSt j := (rfl)
@[simp] theorem State.putTile_phase (s : State) (k : Nat) (l : Bytes) : (s.putTile k l).phase = s.phase := (rfl)
@[simp] theorem State.putTile_wall (s : State) (k : Nat) (l : Bytes) : (s.putTile k l).wall = s.wall := (rfl)
@[simp] theorem State.putTile_pc (s : State) (k : Nat) (l : Bytes) (j : Nat) : (s.putTile k l).pc j = s.pc j := (rfl)
@[simp] theorem State.putTile_sp (s : State) (k : Nat) (l : Bytes) (j : Nat) : (s.putTile k l).sp j = s.sp j := (rfl)
@[simp] theorem State.putTile_jet (s : State) (k : Nat) (l : Bytes) (j : Nat) : (s.putTile k l).jet j = s.jet j := (rfl)
@[simp] theorem State.putTile_chan (s : State) (k : Nat) (l : Bytes) (j : Nat) : (s.putTile k l).chan j = s.chan j := (rfl)
@[simp] theorem State.putTile_slot (s : State) (k : Nat) (l : Bytes) (j : Nat) : (s.putTile k l).slot j = s.slot j := (rfl)
@[simp] theorem State.putTile_pkt (s : State) (k : Nat) (l : Bytes) (j : Nat) : (s.putTile k l).pkt j = s.pkt j := (rfl)
@[simp] theorem State.putTile_aq (s : State) (k : Nat) (l : Bytes) (j : Nat) : (s.putTile k l).aq j = s.aq j := (rfl)
@[simp] theorem State.putTile_weir (s : State) (k : Nat) (l : Bytes) (j : Nat) : (s.putTile k l).weir j = s.weir j := (rfl)
@[simp] theorem State.putTile_memB (s : State) (k : Nat) (l : Bytes) (j : Nat) : (s.putTile k l).memB j = s.memB j := (rfl)
@[simp] theorem State.putTile_evFull (s : State) (k : Nat) (l : Bytes) : (s.putTile k l).evFull = s.evFull := (rfl)

/-! ## Parts after their own update -/

@[simp] theorem State.sp_setSp_same (s : State) (n : Nat) (x : Spout) : (s.setSp n x).sp n = x := Store.get_put_same ..
theorem State.sp_setSp_ne (s : State) {n m : Nat} (x : Spout) (h : m ≠ n) : (s.setSp n x).sp m = s.sp m := Store.get_put_ne _ _ _ _ h
@[simp] theorem State.sp_updSp_same (s : State) (n : Nat) (f : Spout → Spout) : (s.updSp n f).sp n = f (s.sp n) := Store.get_put_same ..
theorem State.sp_updSp_ne (s : State) {n m : Nat} (f : Spout → Spout) (h : m ≠ n) : (s.updSp n f).sp m = s.sp m := Store.get_put_ne _ _ _ _ h
@[simp] theorem State.pc_updPc_same (s : State) (n : Nat) (f : PcState → PcState) : (s.updPc n f).pc n = f (s.pc n) := Store.get_put_same ..
theorem State.pc_updPc_ne (s : State) {n m : Nat} (f : PcState → PcState) (h : m ≠ n) : (s.updPc n f).pc m = s.pc m := Store.get_put_ne _ _ _ _ h
@[simp] theorem State.jet_updJet_same (s : State) (n : Nat) (f : JetState → JetState) : (s.updJet n f).jet n = f (s.jet n) := Store.get_put_same ..
@[simp] theorem State.chan_updChan_same (s : State) (n : Nat) (f : ChanState → ChanState) : (s.updChan n f).chan n = f (s.chan n) := Store.get_put_same ..
theorem State.chan_updChan_ne (s : State) {n m : Nat} (f : ChanState → ChanState) (h : m ≠ n) : (s.updChan n f).chan m = s.chan m :=
  Store.get_put_ne _ _ _ _ h
@[simp] theorem State.slot_updSlot_same (s : State) (n : Nat) (f : TxSlot → TxSlot) : (s.updSlot n f).slot n = f (s.slot n) := Store.get_put_same ..
theorem State.slot_updSlot_ne (s : State) {n m : Nat} (f : TxSlot → TxSlot) (h : m ≠ n) : (s.updSlot n f).slot m = s.slot m :=
  Store.get_put_ne _ _ _ _ h
@[simp] theorem State.pkt_updPkt_same (s : State) (n : Nat) (f : XRec → XRec) : (s.updPkt n f).pkt n = f (s.pkt n) := Store.get_put_same ..
@[simp] theorem State.aq_updAq_same (s : State) (n : Nat) (f : AqPort → AqPort) : (s.updAq n f).aq n = f (s.aq n) := Store.get_put_same ..
theorem State.aq_updAq_ne (s : State) {n m : Nat} (f : AqPort → AqPort) (h : m ≠ n) : (s.updAq n f).aq m = s.aq m := Store.get_put_ne _ _ _ _ h
@[simp] theorem State.weir_updWeir_same (s : State) (n : Nat) (f : Weir → Weir) : (s.updWeir n f).weir n = f (s.weir n) := Store.get_put_same ..
theorem State.weir_updWeir_ne (s : State) {n m : Nat} (f : Weir → Weir) (h : m ≠ n) : (s.updWeir n f).weir m = s.weir m := Store.get_put_ne _ _ _ _ h
@[simp] theorem State.ok_ctl (s : State) : s.ok.ctl = { decerr := false, data := 0 } := (rfl)
@[simp] theorem State.decerr_ctl (s : State) : s.decerr.ctl = { decerr := true, data := 0 } := (rfl)
@[simp] theorem State.answer_ctl (s : State) (v : Nat) : (s.answer v).ctl = { decerr := false, data := BitVec.ofNat 64 v } := (rfl)

/-! ## Registers -/

/-- Every field lies within the 64 bits of its register. -/
theorem Reg.fields_within (r : Reg) : ∀ f ∈ r.fields, f.lo ≤ f.hi ∧ f.hi < 64 := by cases r <;> decide

/-- A reset value is a register value. -/
theorem Reg.resetVal_lt (r : Reg) (i : Nat) : r.resetVal i < 2 ^ 64 := by
  unfold Reg.resetVal
  have go : ∀ (l : List Field) (a : Nat), (∀ f ∈ l, f.lo ≤ f.hi ∧ f.hi < 64) → a < 2 ^ 64 →
      l.foldl (fun a f => setBits a f.hi f.lo (f.resetAt i)) a < 2 ^ 64 := by
    intro l
    induction l with
    | nil => intro a _ h; exact h
    | cons f l ih =>
      intro a hl h
      have hf := hl f (List.mem_cons_self ..)
      exact ih _ (fun g hg => hl g (List.mem_cons_of_mem _ hg)) (setBits_lt _ _ _ _ _ hf.1 hf.2 h)
  exact go _ _ (Reg.fields_within r) (by decide)

theorem State.reg_lt (s : State) (r : Reg) (i : Nat) : s.reg r i < 2 ^ 64 := by
  unfold State.reg
  split
  · exact BitVec.isLt _
  · exact Reg.resetVal_lt r i

/-- A register reads as what was written to it. -/
theorem State.reg_setReg_same (s : State) (r : Reg) (i v : Nat) (h : v < 2 ^ 64) : (s.setReg r i v).reg r i = v := by
  unfold State.reg State.setReg Store.put
  by_cases a : BitVec.ofNat 64 v = BitVec.ofNat 64 (r.resetVal i)
  · have b := congrArg BitVec.toNat a
    simp only [BitVec.toNat_ofNat, Nat.mod_eq_of_lt h, Nat.mod_eq_of_lt (Reg.resetVal_lt r i)] at b
    simp [a, b]
  · simp [a, Nat.mod_eq_of_lt h] <;> omega

/-- A register at another offset reads as before. -/
theorem State.reg_setReg_ne (s : State) (r q : Reg) (i j v : Nat) (h : q.addr j ≠ r.addr i) : (s.setReg r i v).reg q j = s.reg q j := by
  unfold State.reg State.setReg
  simp only [Store.find_put_ne _ _ _ h]

/-- Writing a field leaves every register at another address. -/
theorem State.reg_wr_ne (s : State) (f : Field) (r : Reg) (i j v : Nat) (h : r.addr j ≠ f.reg.addr i) : (s.wr f i v).reg r j = s.reg r j :=
  State.reg_setReg_ne _ _ _ _ _ _ h

/-- A field reads as what was written to it. -/
theorem State.rd_wr_same (s : State) (f : Field) (i v : Nat) (h : f.lo ≤ f.hi ∧ f.hi < 64) : (s.wr f i v).rd f i = v % 2 ^ (f.hi + 1 - f.lo) := by
  unfold State.rd State.wr
  rw [State.reg_setReg_same _ _ _ _ (setBits_lt _ _ _ _ _ h.1 h.2 (s.reg_lt ..)), bits_setBits_same _ _ _ _ h.1]

/-- Another field of the same register reads as before. -/
theorem State.rd_wr_apart (s : State) (f g : Field) (i v : Nat) (h : f.lo ≤ f.hi ∧ f.hi < 64) (hr : g.reg = f.reg) (d : g.hi < f.lo ∨ f.hi < g.lo) :
    (s.wr f i v).rd g i = s.rd g i := by
  unfold State.rd State.wr
  rw [hr, State.reg_setReg_same _ _ _ _ (setBits_lt _ _ _ _ _ h.1 h.2 (s.reg_lt ..)), bits_setBits_apart _ _ _ _ _ _ h.1 d]

/-- A field of a register at another offset reads as before. -/
theorem State.rd_wr_ne (s : State) (f g : Field) (i j v : Nat) (h : g.reg.addr j ≠ f.reg.addr i) : (s.wr f i v).rd g j = s.rd g j := by
  unfold State.rd State.wr
  rw [State.reg_setReg_ne _ _ _ _ _ _ h]

/-! ## The memory's canonical form -/

/-- A run of bytes written keeps the canonical form of the memory. -/
theorem putRun_wf (m : Store Byte) (k : Nat) (l : Bytes) (h : Memory.wf m = true) : Memory.wf (putRun m k l) = true := by
  induction l generalizing m k with
  | nil => exact h
  | cons b l ih => exact ih _ _ (Store.canon_put (fun _ => 0#8) m k b h)

/-- The write of a run of stack memory keeps the canonical form. -/
theorem State.setRun_wf (s : State) (k : Nat) (l : Bytes) (h : Memory.wf s.mem = true) : Memory.wf (s.setRun k l).mem = true := putRun_wf _ _ _ h

/-- Dropping the bytes of a region (a map that loses its contents, a pseudo-channel without a map) keeps the canonical form. -/
theorem Memory.wf_filter (m : Store Byte) (p : Nat × Byte → Bool) (h : Memory.wf m = true) : Memory.wf (m.filter p) = true := Store.canon_filter _ _ _ h

/-- The write of tile bytes keeps the canonical form. -/
theorem State.putTile_wf (s : State) (a : Nat) (d : Bytes) (h : Memory.wf s.tiles = true) : Memory.wf (s.putTile a d).tiles = true := by
  have go : ∀ (l : List Nat) (m : Store Byte), Memory.wf m = true →
      Memory.wf (l.foldl (fun m k => Store.put 0 m (a + k) (d.getD k 0#8)) m) = true := by
    intro l
    induction l with
    | nil => intro m h; exact h
    | cons k l ih => intro m h; exact ih _ (Store.canon_put (fun _ => 0#8) m (a + k) _ h)
  exact go _ _ h

/-- The reset state's memory is in canonical form. -/
theorem State.reset_mem_wf : Memory.wf State.reset.mem = true := (rfl)

/-! ## Stack memory read back -/

theorem putRun_get_out (m : Store Byte) (k j : Nat) (l : Bytes) (h : j < k ∨ k + l.length ≤ j) : Store.get 0#8 (putRun m k l) j = Store.get 0#8 m j := by
  induction l generalizing m k with
  | nil => rfl
  | cons b l ih =>
    simp only [List.length_cons] at h
    rw [putRun, ih _ _ (by omega), Store.get_put_ne _ _ _ _ (by omega)]

theorem putRun_get_in (m : Store Byte) (k i : Nat) (l : Bytes) (h : i < l.length) : Store.get 0#8 (putRun m k l) (k + i) = l.getD i 0#8 := by
  induction l generalizing m k i with
  | nil => simp at h
  | cons b l ih =>
    rw [putRun]
    cases i with
    | zero => rw [putRun_get_out _ _ _ _ (by omega)]; exact Store.get_put_same ..
    | succ i =>
      have e : k + (i + 1) = (k + 1) + i := by omega
      rw [e, ih _ _ _ (by simpa using h)]; rfl

end Sys2Proof.Machine
end

