-- ==== Sys2Proof/Laws/Spout.lean ====
section
/-! SUPPORT. Sys2Proof/Laws/Spout.lean: the shared operations of a spout's instruction: what `issue` does where the instruction executes normally, what
`done` and `fault` leave. -/
namespace Sys2Proof.Machine

@[simp] theorem State.noSpouts_setSp (s : State) (n : Nat) (x : Spout) : (s.setSp n x).noSpouts = s.noSpouts := (rfl)
@[simp] theorem State.noSpouts_updSp (s : State) (n : Nat) (f : Spout → Spout) : (s.updSp n f).noSpouts = s.noSpouts := (rfl)

/-- A spout without a data instruction in progress has none to end. -/
theorem State.endData_idle (s : State) (n : Nat) (h : (s.sp n).prog = none) : s.endData n = s := by
  unfold State.endData; simp only [h]

/-- A spout that is running can issue. -/
theorem State.issuable_running (s : State) (n : Nat) (b : Bool) (r : s.running n) : s.issuable n b = true := by
  obtain ⟨a1, a2, a3, a4, _, _, a7, a8, a9, a10⟩ := r
  unfold State.issuable
  by_cases k : n < 32
  · simp [a1, a2, a3, a4, a7, a8, a9, a10 k]
  · simp [a1, a2, a3, a4, a7, a8, a9, k]

/-- An instruction that executes normally runs its body. -/
theorem State.issue_runs (s : State) (h : Hdr) (i : Instr) (c : Cls) (u : Use) (skip body : State → State) (r : s.issues h c u) :
    s.issue h i c u skip body = body (s.updSp h.sp.val fun y => { y with waiting := .none }) := by
  obtain ⟨run, hw, b, c1, d, e, f, g⟩ := r
  have iss := s.issuable_running h.sp.val ((s.sp h.sp.val).waiting == .deps i) run
  have fin := s.endData_idle h.sp.val run.2.1
  generalize hs1 : s.updSp h.sp.val (fun y => { y with waiting := .none }) = s1
  have x : s1.sp h.sp.val = s.sp h.sp.val := by
    rw [← hs1, State.sp_updSp_same, ← run.2.2.2.1]
  have p : ¬ ((c = .prv) ∧ (s.sp h.sp.val).cmd.priv ≠ 2) := fun ⟨q, k⟩ => k (b q)
  unfold State.issue
  simp only [fin, iss, hs1, x, hw, c1, e, f, g, d, Bool.not_true, Bool.false_eq_true, if_false, Bool.and_eq_true, decide_eq_true_eq,
    bne_iff_ne, p]

/-! ## What changes only one spout -/

/-- The state that an instruction's body starts from. -/
theorem onlySpout.start {s : State} {h : Hdr} {c : Cls} {u : Use} (r : s.issues h c u) :
    onlySpout s (s.updSp h.sp.val fun y => { y with waiting := .none }) h.sp.val (s.sp h.sp.val) := by
  refine ⟨?_, fun m hm => State.sp_updSp_ne _ _ hm, rfl⟩
  rw [State.sp_updSp_same, ← r.1.2.2.2.1]

/-- Another change of the same spout. -/
theorem onlySpout.upd {s t : State} {n : Nat} {y : Spout} (o : onlySpout s t n y) (f : Spout → Spout) : onlySpout s (t.updSp n f) n (f y) := by
  obtain ⟨a, b, c⟩ := o
  refine ⟨by rw [State.sp_updSp_same, a], fun m hm => by rw [State.sp_updSp_ne _ _ hm, b m hm], ?_⟩
  rw [State.noSpouts_updSp, c]

/-- A boundary where neither a stop nor an abort waits. -/
theorem State.boundary_calm (s : State) (n : Nat) (hs : (s.sp n).stopReq = none) (ha : (s.sp n).txAbort = none) :
    s.boundary n = s.setSp n (s.sp n) := by
  unfold State.boundary Spout.takePending
  simp only [hs, ha]

/-- The spout continues at an address. -/
theorem onlySpout.goto {s t : State} {n : Nat} {y : Spout} (o : onlySpout s t n y) (hs : y.stopReq = none) (ha : y.txAbort = none) (a : Nat) :
    onlySpout s (t.goto n a) n { y with pc := a % 2 ^ 48, seq := y.seq + 1 } := by
  have e := (o.upd fun x => { x with pc := a % 2 ^ 48, seq := x.seq + 1 })
  unfold State.goto
  rw [State.boundary_calm _ _ (by rw [e.1]; exact hs) (by rw [e.1]; exact ha)]
  refine ⟨by rw [State.sp_setSp_same, e.1], fun m hm => by rw [State.sp_setSp_ne _ _ hm, e.2.1 m hm], ?_⟩
  rw [State.noSpouts_setSp, e.2.2]

/-- The instruction completes: the PC moves on. -/
theorem onlySpout.done {s t : State} {h : Hdr} {y : Spout} (o : onlySpout s t h.sp.val y) (hs : y.stopReq = none) (ha : y.txAbort = none) :
    onlySpout s (t.done h) h.sp.val (y.past h) := by
  have e := o.goto hs ha (y.nextPc h)
  unfold State.done
  rw [o.1]
  have k : y.nextPc h % 2 ^ 48 = after h y.pc := by unfold Spout.nextPc after; rw [Nat.mod_mod]
  unfold Spout.past; rw [← k]; exact e

@[simp] theorem Spout.setSel_stopReq (x : Spout) (n v : Nat) : (x.setSel n v).stopReq = x.stopReq := by
  unfold Spout.setSel Spout.setG; split
  · rfl
  · split <;> rfl
@[simp] theorem Spout.setSel_txAbort (x : Spout) (n v : Nat) : (x.setSel n v).txAbort = x.txAbort := by
  unfold Spout.setSel Spout.setG; split
  · rfl
  · split <;> rfl
@[simp] theorem Spout.setSel_pc (x : Spout) (n v : Nat) : (x.setSel n v).pc = x.pc := by
  unfold Spout.setSel Spout.setG; split
  · rfl
  · split <;> rfl
@[simp] theorem Spout.setP_stopReq (x : Spout) (n : Nat) (b : Bool) : (x.setP n b).stopReq = x.stopReq := by unfold Spout.setP; split <;> rfl
@[simp] theorem Spout.setP_txAbort (x : Spout) (n : Nat) (b : Bool) : (x.setP n b).txAbort = x.txAbort := by unfold Spout.setP; split <;> rfl
@[simp] theorem Spout.setP_pc (x : Spout) (n : Nat) (b : Bool) : (x.setP n b).pc = x.pc := by unfold Spout.setP; split <;> rfl
@[simp] theorem Spout.setP_loops (x : Spout) (n : Nat) (b : Bool) : (x.setP n b).loops = x.loops := by unfold Spout.setP; split <;> rfl

/-- The value of a sign-extended field as the model computes it is the bit vector's. -/
theorem sx_toInt {n : Nat} (hn : 0 < n) (v : BitVec n) : sx n v.toNat = v.toInt := by
  unfold sx
  have h := v.isLt
  simp only [Nat.mod_eq_of_lt h]
  rw [BitVec.toInt_eq_toNat_cond]
  have e : 2 ^ n = 2 * 2 ^ (n - 1) := by rw [← Nat.pow_succ']; congr 1; omega
  split <;> split <;> omega

theorem wrapInt_sx {n : Nat} (hn : 0 < n) (v : BitVec n) : wrapInt 64 (sx n v.toNat) = (v.signExtend 64).toNat := by
  rw [sx_toInt hn, BitVec.signExtend]; unfold wrapInt; rw [BitVec.toNat_ofInt]

end Sys2Proof.Machine
end

