-- ==== Sys2Proof/Laws/Data.lean ====
section
/-! SUPPORT. Sys2Proof/Laws/Data.lean: how a data instruction ends: its progress, its events and its registers. -/
namespace Sys2Proof.Machine

@[simp] theorem State.setFlags_sp (s : State) (n f m : Nat) : (s.setFlags n f).sp m = s.sp m := by
  unfold State.setFlags; split
  · rfl
  · rfl
@[simp] theorem State.countMacs_sp (s : State) (e n m : Nat) : (s.countMacs e n).sp m = s.sp m := by
  unfold State.countMacs; split
  · rfl
  · simp [State.bump]

/-- An instruction that sends no MOV_HALF sends none. -/
theorem State.noteHalf_calm (s : State) (n : Nat) (q : InProg) (h : (s.sp n).prog = some q) (c : q.half = false) : s.noteHalf n = s := by
  unfold State.noteHalf; simp only [h, c, Bool.false_and, Bool.false_eq_true, if_false]

/-- Only a channel has progress registers. -/
theorem State.noteProgress_jet (s : State) (n : Nat) (h : 32 ≤ n) : s.noteProgress n = s := by
  unfold State.noteProgress; dsimp only; split
  · rfl
  · simp only [h, if_true]

/-- An instruction that is over and sends no event of its own ends once every write of it has landed. -/
theorem State.endData_over (s : State) (n : Nat) (q : InProg) (h : (s.sp n).prog = some q) (o : q.closed = some none) (hh : q.half = false)
    (hf : q.full = false) (l : s.landed n) : s.endData n = s.ended n q := by
  have k : ((s.updSp n fun y => { y with gen := BitVec.ofNat 64 q.gen }).setFlags n q.flags).noteHalf n =
      (s.updSp n fun y => { y with gen := BitVec.ofNat 64 q.gen }).setFlags n q.flags :=
    State.noteHalf_calm _ _ q (by rw [State.setFlags_sp, State.sp_updSp_same]; exact h) hh
  have m : ((s.sp n).outs.any fun o => o.short.isSome) = false := l
  unfold State.endData State.mayEnd State.ended
  simp only [h, o, m, hh, hf, k, Option.isNone_none, Bool.false_and, Bool.or_self, Bool.not_false, Bool.not_true, Bool.and_false,
    Bool.false_eq_true, if_false]

/-- An instruction whose work lacks nothing and meets no fault, with its writes accepted, completes. -/
theorem State.contWork_done (s : State) (n : Nat) (w : Work) (p : InProg) (t : State) (hn : 32 ≤ n) (hh : p.half = false) (hf : p.full = false)
    (hb : (s.sp n).prog = some p) (ho : p.closed = none) (hq : ((s.sp n).outs.any Out.isBulk) = false) (d : s.workDone n w p t) :
    s.contWork n w = t := by
  obtain ⟨d1, d2, d3, d4, d5⟩ := d
  unfold State.contWork
  simp only [hb, ho, hq, d1, d2, d3, List.isEmpty_nil, Option.isSome_none, Bool.false_eq_true, if_false, Option.isNone_none, if_true, Bool.not_true]
  unfold State.stopData State.landedAt
  simp only
  rw [State.noteProgress_jet _ _ hn, d5]
  refine State.endData_over _ _ _ (by rw [State.sp_updSp_same]) rfl hh hf ?_
  unfold State.landed at *
  rw [State.sp_updSp_same, State.countMacs_sp]
  exact d4

end Sys2Proof.Machine
end

