-- ==== Sys2Proof/Laws/Fault.lean ====
section
/-! SUPPORT. Sys2Proof/Laws/Fault.lean: what a fault, the end of a command and giving up units leave. -/
namespace Sys2Proof.Machine

@[simp] theorem State.recordFault_sp (s : State) (n c f a p : Nat) (i : Bool) (m : Nat) : (s.recordFault n c f a p i).sp m = s.sp m := by
  unfold State.recordFault; simp only [State.wrB, State.wr_sp]
@[simp] theorem State.recordFault_mem (s : State) (n c f a p : Nat) (i : Bool) : (s.recordFault n c f a p i).mem = s.mem := by
  unfold State.recordFault; simp only [State.wrB, State.wr_mem]
@[simp] theorem State.recordFault_tiles (s : State) (n c f a p : Nat) (i : Bool) : (s.recordFault n c f a p i).tiles = s.tiles := by
  unfold State.recordFault; simp only [State.wrB, State.wr_tiles]

/-- A fault outside a transaction: it is recorded, and the command ends. -/
theorem State.fault_plain (s : State) (n c a p : Nat) (h : (s.sp n).tx = none) :
    s.fault n c a p = (s.recordFault n c (s.sp n).pc a p false).ending n c := by
  unfold State.fault State.txStop; simp only [State.recordFault_sp, h]

@[simp] theorem State.dropCalls_sp (s : State) (n m : Nat) : (s.dropCalls n).sp m = s.sp m := (rfl)
@[simp] theorem State.dropCalls_mem (s : State) (n : Nat) : (s.dropCalls n).mem = s.mem := (rfl)
@[simp] theorem State.dropCalls_tiles (s : State) (n : Nat) : (s.dropCalls n).tiles = s.tiles := (rfl)
@[simp] theorem State.dropCalls_reg (s : State) (n : Nat) (r : Reg) (i : Nat) : (s.dropCalls n).reg r i = s.reg r i := (rfl)

@[simp] theorem State.releaseUnits_sp (s : State) (n m : Nat) : (s.releaseUnits n).sp m = s.sp m := by
  unfold State.releaseUnits; dsimp only; split <;> split <;> rfl
@[simp] theorem State.releaseUnits_mem (s : State) (n : Nat) : (s.releaseUnits n).mem = s.mem := by
  unfold State.releaseUnits; dsimp only; split <;> split <;> rfl
@[simp] theorem State.releaseUnits_tiles (s : State) (n : Nat) : (s.releaseUnits n).tiles = s.tiles := by
  unfold State.releaseUnits; dsimp only; split <;> split <;> rfl

/-- Giving up units changes no register but SLC_STAT. -/
theorem State.releaseUnits_reg (s : State) (n i : Nat) (r : Reg) (h : n < 32 → r.addr i ≠ Reg.SLC_STAT.addr n) :
    (s.releaseUnits n).reg r i = s.reg r i := by
  unfold State.releaseUnits; dsimp only
  by_cases k : n < 32
  · have q := h k
    simp only [k, if_true]
    rw [State.reg_wr_ne _ F.SLC_STAT_SLOT _ _ _ _ q, State.reg_wr_ne _ F.SLC_STAT_STAGED _ _ _ _ q, State.reg_wr_ne _ F.SLC_STAT_STAGEWAIT _ _ _ _ q]
    split <;> rfl
  · simp only [k, if_false]
    split <;> rfl

@[simp] theorem State.ending_mem (s : State) (n c : Nat) : (s.ending n c).mem = s.mem := by unfold State.ending; simp
@[simp] theorem State.ending_tiles (s : State) (n c : Nat) : (s.ending n c).tiles = s.tiles := by unfold State.ending; simp
theorem State.ending_sp_ne (s : State) {n m : Nat} (c : Nat) (h : m ≠ n) : (s.ending n c).sp m = s.sp m := by
  unfold State.ending; rw [State.sp_updSp_ne _ _ h]; simp
@[simp] theorem State.ending_sp_same (s : State) (n c : Nat) :
    (s.ending n c).sp n = { s.sp n with finish := some c, waiting := .none, prog := none, stopReq := none, fences := [],
                                        outs := (s.sp n).outs.filter fun o => o.write } := by
  unfold State.ending; rw [State.sp_updSp_same]; simp
theorem State.ending_reg (s : State) (n c i : Nat) (r : Reg) (h : n < 32 → r.addr i ≠ Reg.SLC_STAT.addr n) : (s.ending n c).reg r i = s.reg r i := by
  unfold State.ending; rw [State.updSp_reg, State.releaseUnits_reg _ _ _ _ h]; simp

end Sys2Proof.Machine
end

