-- ==== Sys2Proof/Laws/Memory.lean ====
section
/-! SUPPORT. Sys2Proof/Laws/Memory.lean: the operations that drop memory, and the tier store's write, keep the canonical form. -/
namespace Sys2Proof.Machine

/-- A pseudo-channel whose contents a test overwrote leaves the memory in canonical form. -/
theorem State.wipePc_wf (s : State) (pc : Nat) (h : Memory.wf s.mem = true) : Memory.wf (s.wipePc pc).mem = true :=
  Memory.wf_filter _ _ h

/-- The tile stores and the memory of a unit that loses its power stay in canonical form: they list nothing. -/
theorem Memory.wf_nil : Memory.wf [] = true := (rfl)

/-- A write of a word of the tier store keeps its canonical form. -/
theorem tier_put_canon (m : Store (BitVec 64)) (off : Nat) (v : BitVec 64) (h : Store.canon (fun _ => 0#64) m = true) :
    Store.canon (fun _ => 0#64) (Store.put 0#64 m off v) = true :=
  Store.canon_put (fun _ => 0#64) m off v h

end Sys2Proof.Machine
end

