-- ==== Sys2Proof/Laws/PerInstr.lean ====
section
/-! SUPPORT. Sys2Proof/Laws/PerInstr.lean: the family RoundTrip, one lemma per command: what the word of a well-formed instruction decodes to. -/
namespace Sys2Proof.Laws

/-- Bits that hold a field's value. -/
theorem fBits_eq {n : Nat} (w hi lo : Nat) (v : BitVec n) (h : w / 2 ^ lo % 2 ^ (hi + 1 - lo) = v.toNat) : fBits w hi lo = v := by
  unfold fBits; rw [h]; simp

/-- A bit that holds a flag. -/
theorem fBool_eq (w k : Nat) (b : Bool) (h : w / 2 ^ k % 2 = bNat b) : fBool w k = b := by
  unfold fBool; rw [h]; cases b <;> rfl

theorem bNat_lt (b : Bool) : bNat b < 2 := by cases b <;> decide

/-- Operand bits: within bits 47 to 1. -/
def operandBits (e : Nat) : Prop := e < 2 ^ 48 ∧ e % 2 = 0

theorem head_maj (maj min : Nat) (h : Hdr) (e : Nat) (h1 : maj < 64) (h2 : min < 64) (he : operandBits e) :
    (encodeHead maj min h + e) / 2 ^ 58 % 64 = maj := by
  have e13 := bNat_lt h.x; have e14 := h.ps.isLt; obtain ⟨a, b⟩ := he
  unfold encodeHead; omega

theorem head_min (maj min : Nat) (h : Hdr) (e : Nat) (h2 : min < 64) (he : operandBits e) :
    (encodeHead maj min h + e) / 2 ^ 48 % 64 = min := by
  have e13 := bNat_lt h.x; have e14 := h.ps.isLt; obtain ⟨a, b⟩ := he
  unfold encodeHead; omega

/-- The header reads back with the extension word it carries. -/
theorem head_hdr (maj min : Nat) (h : Hdr) (e : Nat) (hw : h.wf = true) (h2 : min < 64) (he : operandBits e) :
    decodeHdr h.sp (encodeHead maj min h + e) h.ext.toNat = h := by
  have e13 := bNat_lt h.x; have e14 := h.ps.isLt; obtain ⟨a, b⟩ := he
  have k1 : fBits (encodeHead maj min h + e) 57 54 = h.ps := by apply fBits_eq; unfold encodeHead; omega
  have k2 : fBool (encodeHead maj min h + e) 0 = h.x := by apply fBool_eq; unfold encodeHead; omega
  unfold decodeHdr
  rw [k1, k2]
  cases h with
  | mk sp ps x ext =>
    simp only [Hdr.wf, Bool.or_eq_true, beq_iff_eq] at hw
    simp only [Hdr.mk.injEq, true_and]
    cases x with
    | true => simp
    | false => simp at hw; simp [hw]

theorem operandBits_D (f : FormD) : operandBits (encodeD f) := by
  have e1 := f.od.isLt; have e2 := f.dd.isLt; have e3 := f.oa.isLt; have e4 := f.da.isLt; have e5 := f.ob.isLt; have e6 := f.db.isLt
  have e7 := f.rm.isLt; have e8 := bNat_lt f.sat; have e9 := f.ac.isLt; have e10 := f.gx.isLt; have e11 := f.px.isLt; have e12 := f.imm.isLt
  unfold operandBits encodeD; omega

theorem decodeD_encode (maj min : Nat) (h : Hdr) (f : FormD) : decodeD (encodeHead maj min h + encodeD f) = f := by
  have e1 := f.od.isLt; have e2 := f.dd.isLt; have e3 := f.oa.isLt; have e4 := f.da.isLt; have e5 := f.ob.isLt; have e6 := f.db.isLt
  have e7 := f.rm.isLt; have e8 := bNat_lt f.sat; have e9 := f.ac.isLt; have e10 := f.gx.isLt; have e11 := f.px.isLt; have e12 := f.imm.isLt
  have e13 := bNat_lt h.x; have e14 := h.ps.isLt
  cases f
  simp only [decodeD, FormD.mk.injEq]
  simp only [encodeHead, encodeD] at *
  refine ⟨?_, ?_, ?_, ?_, ?_, ?_, ?_, ?_, ?_, ?_, ?_, ?_⟩ <;> first | apply fBits_eq | apply fBool_eq
  all_goals omega

theorem operandBits_S (f : FormS) : operandBits (encodeS f) := by
  have e1 := f.gd.isLt; have e2 := f.ga.isLt; have e3 := f.gb.isLt; have e4 := bNat_lt f.immb; have e5 := f.imm.isLt; have e6 := f.pd.isLt
  have e7 := bNat_lt f.pw; have e8 := f.rm.isLt
  unfold operandBits encodeS; omega

theorem decodeS_encode (maj min : Nat) (h : Hdr) (f : FormS) : decodeS (encodeHead maj min h + encodeS f) = f := by
  have e1 := f.gd.isLt; have e2 := f.ga.isLt; have e3 := f.gb.isLt; have e4 := bNat_lt f.immb; have e5 := f.imm.isLt; have e6 := f.pd.isLt
  have e7 := bNat_lt f.pw; have e8 := f.rm.isLt; have e13 := bNat_lt h.x; have e14 := h.ps.isLt
  cases f
  simp only [decodeS, FormS.mk.injEq]
  simp only [encodeHead, encodeS] at *
  refine ⟨?_, ?_, ?_, ?_, ?_, ?_, ?_, ?_⟩ <;> first | apply fBits_eq | apply fBool_eq
  all_goals omega

theorem operandBits_Brc (f : BrcF) : operandBits (encodeBrc f) := by
  have e1 := f.off.isLt; have e2 := f.ga.isLt; have e3 := f.gb.isLt; have e4 := f.cond.isLt; have e5 := bNat_lt f.immb; have e6 := f.imm.isLt
  have e7 := f.pd.isLt; have e8 := bNat_lt f.pw
  unfold operandBits encodeBrc; omega

theorem decodeBrc_encode (maj min : Nat) (h : Hdr) (f : BrcF) : decodeBrc (encodeHead maj min h + encodeBrc f) = f := by
  have e1 := f.off.isLt; have e2 := f.ga.isLt; have e3 := f.gb.isLt; have e4 := f.cond.isLt; have e5 := bNat_lt f.immb; have e6 := f.imm.isLt
  have e7 := f.pd.isLt; have e8 := bNat_lt f.pw; have e13 := bNat_lt h.x; have e14 := h.ps.isLt
  cases f
  simp only [decodeBrc, BrcF.mk.injEq]
  simp only [encodeHead, encodeBrc] at *
  refine ⟨?_, ?_, ?_, ?_, ?_, ?_, ?_, ?_⟩ <;> first | apply fBits_eq | apply fBool_eq
  all_goals omega

theorem operandBits_Wait (f : WaitF) : operandBits (encodeWait f) := by
  have e1 := f.aa.isLt; have e2 := f.disp.isLt; have e3 := f.src.isLt; have e4 := f.cond.isLt; have e5 := f.gv.isLt; have e6 := f.pd.isLt
  have e7 := bNat_lt f.pw
  unfold operandBits encodeWait; omega

theorem decodeWait_encode (maj min : Nat) (h : Hdr) (f : WaitF) : decodeWait (encodeHead maj min h + encodeWait f) = f := by
  have e1 := f.aa.isLt; have e2 := f.disp.isLt; have e3 := f.src.isLt; have e4 := f.cond.isLt; have e5 := f.gv.isLt; have e6 := f.pd.isLt
  have e7 := bNat_lt f.pw; have e13 := bNat_lt h.x; have e14 := h.ps.isLt
  cases f
  simp only [decodeWait, WaitF.mk.injEq]
  simp only [encodeHead, encodeWait] at *
  refine ⟨?_, ?_, ?_, ?_, ?_, ?_, ?_⟩ <;> first | apply fBits_eq | apply fBool_eq
  all_goals omega

theorem operandBits_Signal (f : SignalF) : operandBits (encodeSignal f) := by
  have e1 := f.aa.isLt; have e2 := f.disp.isLt; have e3 := f.op.isLt; have e4 := f.gv.isLt; have e5 := bNat_lt f.evt; have e6 := bNat_lt f.ret
  have e7 := f.gr.isLt
  unfold operandBits encodeSignal; omega

theorem decodeSignal_encode (maj min : Nat) (h : Hdr) (f : SignalF) : decodeSignal (encodeHead maj min h + encodeSignal f) = f := by
  have e1 := f.aa.isLt; have e2 := f.disp.isLt; have e3 := f.op.isLt; have e4 := f.gv.isLt; have e5 := bNat_lt f.evt; have e6 := bNat_lt f.ret
  have e7 := f.gr.isLt; have e13 := bNat_lt h.x; have e14 := h.ps.isLt
  cases f
  simp only [decodeSignal, SignalF.mk.injEq]
  simp only [encodeHead, encodeSignal] at *
  refine ⟨?_, ?_, ?_, ?_, ?_, ?_, ?_⟩ <;> first | apply fBits_eq | apply fBool_eq
  all_goals omega

namespace RoundTrip

/-- The word that a well-formed instruction's encoding gives decodes to it, for its spout and its extension word. -/
def Statement (i : Instr) : Prop := i.wf = true → ∀ w, encodeInsn i = some w → ∃ sp ext, decodeInsn sp w ext = some i

/-- A command that is no instruction has no word. -/
theorem of_none {i : Instr} (h : encodeInsn i = none) : Statement i := by
  intro _ w e; rw [h] at e; cases e


theorem registerWrite x0 x1 x2 x3 : Statement (.registerWrite x0 x1 x2 x3) := of_none rfl

theorem powerOnReset x0 : Statement (.powerOnReset x0) := of_none rfl

theorem coldReset x0 : Statement (.coldReset x0) := of_none rfl

theorem refclkLoss : Statement (.refclkLoss) := of_none rfl

theorem refclkLock : Statement .refclkLock := of_none rfl

theorem startTimeout : Statement (.startTimeout) := of_none rfl

theorem bringUpTestDone x0 x1 : Statement (.bringUpTestDone x0 x1) := of_none rfl

theorem privilegedFillDone : Statement (.privilegedFillDone) := of_none rfl

theorem warmReset : Statement (.warmReset) := of_none rfl

theorem thermalRestart : Statement (.thermalRestart) := of_none rfl

theorem restartRelease : Statement (.restartRelease) := of_none rfl

theorem computeResetAssert : Statement (.computeResetAssert) := of_none rfl

theorem quiesceDrainDone x0 : Statement (.quiesceDrainDone x0) := of_none rfl

theorem computeResetDeassert : Statement (.computeResetDeassert) := of_none rfl

theorem negotiationComplete x0 : Statement (.negotiationComplete x0) := of_none rfl

theorem negotiationRetry x0 : Statement (.negotiationRetry x0) := of_none rfl

theorem fabricRequest x0 x1 x2 : Statement (.fabricRequest x0 x1 x2) := of_none rfl

theorem intakeAdmit x0 : Statement (.intakeAdmit x0) := of_none rfl

theorem orderingPointAccept x0 : Statement (.orderingPointAccept x0) := of_none rfl

theorem rillCommandIssue x0 x1 : Statement (.rillCommandIssue x0 x1) := of_none rfl

theorem agePromote x0 x1 : Statement (.agePromote x0 x1) := of_none rfl

theorem readDataReturn x0 x1 : Statement (.readDataReturn x0 x1) := of_none rfl

theorem mergeReadReturn x0 x1 : Statement (.mergeReadReturn x0 x1) := of_none rfl

theorem verifyReadReturn x0 x1 : Statement (.verifyReadReturn x0 x1) := of_none rfl

theorem scrubPage x0 x1 : Statement (.scrubPage x0 x1) := of_none rfl

theorem ceWindowEnd x0 : Statement (.ceWindowEnd x0) := of_none rfl

theorem refreshAccrual x0 x1 : Statement (.refreshAccrual x0 x1) := of_none rfl

theorem stackTempRead x0 : Statement (.stackTempRead x0) := of_none rfl

theorem deferExpire : Statement (.deferExpire) := of_none rfl

theorem spareHandover x0 : Statement (.spareHandover x0) := of_none rfl

theorem rillCheckMismatch x0 : Statement (.rillCheckMismatch x0) := of_none rfl

theorem parkEnter x0 : Statement (.parkEnter x0) := of_none rfl

theorem selfRefreshEnter x0 : Statement (.selfRefreshEnter x0) := of_none rfl

theorem selfRefreshExit x0 x1 x2 : Statement (.selfRefreshExit x0 x1 x2) := of_none rfl

theorem creset x0 : Statement (.creset x0) := of_none rfl

theorem schTmgWrite x0 x1 x2 : Statement (.schTmgWrite x0 x1 x2) := of_none rfl

theorem pcRetire x0 : Statement (.pcRetire x0) := of_none rfl

theorem remap : Statement (.remap) := of_none rfl

theorem pregWrite x0 x1 : Statement (.pregWrite x0 x1) := of_none rfl

theorem bcwWrite x0 x1 : Statement (.bcwWrite x0 x1) := of_none rfl

theorem itkReqWrite x0 x1 : Statement (.itkReqWrite x0 x1) := of_none rfl

theorem intakeRefill : Statement (.intakeRefill) := of_none rfl

theorem pinWindowEnd : Statement (.pinWindowEnd) := of_none rfl

theorem deadclr : Statement (.deadclr) := of_none rfl

theorem tailWrite x0 x1 x2 x3 : Statement (.tailWrite x0 x1 x2 x3) := of_none rfl

theorem dblRingWrite x0 x1 : Statement (.dblRingWrite x0 x1) := of_none rfl

theorem spoutEnable x0 x1 : Statement (.spoutEnable x0 x1) := of_none rfl

theorem spoutStop x0 : Statement (.spoutStop x0) := of_none rfl

theorem spoutResume x0 : Statement (.spoutResume x0) := of_none rfl

theorem commandFetch x0 : Statement (.commandFetch x0) := of_none rfl

theorem commandEntryReturn x0 : Statement (.commandEntryReturn x0) := of_none rfl

theorem programLineReturn x0 x1 : Statement (.programLineReturn x0 x1) := of_none rfl

theorem memoryResponse x0 x1 : Statement (.memoryResponse x0 x1) := of_none rfl

theorem commandComplete x0 : Statement (.commandComplete x0) := of_none rfl

theorem resourceGrant x0 x1 : Statement (.resourceGrant x0 x1) := of_none rfl

theorem nop h : Statement (.nop h) := by
  intro hw w e
  have hx := bNat_lt h.x; have hp := h.ps.isLt
  have o : operandBits (0) := by unfold operandBits; omega
  have ew : w = encodeHead 0 0 h + (0) := by cases e; omega
  clear e
  refine ⟨h.sp, h.ext.toNat, ?_⟩
  have k0 := head_hdr 0 0 h _ hw (by decide) o
  have k1 := head_maj 0 0 h _ (by decide) (by decide) o
  have k2 := head_min 0 0 h _ (by decide) o
  rw [← ew] at k0 k1 k2
  unfold encodeHead at ew
  simp only [decodeInsn, k0, k1, k2]
  simp [insnCtl]

theorem halt h : Statement (.halt h) := by
  intro hw w e
  have hx := bNat_lt h.x; have hp := h.ps.isLt
  have o : operandBits (0) := by unfold operandBits; omega
  have ew : w = encodeHead 0 1 h + (0) := by cases e; omega
  clear e
  refine ⟨h.sp, h.ext.toNat, ?_⟩
  have k0 := head_hdr 0 1 h _ hw (by decide) o
  have k1 := head_maj 0 1 h _ (by decide) (by decide) o
  have k2 := head_min 0 1 h _ (by decide) o
  rw [← ew] at k0 k1 k2
  unfold encodeHead at ew
  simp only [decodeInsn, k0, k1, k2]
  simp [insnCtl]

theorem fence h mask : Statement (.fence h mask) := by
  intro hw w e
  have hx := bNat_lt h.x; have hp := h.ps.isLt
  have l_mask := mask.isLt
  have o : operandBits (mask.toNat * 2 ^ 1) := by unfold operandBits; omega
  have ew : w = encodeHead 0 2 h + (mask.toNat * 2 ^ 1) := by cases e; omega
  clear e
  refine ⟨h.sp, h.ext.toNat, ?_⟩
  have k0 := head_hdr 0 2 h _ hw (by decide) o
  have k1 := head_maj 0 2 h _ (by decide) (by decide) o
  have k2 := head_min 0 2 h _ (by decide) o
  rw [← ew] at k0 k1 k2
  unfold encodeHead at ew
  have b_mask : fBits w 4 1 = mask := by apply fBits_eq; omega
  simp only [decodeInsn, k0, k1, k2]
  simp [insnCtl, b_mask]

theorem sync h : Statement (.sync h) := by
  intro hw w e
  have hx := bNat_lt h.x; have hp := h.ps.isLt
  have o : operandBits (0) := by unfold operandBits; omega
  have ew : w = encodeHead 0 3 h + (0) := by cases e; omega
  clear e
  refine ⟨h.sp, h.ext.toNat, ?_⟩
  have k0 := head_hdr 0 3 h _ hw (by decide) o
  have k1 := head_maj 0 3 h _ (by decide) (by decide) o
  have k2 := head_min 0 3 h _ (by decide) o
  rw [← ew] at k0 k1 k2
  unfold encodeHead at ew
  simp only [decodeInsn, k0, k1, k2]
  simp [insnCtl]

theorem syncTimeout x0 : Statement (.syncTimeout x0) := of_none rfl

theorem loop h imm len gs cs : Statement (.loop h imm len gs cs) := by
  intro hw w e
  have hx := bNat_lt h.x; have hp := h.ps.isLt
  have l_imm := imm.isLt
  have l_len := len.isLt
  have l_gs := gs.isLt
  have l_cs := bNat_lt cs
  have o : operandBits (imm.toNat * 2 ^ 24 + len.toNat * 2 ^ 8 + gs.toNat * 2 ^ 4 + bNat cs * 2 ^ 3) := by unfold operandBits; omega
  have ew : w = encodeHead 1 0 h + (imm.toNat * 2 ^ 24 + len.toNat * 2 ^ 8 + gs.toNat * 2 ^ 4 + bNat cs * 2 ^ 3) := by cases e; omega
  clear e
  refine ⟨h.sp, h.ext.toNat, ?_⟩
  have k0 := head_hdr 1 0 h _ hw (by decide) o
  have k1 := head_maj 1 0 h _ (by decide) (by decide) o
  have k2 := head_min 1 0 h _ (by decide) o
  rw [← ew] at k0 k1 k2
  unfold encodeHead at ew
  have b_imm : fBits w 47 24 = imm := by apply fBits_eq; omega
  have b_len : fBits w 23 8 = len := by apply fBits_eq; omega
  have b_gs : fBits w 7 4 = gs := by apply fBits_eq; omega
  have b_cs : fBool w 3 = cs := by apply fBool_eq; omega
  simp only [decodeInsn, k0, k1, k2]
  simp [insnCtl, b_imm, b_len, b_gs, b_cs]

theorem endloop h : Statement (.endloop h) := by
  intro hw w e
  have hx := bNat_lt h.x; have hp := h.ps.isLt
  have o : operandBits (0) := by unfold operandBits; omega
  have ew : w = encodeHead 1 1 h + (0) := by cases e; omega
  clear e
  refine ⟨h.sp, h.ext.toNat, ?_⟩
  have k0 := head_hdr 1 1 h _ hw (by decide) o
  have k1 := head_maj 1 1 h _ (by decide) (by decide) o
  have k2 := head_min 1 1 h _ (by decide) o
  rw [← ew] at k0 k1 k2
  unfold encodeHead at ew
  simp only [decodeInsn, k0, k1, k2]
  simp [insnCtl]

theorem br h off : Statement (.br h off) := by
  intro hw w e
  have hx := bNat_lt h.x; have hp := h.ps.isLt
  have l_off := off.isLt
  have o : operandBits (off.toNat * 2 ^ 16) := by unfold operandBits; omega
  have ew : w = encodeHead 2 0 h + (off.toNat * 2 ^ 16) := by cases e; omega
  clear e
  refine ⟨h.sp, h.ext.toNat, ?_⟩
  have k0 := head_hdr 2 0 h _ hw (by decide) o
  have k1 := head_maj 2 0 h _ (by decide) (by decide) o
  have k2 := head_min 2 0 h _ (by decide) o
  rw [← ew] at k0 k1 k2
  unfold encodeHead at ew
  have b_off : fBits w 47 16 = off := by apply fBits_eq; omega
  simp only [decodeInsn, k0, k1, k2]
  simp [insnCtl, b_off]

theorem brA h aa : Statement (.brA h aa) := by
  intro hw w e
  have hx := bNat_lt h.x; have hp := h.ps.isLt
  have l_aa := aa.isLt
  have o : operandBits (aa.toNat * 2 ^ 45) := by unfold operandBits; omega
  have ew : w = encodeHead 2 1 h + (aa.toNat * 2 ^ 45) := by cases e; omega
  clear e
  refine ⟨h.sp, h.ext.toNat, ?_⟩
  have k0 := head_hdr 2 1 h _ hw (by decide) o
  have k1 := head_maj 2 1 h _ (by decide) (by decide) o
  have k2 := head_min 2 1 h _ (by decide) o
  rw [← ew] at k0 k1 k2
  unfold encodeHead at ew
  have b_aa : fBits w 47 45 = aa := by apply fBits_eq; omega
  simp only [decodeInsn, k0, k1, k2]
  simp [insnCtl, b_aa]

theorem brC (h : Hdr) (f) : Statement (.brC h f) := by
  intro hw w e
  cases e
  refine ⟨h.sp, h.ext.toNat, ?_⟩
  have o := operandBits_Brc f
  simp only [decodeInsn, head_maj 2 2 h _ (by decide) (by decide) o, head_min 2 2 h _ (by decide) o, head_hdr 2 2 h _ hw (by decide) o]
  simp [insnCtl, decodeBrc_encode]

theorem wait (h : Hdr) (f) : Statement (.wait h f) := by
  intro hw w e
  cases e
  refine ⟨h.sp, h.ext.toNat, ?_⟩
  have o := operandBits_Wait f
  simp only [decodeInsn, head_maj 3 0 h _ (by decide) (by decide) o, head_min 3 0 h _ (by decide) o, head_hdr 3 0 h _ hw (by decide) o]
  simp [insnCtl, decodeWait_encode]

theorem waitEvaluate x0 : Statement (.waitEvaluate x0) := of_none rfl

theorem waitTimeout x0 : Statement (.waitTimeout x0) := of_none rfl

theorem signal (h : Hdr) (f) : Statement (.signal h f) := by
  intro hw w e
  cases e
  refine ⟨h.sp, h.ext.toNat, ?_⟩
  have o := operandBits_Signal f
  simp only [decodeInsn, head_maj 3 1 h _ (by decide) (by decide) o, head_min 3 1 h _ (by decide) o, head_hdr 3 1 h _ hw (by decide) o]
  simp [insnCtl, decodeSignal_encode]

theorem ldi h rd imm : Statement (.ldi h rd imm) := by
  intro hw w e
  have hx := bNat_lt h.x; have hp := h.ps.isLt
  have l_rd := rd.isLt
  have l_imm := imm.isLt
  have o : operandBits (rd.toNat * 2 ^ 43 + imm.toNat * 2 ^ 11) := by unfold operandBits; omega
  have ew : w = encodeHead 4 0 h + (rd.toNat * 2 ^ 43 + imm.toNat * 2 ^ 11) := by cases e; omega
  clear e
  refine ⟨h.sp, h.ext.toNat, ?_⟩
  have k0 := head_hdr 4 0 h _ hw (by decide) o
  have k1 := head_maj 4 0 h _ (by decide) (by decide) o
  have k2 := head_min 4 0 h _ (by decide) o
  rw [← ew] at k0 k1 k2
  unfold encodeHead at ew
  have b_rd : fBits w 47 43 = rd := by apply fBits_eq; omega
  have b_imm : fBits w 42 11 = imm := by apply fBits_eq; omega
  simp only [decodeInsn, k0, k1, k2]
  simp [insnCtl, b_rd, b_imm]

theorem movr h rd rs imm : Statement (.movr h rd rs imm) := by
  intro hw w e
  have hx := bNat_lt h.x; have hp := h.ps.isLt
  have l_rd := rd.isLt
  have l_rs := rs.isLt
  have l_imm := imm.isLt
  have o : operandBits (rd.toNat * 2 ^ 43 + rs.toNat * 2 ^ 38 + imm.toNat * 2 ^ 22) := by unfold operandBits; omega
  have ew : w = encodeHead 4 1 h + (rd.toNat * 2 ^ 43 + rs.toNat * 2 ^ 38 + imm.toNat * 2 ^ 22) := by cases e; omega
  clear e
  refine ⟨h.sp, h.ext.toNat, ?_⟩
  have k0 := head_hdr 4 1 h _ hw (by decide) o
  have k1 := head_maj 4 1 h _ (by decide) (by decide) o
  have k2 := head_min 4 1 h _ (by decide) o
  rw [← ew] at k0 k1 k2
  unfold encodeHead at ew
  have b_rd : fBits w 47 43 = rd := by apply fBits_eq; omega
  have b_rs : fBits w 42 38 = rs := by apply fBits_eq; omega
  have b_imm : fBits w 37 22 = imm := by apply fBits_eq; omega
  simp only [decodeInsn, k0, k1, k2]
  simp [insnCtl, b_rd, b_rs, b_imm]

theorem ldd h dd aa disp : Statement (.ldd h dd aa disp) := by
  intro hw w e
  have hx := bNat_lt h.x; have hp := h.ps.isLt
  have l_dd := dd.isLt
  have l_aa := aa.isLt
  have l_disp := disp.isLt
  have o : operandBits (dd.toNat * 2 ^ 46 + aa.toNat * 2 ^ 43 + disp.toNat * 2 ^ 27) := by unfold operandBits; omega
  have ew : w = encodeHead 4 2 h + (dd.toNat * 2 ^ 46 + aa.toNat * 2 ^ 43 + disp.toNat * 2 ^ 27) := by cases e; omega
  clear e
  refine ⟨h.sp, h.ext.toNat, ?_⟩
  have k0 := head_hdr 4 2 h _ hw (by decide) o
  have k1 := head_maj 4 2 h _ (by decide) (by decide) o
  have k2 := head_min 4 2 h _ (by decide) o
  rw [← ew] at k0 k1 k2
  unfold encodeHead at ew
  have b_dd : fBits w 47 46 = dd := by apply fBits_eq; omega
  have b_aa : fBits w 45 43 = aa := by apply fBits_eq; omega
  have b_disp : fBits w 42 27 = disp := by apply fBits_eq; omega
  simp only [decodeInsn, k0, k1, k2]
  simp [insnCtl, b_dd, b_aa, b_disp]

theorem ldr h rd aa disp : Statement (.ldr h rd aa disp) := by
  intro hw w e
  have hx := bNat_lt h.x; have hp := h.ps.isLt
  have l_rd := rd.isLt
  have l_aa := aa.isLt
  have l_disp := disp.isLt
  have o : operandBits (rd.toNat * 2 ^ 43 + aa.toNat * 2 ^ 40 + disp.toNat * 2 ^ 24) := by unfold operandBits; omega
  have ew : w = encodeHead 4 3 h + (rd.toNat * 2 ^ 43 + aa.toNat * 2 ^ 40 + disp.toNat * 2 ^ 24) := by cases e; omega
  clear e
  refine ⟨h.sp, h.ext.toNat, ?_⟩
  have k0 := head_hdr 4 3 h _ hw (by decide) o
  have k1 := head_maj 4 3 h _ (by decide) (by decide) o
  have k2 := head_min 4 3 h _ (by decide) o
  rw [← ew] at k0 k1 k2
  unfold encodeHead at ew
  have b_rd : fBits w 47 43 = rd := by apply fBits_eq; omega
  have b_aa : fBits w 42 40 = aa := by apply fBits_eq; omega
  have b_disp : fBits w 39 24 = disp := by apply fBits_eq; omega
  simp only [decodeInsn, k0, k1, k2]
  simp [insnCtl, b_rd, b_aa, b_disp]

theorem str h rs aa disp : Statement (.str h rs aa disp) := by
  intro hw w e
  have hx := bNat_lt h.x; have hp := h.ps.isLt
  have l_rs := rs.isLt
  have l_aa := aa.isLt
  have l_disp := disp.isLt
  have o : operandBits (rs.toNat * 2 ^ 43 + aa.toNat * 2 ^ 40 + disp.toNat * 2 ^ 24) := by unfold operandBits; omega
  have ew : w = encodeHead 4 4 h + (rs.toNat * 2 ^ 43 + aa.toNat * 2 ^ 40 + disp.toNat * 2 ^ 24) := by cases e; omega
  clear e
  refine ⟨h.sp, h.ext.toNat, ?_⟩
  have k0 := head_hdr 4 4 h _ hw (by decide) o
  have k1 := head_maj 4 4 h _ (by decide) (by decide) o
  have k2 := head_min 4 4 h _ (by decide) o
  rw [← ew] at k0 k1 k2
  unfold encodeHead at ew
  have b_rs : fBits w 47 43 = rs := by apply fBits_eq; omega
  have b_aa : fBits w 42 40 = aa := by apply fBits_eq; omega
  have b_disp : fBits w 39 24 = disp := by apply fBits_eq; omega
  simp only [decodeInsn, k0, k1, k2]
  simp [insnCtl, b_rs, b_aa, b_disp]

theorem plog h pd pa pb tt : Statement (.plog h pd pa pb tt) := by
  intro hw w e
  have hx := bNat_lt h.x; have hp := h.ps.isLt
  have l_pd := pd.isLt
  have l_pa := pa.isLt
  have l_pb := pb.isLt
  have l_tt := tt.isLt
  have o : operandBits (pd.toNat * 2 ^ 45 + pa.toNat * 2 ^ 42 + pb.toNat * 2 ^ 39 + tt.toNat * 2 ^ 35) := by unfold operandBits; omega
  have ew : w = encodeHead 4 5 h + (pd.toNat * 2 ^ 45 + pa.toNat * 2 ^ 42 + pb.toNat * 2 ^ 39 + tt.toNat * 2 ^ 35) := by cases e; omega
  clear e
  refine ⟨h.sp, h.ext.toNat, ?_⟩
  have k0 := head_hdr 4 5 h _ hw (by decide) o
  have k1 := head_maj 4 5 h _ (by decide) (by decide) o
  have k2 := head_min 4 5 h _ (by decide) o
  rw [← ew] at k0 k1 k2
  unfold encodeHead at ew
  have b_pd : fBits w 47 45 = pd := by apply fBits_eq; omega
  have b_pa : fBits w 44 42 = pa := by apply fBits_eq; omega
  have b_pb : fBits w 41 39 = pb := by apply fBits_eq; omega
  have b_tt : fBits w 38 35 = tt := by apply fBits_eq; omega
  simp only [decodeInsn, k0, k1, k2]
  simp [insnCtl, b_pd, b_pa, b_pb, b_tt]

theorem move (h : Hdr) (f) : Statement (.move h f) := by
  intro hw w e
  cases e
  refine ⟨h.sp, h.ext.toNat, ?_⟩
  have o := operandBits_D f
  simp only [decodeInsn, head_maj 8 0 h _ (by decide) (by decide) o, head_min 8 0 h _ (by decide) o, head_hdr 8 0 h _ hw (by decide) o,
    decodeD_encode]
  rfl

theorem gather (h : Hdr) (f) : Statement (.gather h f) := by
  intro hw w e
  cases e
  refine ⟨h.sp, h.ext.toNat, ?_⟩
  have o := operandBits_D f
  simp only [decodeInsn, head_maj 8 1 h _ (by decide) (by decide) o, head_min 8 1 h _ (by decide) o, head_hdr 8 1 h _ hw (by decide) o,
    decodeD_encode]
  rfl

theorem scatter (h : Hdr) (f) : Statement (.scatter h f) := by
  intro hw w e
  cases e
  refine ⟨h.sp, h.ext.toNat, ?_⟩
  have o := operandBits_D f
  simp only [decodeInsn, head_maj 8 2 h _ (by decide) (by decide) o, head_min 8 2 h _ (by decide) o, head_hdr 8 2 h _ hw (by decide) o,
    decodeD_encode]
  rfl

theorem fill (h : Hdr) (f) : Statement (.fill h f) := by
  intro hw w e
  cases e
  refine ⟨h.sp, h.ext.toNat, ?_⟩
  have o := operandBits_D f
  simp only [decodeInsn, head_maj 8 3 h _ (by decide) (by decide) o, head_min 8 3 h _ (by decide) o, head_hdr 8 3 h _ hw (by decide) o,
    decodeD_encode]
  rfl

theorem cmp (h : Hdr) (f) : Statement (.cmp h f) := by
  intro hw w e
  cases e
  refine ⟨h.sp, h.ext.toNat, ?_⟩
  have o := operandBits_D f
  simp only [decodeInsn, head_maj 8 4 h _ (by decide) (by decide) o, head_min 8 4 h _ (by decide) o, head_hdr 8 4 h _ hw (by decide) o,
    decodeD_encode]
  rfl

theorem pack (h : Hdr) (f) : Statement (.pack h f) := by
  intro hw w e
  cases e
  refine ⟨h.sp, h.ext.toNat, ?_⟩
  have o := operandBits_D f
  simp only [decodeInsn, head_maj 8 5 h _ (by decide) (by decide) o, head_min 8 5 h _ (by decide) o, head_hdr 8 5 h _ hw (by decide) o,
    decodeD_encode]
  rfl

theorem stagingSlotGrant : Statement (.stagingSlotGrant) := of_none rfl

theorem cvt (h : Hdr) (f) : Statement (.cvt h f) := by
  intro hw w e
  cases e
  refine ⟨h.sp, h.ext.toNat, ?_⟩
  have o := operandBits_D f
  simp only [decodeInsn, head_maj 16 0 h _ (by decide) (by decide) o, head_min 16 0 h _ (by decide) o, head_hdr 16 0 h _ hw (by decide) o,
    decodeD_encode]
  rfl

theorem cvtPr (h : Hdr) (f) : Statement (.cvtPr h f) := by
  intro hw w e
  cases e
  refine ⟨h.sp, h.ext.toNat, ?_⟩
  have o := operandBits_D f
  simp only [decodeInsn, head_maj 16 1 h _ (by decide) (by decide) o, head_min 16 1 h _ (by decide) o, head_hdr 16 1 h _ hw (by decide) o,
    decodeD_encode]
  rfl

theorem vadd (h : Hdr) (f) : Statement (.vadd h f) := by
  intro hw w e
  cases e
  refine ⟨h.sp, h.ext.toNat, ?_⟩
  have o := operandBits_D f
  simp only [decodeInsn, head_maj 20 0 h _ (by decide) (by decide) o, head_min 20 0 h _ (by decide) o, head_hdr 20 0 h _ hw (by decide) o,
    decodeD_encode]
  rfl

theorem vsub (h : Hdr) (f) : Statement (.vsub h f) := by
  intro hw w e
  cases e
  refine ⟨h.sp, h.ext.toNat, ?_⟩
  have o := operandBits_D f
  simp only [decodeInsn, head_maj 20 1 h _ (by decide) (by decide) o, head_min 20 1 h _ (by decide) o, head_hdr 20 1 h _ hw (by decide) o,
    decodeD_encode]
  rfl

theorem vmul (h : Hdr) (f) : Statement (.vmul h f) := by
  intro hw w e
  cases e
  refine ⟨h.sp, h.ext.toNat, ?_⟩
  have o := operandBits_D f
  simp only [decodeInsn, head_maj 20 2 h _ (by decide) (by decide) o, head_min 20 2 h _ (by decide) o, head_hdr 20 2 h _ hw (by decide) o,
    decodeD_encode]
  rfl

theorem vfma (h : Hdr) (f) : Statement (.vfma h f) := by
  intro hw w e
  cases e
  refine ⟨h.sp, h.ext.toNat, ?_⟩
  have o := operandBits_D f
  simp only [decodeInsn, head_maj 20 3 h _ (by decide) (by decide) o, head_min 20 3 h _ (by decide) o, head_hdr 20 3 h _ hw (by decide) o,
    decodeD_encode]
  rfl

theorem vmin (h : Hdr) (f) : Statement (.vmin h f) := by
  intro hw w e
  cases e
  refine ⟨h.sp, h.ext.toNat, ?_⟩
  have o := operandBits_D f
  simp only [decodeInsn, head_maj 20 4 h _ (by decide) (by decide) o, head_min 20 4 h _ (by decide) o, head_hdr 20 4 h _ hw (by decide) o,
    decodeD_encode]
  rfl

theorem vmax (h : Hdr) (f) : Statement (.vmax h f) := by
  intro hw w e
  cases e
  refine ⟨h.sp, h.ext.toNat, ?_⟩
  have o := operandBits_D f
  simp only [decodeInsn, head_maj 20 5 h _ (by decide) (by decide) o, head_min 20 5 h _ (by decide) o, head_hdr 20 5 h _ hw (by decide) o,
    decodeD_encode]
  rfl

theorem vabs (h : Hdr) (f) : Statement (.vabs h f) := by
  intro hw w e
  cases e
  refine ⟨h.sp, h.ext.toNat, ?_⟩
  have o := operandBits_D f
  simp only [decodeInsn, head_maj 20 6 h _ (by decide) (by decide) o, head_min 20 6 h _ (by decide) o, head_hdr 20 6 h _ hw (by decide) o,
    decodeD_encode]
  rfl

theorem vneg (h : Hdr) (f) : Statement (.vneg h f) := by
  intro hw w e
  cases e
  refine ⟨h.sp, h.ext.toNat, ?_⟩
  have o := operandBits_D f
  simp only [decodeInsn, head_maj 20 7 h _ (by decide) (by decide) o, head_min 20 7 h _ (by decide) o, head_hdr 20 7 h _ hw (by decide) o,
    decodeD_encode]
  rfl

theorem vscale (h : Hdr) (f) : Statement (.vscale h f) := by
  intro hw w e
  cases e
  refine ⟨h.sp, h.ext.toNat, ?_⟩
  have o := operandBits_D f
  simp only [decodeInsn, head_maj 20 8 h _ (by decide) (by decide) o, head_min 20 8 h _ (by decide) o, head_hdr 20 8 h _ hw (by decide) o,
    decodeD_encode]
  rfl

theorem vand (h : Hdr) (f) : Statement (.vand h f) := by
  intro hw w e
  cases e
  refine ⟨h.sp, h.ext.toNat, ?_⟩
  have o := operandBits_D f
  simp only [decodeInsn, head_maj 20 9 h _ (by decide) (by decide) o, head_min 20 9 h _ (by decide) o, head_hdr 20 9 h _ hw (by decide) o,
    decodeD_encode]
  rfl

theorem vor (h : Hdr) (f) : Statement (.vor h f) := by
  intro hw w e
  cases e
  refine ⟨h.sp, h.ext.toNat, ?_⟩
  have o := operandBits_D f
  simp only [decodeInsn, head_maj 20 10 h _ (by decide) (by decide) o, head_min 20 10 h _ (by decide) o, head_hdr 20 10 h _ hw (by decide) o,
    decodeD_encode]
  rfl

theorem vxor (h : Hdr) (f) : Statement (.vxor h f) := by
  intro hw w e
  cases e
  refine ⟨h.sp, h.ext.toNat, ?_⟩
  have o := operandBits_D f
  simp only [decodeInsn, head_maj 20 11 h _ (by decide) (by decide) o, head_min 20 11 h _ (by decide) o, head_hdr 20 11 h _ hw (by decide) o,
    decodeD_encode]
  rfl

theorem vcmpeq (h : Hdr) (f) : Statement (.vcmpeq h f) := by
  intro hw w e
  cases e
  refine ⟨h.sp, h.ext.toNat, ?_⟩
  have o := operandBits_D f
  simp only [decodeInsn, head_maj 20 12 h _ (by decide) (by decide) o, head_min 20 12 h _ (by decide) o, head_hdr 20 12 h _ hw (by decide) o,
    decodeD_encode]
  rfl

theorem vcmplt (h : Hdr) (f) : Statement (.vcmplt h f) := by
  intro hw w e
  cases e
  refine ⟨h.sp, h.ext.toNat, ?_⟩
  have o := operandBits_D f
  simp only [decodeInsn, head_maj 20 13 h _ (by decide) (by decide) o, head_min 20 13 h _ (by decide) o, head_hdr 20 13 h _ hw (by decide) o,
    decodeD_encode]
  rfl

theorem rsum (h : Hdr) (f) : Statement (.rsum h f) := by
  intro hw w e
  cases e
  refine ⟨h.sp, h.ext.toNat, ?_⟩
  have o := operandBits_D f
  simp only [decodeInsn, head_maj 21 0 h _ (by decide) (by decide) o, head_min 21 0 h _ (by decide) o, head_hdr 21 0 h _ hw (by decide) o,
    decodeD_encode]
  rfl

theorem rsumsq (h : Hdr) (f) : Statement (.rsumsq h f) := by
  intro hw w e
  cases e
  refine ⟨h.sp, h.ext.toNat, ?_⟩
  have o := operandBits_D f
  simp only [decodeInsn, head_maj 21 1 h _ (by decide) (by decide) o, head_min 21 1 h _ (by decide) o, head_hdr 21 1 h _ hw (by decide) o,
    decodeD_encode]
  rfl

theorem rdot (h : Hdr) (f) : Statement (.rdot h f) := by
  intro hw w e
  cases e
  refine ⟨h.sp, h.ext.toNat, ?_⟩
  have o := operandBits_D f
  simp only [decodeInsn, head_maj 21 2 h _ (by decide) (by decide) o, head_min 21 2 h _ (by decide) o, head_hdr 21 2 h _ hw (by decide) o,
    decodeD_encode]
  rfl

theorem rmin (h : Hdr) (f) : Statement (.rmin h f) := by
  intro hw w e
  cases e
  refine ⟨h.sp, h.ext.toNat, ?_⟩
  have o := operandBits_D f
  simp only [decodeInsn, head_maj 21 3 h _ (by decide) (by decide) o, head_min 21 3 h _ (by decide) o, head_hdr 21 3 h _ hw (by decide) o,
    decodeD_encode]
  rfl

theorem rmax (h : Hdr) (f) : Statement (.rmax h f) := by
  intro hw w e
  cases e
  refine ⟨h.sp, h.ext.toNat, ?_⟩
  have o := operandBits_D f
  simp only [decodeInsn, head_maj 21 4 h _ (by decide) (by decide) o, head_min 21 4 h _ (by decide) o, head_hdr 21 4 h _ hw (by decide) o,
    decodeD_encode]
  rfl

theorem rargmin (h : Hdr) (f) : Statement (.rargmin h f) := by
  intro hw w e
  cases e
  refine ⟨h.sp, h.ext.toNat, ?_⟩
  have o := operandBits_D f
  simp only [decodeInsn, head_maj 21 5 h _ (by decide) (by decide) o, head_min 21 5 h _ (by decide) o, head_hdr 21 5 h _ hw (by decide) o,
    decodeD_encode]
  rfl

theorem rargmax (h : Hdr) (f) : Statement (.rargmax h f) := by
  intro hw w e
  cases e
  refine ⟨h.sp, h.ext.toNat, ?_⟩
  have o := operandBits_D f
  simp only [decodeInsn, head_maj 21 6 h _ (by decide) (by decide) o, head_min 21 6 h _ (by decide) o, head_hdr 21 6 h _ hw (by decide) o,
    decodeD_encode]
  rfl

theorem rmerge (h : Hdr) (f) : Statement (.rmerge h f) := by
  intro hw w e
  cases e
  refine ⟨h.sp, h.ext.toNat, ?_⟩
  have o := operandBits_D f
  simp only [decodeInsn, head_maj 21 7 h _ (by decide) (by decide) o, head_min 21 7 h _ (by decide) o, head_hdr 21 7 h _ hw (by decide) o,
    decodeD_encode]
  rfl

theorem gemv (h : Hdr) (f) : Statement (.gemv h f) := by
  intro hw w e
  cases e
  refine ⟨h.sp, h.ext.toNat, ?_⟩
  have o := operandBits_D f
  simp only [decodeInsn, head_maj 32 0 h _ (by decide) (by decide) o, head_min 32 0 h _ (by decide) o, head_hdr 32 0 h _ hw (by decide) o,
    decodeD_encode]
  rfl

theorem gemvt (h : Hdr) (f) : Statement (.gemvt h f) := by
  intro hw w e
  cases e
  refine ⟨h.sp, h.ext.toNat, ?_⟩
  have o := operandBits_D f
  simp only [decodeInsn, head_maj 32 1 h _ (by decide) (by decide) o, head_min 32 1 h _ (by decide) o, head_hdr 32 1 h _ hw (by decide) o,
    decodeD_encode]
  rfl

theorem mm (h : Hdr) (f) : Statement (.mm h f) := by
  intro hw w e
  cases e
  refine ⟨h.sp, h.ext.toNat, ?_⟩
  have o := operandBits_D f
  simp only [decodeInsn, head_maj 32 2 h _ (by decide) (by decide) o, head_min 32 2 h _ (by decide) o, head_hdr 32 2 h _ hw (by decide) o,
    decodeD_encode]
  rfl

theorem hprobe (h : Hdr) (f) : Statement (.hprobe h f) := by
  intro hw w e
  cases e
  refine ⟨h.sp, h.ext.toNat, ?_⟩
  have o := operandBits_D f
  simp only [decodeInsn, head_maj 40 0 h _ (by decide) (by decide) o, head_min 40 0 h _ (by decide) o, head_hdr 40 0 h _ hw (by decide) o,
    decodeD_encode]
  rfl

theorem hinsert (h : Hdr) (f) : Statement (.hinsert h f) := by
  intro hw w e
  cases e
  refine ⟨h.sp, h.ext.toNat, ?_⟩
  have o := operandBits_D f
  simp only [decodeInsn, head_maj 40 1 h _ (by decide) (by decide) o, head_min 40 1 h _ (by decide) o, head_hdr 40 1 h _ hw (by decide) o,
    decodeD_encode]
  rfl

theorem hdelete (h : Hdr) (f) : Statement (.hdelete h f) := by
  intro hw w e
  cases e
  refine ⟨h.sp, h.ext.toNat, ?_⟩
  have o := operandBits_D f
  simp only [decodeInsn, head_maj 40 2 h _ (by decide) (by decide) o, head_min 40 2 h _ (by decide) o, head_hdr 40 2 h _ hw (by decide) o,
    decodeD_encode]
  rfl

theorem isect (h : Hdr) (f) : Statement (.isect h f) := by
  intro hw w e
  cases e
  refine ⟨h.sp, h.ext.toNat, ?_⟩
  have o := operandBits_D f
  simp only [decodeInsn, head_maj 40 3 h _ (by decide) (by decide) o, head_min 40 3 h _ (by decide) o, head_hdr 40 3 h _ hw (by decide) o,
    decodeD_encode]
  rfl

theorem topk (h : Hdr) (f) : Statement (.topk h f) := by
  intro hw w e
  cases e
  refine ⟨h.sp, h.ext.toNat, ?_⟩
  have o := operandBits_D f
  simp only [decodeInsn, head_maj 40 4 h _ (by decide) (by decide) o, head_min 40 4 h _ (by decide) o, head_hdr 40 4 h _ hw (by decide) o,
    decodeD_encode]
  rfl

theorem amin (h : Hdr) (f) : Statement (.amin h f) := by
  intro hw w e
  cases e
  refine ⟨h.sp, h.ext.toNat, ?_⟩
  have o := operandBits_D f
  simp only [decodeInsn, head_maj 40 5 h _ (by decide) (by decide) o, head_min 40 5 h _ (by decide) o, head_hdr 40 5 h _ hw (by decide) o,
    decodeD_encode]
  rfl

theorem amax (h : Hdr) (f) : Statement (.amax h f) := by
  intro hw w e
  cases e
  refine ⟨h.sp, h.ext.toNat, ?_⟩
  have o := operandBits_D f
  simp only [decodeInsn, head_maj 40 6 h _ (by decide) (by decide) o, head_min 40 6 h _ (by decide) o, head_hdr 40 6 h _ hw (by decide) o,
    decodeD_encode]
  rfl

theorem aadd (h : Hdr) (f) : Statement (.aadd h f) := by
  intro hw w e
  cases e
  refine ⟨h.sp, h.ext.toNat, ?_⟩
  have o := operandBits_D f
  simp only [decodeInsn, head_maj 40 7 h _ (by decide) (by decide) o, head_min 40 7 h _ (by decide) o, head_hdr 40 7 h _ hw (by decide) o,
    decodeD_encode]
  rfl

theorem halo (h : Hdr) (f) : Statement (.halo h f) := by
  intro hw w e
  cases e
  refine ⟨h.sp, h.ext.toNat, ?_⟩
  have o := operandBits_D f
  simp only [decodeInsn, head_maj 40 8 h _ (by decide) (by decide) o, head_min 40 8 h _ (by decide) o, head_hdr 40 8 h _ hw (by decide) o,
    decodeD_encode]
  rfl

theorem add (h : Hdr) (f) : Statement (.add h f) := by
  intro hw w e
  cases e
  refine ⟨h.sp, h.ext.toNat, ?_⟩
  have o := operandBits_S f
  simp only [decodeInsn, head_maj 22 0 h _ (by decide) (by decide) o, head_min 22 0 h _ (by decide) o, head_hdr 22 0 h _ hw (by decide) o,
    decodeS_encode]
  rfl

theorem sub (h : Hdr) (f) : Statement (.sub h f) := by
  intro hw w e
  cases e
  refine ⟨h.sp, h.ext.toNat, ?_⟩
  have o := operandBits_S f
  simp only [decodeInsn, head_maj 22 1 h _ (by decide) (by decide) o, head_min 22 1 h _ (by decide) o, head_hdr 22 1 h _ hw (by decide) o,
    decodeS_encode]
  rfl

theorem mul (h : Hdr) (f) : Statement (.mul h f) := by
  intro hw w e
  cases e
  refine ⟨h.sp, h.ext.toNat, ?_⟩
  have o := operandBits_S f
  simp only [decodeInsn, head_maj 22 2 h _ (by decide) (by decide) o, head_min 22 2 h _ (by decide) o, head_hdr 22 2 h _ hw (by decide) o,
    decodeS_encode]
  rfl

theorem mulhu (h : Hdr) (f) : Statement (.mulhu h f) := by
  intro hw w e
  cases e
  refine ⟨h.sp, h.ext.toNat, ?_⟩
  have o := operandBits_S f
  simp only [decodeInsn, head_maj 22 3 h _ (by decide) (by decide) o, head_min 22 3 h _ (by decide) o, head_hdr 22 3 h _ hw (by decide) o,
    decodeS_encode]
  rfl

theorem and (h : Hdr) (f) : Statement (.and h f) := by
  intro hw w e
  cases e
  refine ⟨h.sp, h.ext.toNat, ?_⟩
  have o := operandBits_S f
  simp only [decodeInsn, head_maj 22 4 h _ (by decide) (by decide) o, head_min 22 4 h _ (by decide) o, head_hdr 22 4 h _ hw (by decide) o,
    decodeS_encode]
  rfl

theorem or (h : Hdr) (f) : Statement (.or h f) := by
  intro hw w e
  cases e
  refine ⟨h.sp, h.ext.toNat, ?_⟩
  have o := operandBits_S f
  simp only [decodeInsn, head_maj 22 5 h _ (by decide) (by decide) o, head_min 22 5 h _ (by decide) o, head_hdr 22 5 h _ hw (by decide) o,
    decodeS_encode]
  rfl

theorem xor (h : Hdr) (f) : Statement (.xor h f) := by
  intro hw w e
  cases e
  refine ⟨h.sp, h.ext.toNat, ?_⟩
  have o := operandBits_S f
  simp only [decodeInsn, head_maj 22 6 h _ (by decide) (by decide) o, head_min 22 6 h _ (by decide) o, head_hdr 22 6 h _ hw (by decide) o,
    decodeS_encode]
  rfl

theorem shl (h : Hdr) (f) : Statement (.shl h f) := by
  intro hw w e
  cases e
  refine ⟨h.sp, h.ext.toNat, ?_⟩
  have o := operandBits_S f
  simp only [decodeInsn, head_maj 22 7 h _ (by decide) (by decide) o, head_min 22 7 h _ (by decide) o, head_hdr 22 7 h _ hw (by decide) o,
    decodeS_encode]
  rfl

theorem shr (h : Hdr) (f) : Statement (.shr h f) := by
  intro hw w e
  cases e
  refine ⟨h.sp, h.ext.toNat, ?_⟩
  have o := operandBits_S f
  simp only [decodeInsn, head_maj 22 8 h _ (by decide) (by decide) o, head_min 22 8 h _ (by decide) o, head_hdr 22 8 h _ hw (by decide) o,
    decodeS_encode]
  rfl

theorem sra (h : Hdr) (f) : Statement (.sra h f) := by
  intro hw w e
  cases e
  refine ⟨h.sp, h.ext.toNat, ?_⟩
  have o := operandBits_S f
  simp only [decodeInsn, head_maj 22 9 h _ (by decide) (by decide) o, head_min 22 9 h _ (by decide) o, head_hdr 22 9 h _ hw (by decide) o,
    decodeS_encode]
  rfl

theorem min (h : Hdr) (f) : Statement (.min h f) := by
  intro hw w e
  cases e
  refine ⟨h.sp, h.ext.toNat, ?_⟩
  have o := operandBits_S f
  simp only [decodeInsn, head_maj 22 10 h _ (by decide) (by decide) o, head_min 22 10 h _ (by decide) o, head_hdr 22 10 h _ hw (by decide) o,
    decodeS_encode]
  rfl

theorem max (h : Hdr) (f) : Statement (.max h f) := by
  intro hw w e
  cases e
  refine ⟨h.sp, h.ext.toNat, ?_⟩
  have o := operandBits_S f
  simp only [decodeInsn, head_maj 22 11 h _ (by decide) (by decide) o, head_min 22 11 h _ (by decide) o, head_hdr 22 11 h _ hw (by decide) o,
    decodeS_encode]
  rfl

theorem minu (h : Hdr) (f) : Statement (.minu h f) := by
  intro hw w e
  cases e
  refine ⟨h.sp, h.ext.toNat, ?_⟩
  have o := operandBits_S f
  simp only [decodeInsn, head_maj 22 12 h _ (by decide) (by decide) o, head_min 22 12 h _ (by decide) o, head_hdr 22 12 h _ hw (by decide) o,
    decodeS_encode]
  rfl

theorem maxu (h : Hdr) (f) : Statement (.maxu h f) := by
  intro hw w e
  cases e
  refine ⟨h.sp, h.ext.toNat, ?_⟩
  have o := operandBits_S f
  simp only [decodeInsn, head_maj 22 13 h _ (by decide) (by decide) o, head_min 22 13 h _ (by decide) o, head_hdr 22 13 h _ hw (by decide) o,
    decodeS_encode]
  rfl

theorem faddD (h : Hdr) (f) : Statement (.faddD h f) := by
  intro hw w e
  cases e
  refine ⟨h.sp, h.ext.toNat, ?_⟩
  have o := operandBits_S f
  simp only [decodeInsn, head_maj 22 16 h _ (by decide) (by decide) o, head_min 22 16 h _ (by decide) o, head_hdr 22 16 h _ hw (by decide) o,
    decodeS_encode]
  rfl

theorem fsubD (h : Hdr) (f) : Statement (.fsubD h f) := by
  intro hw w e
  cases e
  refine ⟨h.sp, h.ext.toNat, ?_⟩
  have o := operandBits_S f
  simp only [decodeInsn, head_maj 22 17 h _ (by decide) (by decide) o, head_min 22 17 h _ (by decide) o, head_hdr 22 17 h _ hw (by decide) o,
    decodeS_encode]
  rfl

theorem fmulD (h : Hdr) (f) : Statement (.fmulD h f) := by
  intro hw w e
  cases e
  refine ⟨h.sp, h.ext.toNat, ?_⟩
  have o := operandBits_S f
  simp only [decodeInsn, head_maj 22 18 h _ (by decide) (by decide) o, head_min 22 18 h _ (by decide) o, head_hdr 22 18 h _ hw (by decide) o,
    decodeS_encode]
  rfl

theorem fdivD (h : Hdr) (f) : Statement (.fdivD h f) := by
  intro hw w e
  cases e
  refine ⟨h.sp, h.ext.toNat, ?_⟩
  have o := operandBits_S f
  simp only [decodeInsn, head_maj 22 19 h _ (by decide) (by decide) o, head_min 22 19 h _ (by decide) o, head_hdr 22 19 h _ hw (by decide) o,
    decodeS_encode]
  rfl

theorem fsqrtD (h : Hdr) (f) : Statement (.fsqrtD h f) := by
  intro hw w e
  cases e
  refine ⟨h.sp, h.ext.toNat, ?_⟩
  have o := operandBits_S f
  simp only [decodeInsn, head_maj 22 20 h _ (by decide) (by decide) o, head_min 22 20 h _ (by decide) o, head_hdr 22 20 h _ hw (by decide) o,
    decodeS_encode]
  rfl

theorem cvtDi (h : Hdr) (f) : Statement (.cvtDi h f) := by
  intro hw w e
  cases e
  refine ⟨h.sp, h.ext.toNat, ?_⟩
  have o := operandBits_S f
  simp only [decodeInsn, head_maj 22 21 h _ (by decide) (by decide) o, head_min 22 21 h _ (by decide) o, head_hdr 22 21 h _ hw (by decide) o,
    decodeS_encode]
  rfl

theorem cvtId (h : Hdr) (f) : Statement (.cvtId h f) := by
  intro hw w e
  cases e
  refine ⟨h.sp, h.ext.toNat, ?_⟩
  have o := operandBits_S f
  simp only [decodeInsn, head_maj 22 22 h _ (by decide) (by decide) o, head_min 22 22 h _ (by decide) o, head_hdr 22 22 h _ hw (by decide) o,
    decodeS_encode]
  rfl

theorem tbegin h gd xi hoff : Statement (.tbegin h gd xi hoff) := by
  intro hw w e
  have hx := bNat_lt h.x; have hp := h.ps.isLt
  have l_gd := gd.isLt
  have l_hoff := hoff.isLt
  have l_xi := bNat_lt xi
  have o : operandBits (gd.toNat * 2 ^ 44 + bNat xi * 2 ^ 43 + hoff.toNat * 2 ^ 27) := by unfold operandBits; omega
  have ew : w = encodeHead 48 0 h + (gd.toNat * 2 ^ 44 + bNat xi * 2 ^ 43 + hoff.toNat * 2 ^ 27) := by cases e; omega
  clear e
  refine ⟨h.sp, h.ext.toNat, ?_⟩
  have k0 := head_hdr 48 0 h _ hw (by decide) o
  have k1 := head_maj 48 0 h _ (by decide) (by decide) o
  have k2 := head_min 48 0 h _ (by decide) o
  rw [← ew] at k0 k1 k2
  unfold encodeHead at ew
  have b_gd : fBits w 47 44 = gd := by apply fBits_eq; omega
  have b_hoff : fBits w 42 27 = hoff := by apply fBits_eq; omega
  have b_xi : fBool w 43 = xi := by apply fBool_eq; omega
  simp only [decodeInsn, k0, k1, k2]
  simp [insnT, b_gd, b_xi, b_hoff]

theorem tcommit h gd : Statement (.tcommit h gd) := by
  intro hw w e
  have hx := bNat_lt h.x; have hp := h.ps.isLt
  have l_gd := gd.isLt
  have o : operandBits (gd.toNat * 2 ^ 44) := by unfold operandBits; omega
  have ew : w = encodeHead 48 1 h + (gd.toNat * 2 ^ 44) := by cases e; omega
  clear e
  refine ⟨h.sp, h.ext.toNat, ?_⟩
  have k0 := head_hdr 48 1 h _ hw (by decide) o
  have k1 := head_maj 48 1 h _ (by decide) (by decide) o
  have k2 := head_min 48 1 h _ (by decide) o
  rw [← ew] at k0 k1 k2
  unfold encodeHead at ew
  have b_gd : fBits w 47 44 = gd := by apply fBits_eq; omega
  simp only [decodeInsn, k0, k1, k2]
  simp [insnT, b_gd]

theorem tabort h code : Statement (.tabort h code) := by
  intro hw w e
  have hx := bNat_lt h.x; have hp := h.ps.isLt
  have l_code := code.isLt
  have o : operandBits (code.toNat * 2 ^ 36) := by unfold operandBits; omega
  have ew : w = encodeHead 48 2 h + (code.toNat * 2 ^ 36) := by cases e; omega
  clear e
  refine ⟨h.sp, h.ext.toNat, ?_⟩
  have k0 := head_hdr 48 2 h _ hw (by decide) o
  have k1 := head_maj 48 2 h _ (by decide) (by decide) o
  have k2 := head_min 48 2 h _ (by decide) o
  rw [← ew] at k0 k1 k2
  unfold encodeHead at ew
  have b_code : fBits w 43 36 = code := by apply fBits_eq; omega
  simp only [decodeInsn, k0, k1, k2]
  simp [insnT, b_code]

theorem tstat h gd : Statement (.tstat h gd) := by
  intro hw w e
  have hx := bNat_lt h.x; have hp := h.ps.isLt
  have l_gd := gd.isLt
  have o : operandBits (gd.toNat * 2 ^ 44) := by unfold operandBits; omega
  have ew : w = encodeHead 48 3 h + (gd.toNat * 2 ^ 44) := by cases e; omega
  clear e
  refine ⟨h.sp, h.ext.toNat, ?_⟩
  have k0 := head_hdr 48 3 h _ hw (by decide) o
  have k1 := head_maj 48 3 h _ (by decide) (by decide) o
  have k2 := head_min 48 3 h _ (by decide) o
  rw [← ew] at k0 k1 k2
  unfold encodeHead at ew
  have b_gd : fBits w 47 44 = gd := by apply fBits_eq; omega
  simp only [decodeInsn, k0, k1, k2]
  simp [insnT, b_gd]

theorem logApplyDone x0 : Statement (.logApplyDone x0) := of_none rfl

theorem slotFreeTimer x0 : Statement (.slotFreeTimer x0) := of_none rfl

theorem txLifetimeExpire x0 : Statement (.txLifetimeExpire x0) := of_none rfl

theorem prepareRecordDone x0 : Statement (.prepareRecordDone x0) := of_none rfl

theorem voteTimeout x0 : Statement (.voteTimeout x0) := of_none rfl

theorem indoubtQuery x0 : Statement (.indoubtQuery x0) := of_none rfl

theorem txIndoubt x0 : Statement (.txIndoubt x0) := of_none rfl

theorem txuRecbaseWrite x0 : Statement (.txuRecbaseWrite x0) := of_none rfl

theorem xtOpen x0 x1 x2 x3 : Statement (.xtOpen x0 x1 x2 x3) := of_none rfl

theorem xtGrant x0 x1 x2 x3 x4 x5 : Statement (.xtGrant x0 x1 x2 x3 x4 x5) := of_none rfl

theorem xtReady x0 x1 : Statement (.xtReady x0 x1) := of_none rfl

theorem xtDeny x0 x1 x2 : Statement (.xtDeny x0 x1 x2) := of_none rfl

theorem xtCommitreq x0 x1 : Statement (.xtCommitreq x0 x1) := of_none rfl

theorem xtPrepare x0 x1 : Statement (.xtPrepare x0 x1) := of_none rfl

theorem xtVote x0 x1 x2 x3 x4 : Statement (.xtVote x0 x1 x2 x3 x4) := of_none rfl

theorem xtCommit x0 x1 : Statement (.xtCommit x0 x1) := of_none rfl

theorem xtAbort x0 x1 x2 : Statement (.xtAbort x0 x1 x2) := of_none rfl

theorem xtAbortreq x0 x1 x2 : Statement (.xtAbortreq x0 x1 x2) := of_none rfl

theorem xtDone x0 x1 : Statement (.xtDone x0 x1) := of_none rfl

theorem xtEpoch x0 : Statement (.xtEpoch x0) := of_none rfl

theorem xtQuery x0 x1 x2 x3 : Statement (.xtQuery x0 x1 x2 x3) := of_none rfl

theorem dead h aa gl : Statement (.dead h aa gl) := by
  intro hw w e
  have hx := bNat_lt h.x; have hp := h.ps.isLt
  have l_aa := aa.isLt
  have l_gl := gl.isLt
  have o : operandBits (aa.toNat * 2 ^ 45 + gl.toNat * 2 ^ 41) := by unfold operandBits; omega
  have ew : w = encodeHead 52 0 h + (aa.toNat * 2 ^ 45 + gl.toNat * 2 ^ 41) := by cases e; omega
  clear e
  refine ⟨h.sp, h.ext.toNat, ?_⟩
  have k0 := head_hdr 52 0 h _ hw (by decide) o
  have k1 := head_maj 52 0 h _ (by decide) (by decide) o
  have k2 := head_min 52 0 h _ (by decide) o
  rw [← ew] at k0 k1 k2
  unfold encodeHead at ew
  have b_aa : fBits w 47 45 = aa := by apply fBits_eq; omega
  have b_gl : fBits w 44 41 = gl := by apply fBits_eq; omega
  simp only [decodeInsn, k0, k1, k2]
  simp [insnT, b_aa, b_gl]

theorem pin h aa gl : Statement (.pin h aa gl) := by
  intro hw w e
  have hx := bNat_lt h.x; have hp := h.ps.isLt
  have l_aa := aa.isLt
  have l_gl := gl.isLt
  have o : operandBits (aa.toNat * 2 ^ 45 + gl.toNat * 2 ^ 41) := by unfold operandBits; omega
  have ew : w = encodeHead 52 1 h + (aa.toNat * 2 ^ 45 + gl.toNat * 2 ^ 41) := by cases e; omega
  clear e
  refine ⟨h.sp, h.ext.toNat, ?_⟩
  have k0 := head_hdr 52 1 h _ hw (by decide) o
  have k1 := head_maj 52 1 h _ (by decide) (by decide) o
  have k2 := head_min 52 1 h _ (by decide) o
  rw [← ew] at k0 k1 k2
  unfold encodeHead at ew
  have b_aa : fBits w 47 45 = aa := by apply fBits_eq; omega
  have b_gl : fBits w 44 41 = gl := by apply fBits_eq; omega
  simp only [decodeInsn, k0, k1, k2]
  simp [insnT, b_aa, b_gl]

theorem pinFillDone x0 : Statement (.pinFillDone x0) := of_none rfl

theorem unpin h aa gl : Statement (.unpin h aa gl) := by
  intro hw w e
  have hx := bNat_lt h.x; have hp := h.ps.isLt
  have l_aa := aa.isLt
  have l_gl := gl.isLt
  have o : operandBits (aa.toNat * 2 ^ 45 + gl.toNat * 2 ^ 41) := by unfold operandBits; omega
  have ew : w = encodeHead 52 2 h + (aa.toNat * 2 ^ 45 + gl.toNat * 2 ^ 41) := by cases e; omega
  clear e
  refine ⟨h.sp, h.ext.toNat, ?_⟩
  have k0 := head_hdr 52 2 h _ hw (by decide) o
  have k1 := head_maj 52 2 h _ (by decide) (by decide) o
  have k2 := head_min 52 2 h _ (by decide) o
  rw [← ew] at k0 k1 k2
  unfold encodeHead at ew
  have b_aa : fBits w 47 45 = aa := by apply fBits_eq; omega
  have b_gl : fBits w 44 41 = gl := by apply fBits_eq; omega
  simp only [decodeInsn, k0, k1, k2]
  simp [insnT, b_aa, b_gl]

theorem prefetch h aa gl dst : Statement (.prefetch h aa gl dst) := by
  intro hw w e
  have hx := bNat_lt h.x; have hp := h.ps.isLt
  have l_aa := aa.isLt
  have l_gl := gl.isLt
  have l_dst := bNat_lt dst
  have o : operandBits (aa.toNat * 2 ^ 45 + gl.toNat * 2 ^ 41 + bNat dst * 2 ^ 40) := by unfold operandBits; omega
  have ew : w = encodeHead 52 3 h + (aa.toNat * 2 ^ 45 + gl.toNat * 2 ^ 41 + bNat dst * 2 ^ 40) := by cases e; omega
  clear e
  refine ⟨h.sp, h.ext.toNat, ?_⟩
  have k0 := head_hdr 52 3 h _ hw (by decide) o
  have k1 := head_maj 52 3 h _ (by decide) (by decide) o
  have k2 := head_min 52 3 h _ (by decide) o
  rw [← ew] at k0 k1 k2
  unfold encodeHead at ew
  have b_aa : fBits w 47 45 = aa := by apply fBits_eq; omega
  have b_gl : fBits w 44 41 = gl := by apply fBits_eq; omega
  have b_dst : fBool w 40 = dst := by apply fBool_eq; omega
  simp only [decodeInsn, k0, k1, k2]
  simp [insnT, b_aa, b_gl, b_dst]

theorem svcCall h func ga gd : Statement (.svcCall h func ga gd) := by
  intro hw w e
  have hx := bNat_lt h.x; have hp := h.ps.isLt
  have l_func := func.isLt
  have l_ga := ga.isLt
  have l_gd := gd.isLt
  have o : operandBits (func.toNat * 2 ^ 32 + ga.toNat * 2 ^ 28 + gd.toNat * 2 ^ 24) := by unfold operandBits; omega
  have ew : w = encodeHead 56 0 h + (func.toNat * 2 ^ 32 + ga.toNat * 2 ^ 28 + gd.toNat * 2 ^ 24) := by cases e; omega
  clear e
  refine ⟨h.sp, h.ext.toNat, ?_⟩
  have k0 := head_hdr 56 0 h _ hw (by decide) o
  have k1 := head_maj 56 0 h _ (by decide) (by decide) o
  have k2 := head_min 56 0 h _ (by decide) o
  rw [← ew] at k0 k1 k2
  unfold encodeHead at ew
  have b_func : fBits w 47 32 = func := by apply fBits_eq; omega
  have b_ga : fBits w 31 28 = ga := by apply fBits_eq; omega
  have b_gd : fBits w 27 24 = gd := by apply fBits_eq; omega
  simp only [decodeInsn, k0, k1, k2]
  simp [insnT, b_func, b_ga, b_gd]

theorem svcPost h func ga : Statement (.svcPost h func ga) := by
  intro hw w e
  have hx := bNat_lt h.x; have hp := h.ps.isLt
  have l_func := func.isLt
  have l_ga := ga.isLt
  have o : operandBits (func.toNat * 2 ^ 32 + ga.toNat * 2 ^ 28) := by unfold operandBits; omega
  have ew : w = encodeHead 56 1 h + (func.toNat * 2 ^ 32 + ga.toNat * 2 ^ 28) := by cases e; omega
  clear e
  refine ⟨h.sp, h.ext.toNat, ?_⟩
  have k0 := head_hdr 56 1 h _ hw (by decide) o
  have k1 := head_maj 56 1 h _ (by decide) (by decide) o
  have k2 := head_min 56 1 h _ (by decide) o
  rw [← ew] at k0 k1 k2
  unfold encodeHead at ew
  have b_func : fBits w 47 32 = func := by apply fBits_eq; omega
  have b_ga : fBits w 31 28 = ga := by apply fBits_eq; omega
  simp only [decodeInsn, k0, k1, k2]
  simp [insnT, b_func, b_ga]

theorem svcAnswer : Statement (.svcAnswer) := of_none rfl

theorem rdreg h gd aa : Statement (.rdreg h gd aa) := by
  intro hw w e
  have hx := bNat_lt h.x; have hp := h.ps.isLt
  have l_gd := gd.isLt
  have l_aa := aa.isLt
  have o : operandBits (gd.toNat * 2 ^ 44 + aa.toNat * 2 ^ 41) := by unfold operandBits; omega
  have ew : w = encodeHead 60 0 h + (gd.toNat * 2 ^ 44 + aa.toNat * 2 ^ 41) := by cases e; omega
  clear e
  refine ⟨h.sp, h.ext.toNat, ?_⟩
  have k0 := head_hdr 60 0 h _ hw (by decide) o
  have k1 := head_maj 60 0 h _ (by decide) (by decide) o
  have k2 := head_min 60 0 h _ (by decide) o
  rw [← ew] at k0 k1 k2
  unfold encodeHead at ew
  have b_gd : fBits w 47 44 = gd := by apply fBits_eq; omega
  have b_aa : fBits w 43 41 = aa := by apply fBits_eq; omega
  simp only [decodeInsn, k0, k1, k2]
  simp [insnT, b_gd, b_aa]

theorem wrreg h gs aa : Statement (.wrreg h gs aa) := by
  intro hw w e
  have hx := bNat_lt h.x; have hp := h.ps.isLt
  have l_gs := gs.isLt
  have l_aa := aa.isLt
  have o : operandBits (gs.toNat * 2 ^ 44 + aa.toNat * 2 ^ 41) := by unfold operandBits; omega
  have ew : w = encodeHead 60 1 h + (gs.toNat * 2 ^ 44 + aa.toNat * 2 ^ 41) := by cases e; omega
  clear e
  refine ⟨h.sp, h.ext.toNat, ?_⟩
  have k0 := head_hdr 60 1 h _ hw (by decide) o
  have k1 := head_maj 60 1 h _ (by decide) (by decide) o
  have k2 := head_min 60 1 h _ (by decide) o
  rw [← ew] at k0 k1 k2
  unfold encodeHead at ew
  have b_gs : fBits w 47 44 = gs := by apply fBits_eq; omega
  have b_aa : fBits w 43 41 = aa := by apply fBits_eq; omega
  simp only [decodeInsn, k0, k1, k2]
  simp [insnT, b_gs, b_aa]

theorem seed h page gs : Statement (.seed h page gs) := by
  intro hw w e
  have hx := bNat_lt h.x; have hp := h.ps.isLt
  have l_page := page.isLt
  have l_gs := gs.isLt
  have o : operandBits (page.toNat * 2 ^ 40 + gs.toNat * 2 ^ 36) := by unfold operandBits; omega
  have ew : w = encodeHead 60 2 h + (page.toNat * 2 ^ 40 + gs.toNat * 2 ^ 36) := by cases e; omega
  clear e
  refine ⟨h.sp, h.ext.toNat, ?_⟩
  have k0 := head_hdr 60 2 h _ hw (by decide) o
  have k1 := head_maj 60 2 h _ (by decide) (by decide) o
  have k2 := head_min 60 2 h _ (by decide) o
  rw [← ew] at k0 k1 k2
  unfold encodeHead at ew
  have b_page : fBits w 47 40 = page := by apply fBits_eq; omega
  have b_gs : fBits w 39 36 = gs := by apply fBits_eq; omega
  simp only [decodeInsn, k0, k1, k2]
  simp [insnT, b_page, b_gs]

theorem jetEngineReset x0 : Statement (.jetEngineReset x0) := of_none rfl

theorem jetResetDone x0 : Statement (.jetResetDone x0) := of_none rfl

theorem slcEngineReset x0 : Statement (.slcEngineReset x0) := of_none rfl

theorem slcResetDone x0 : Statement (.slcResetDone x0) := of_none rfl

theorem slcPause x0 x1 : Statement (.slcPause x0 x1) := of_none rfl

theorem pauseComplete x0 : Statement (.pauseComplete x0) := of_none rfl

theorem pauseRelease x0 : Statement (.pauseRelease x0) := of_none rfl

theorem slcPreqWrite x0 x1 : Statement (.slcPreqWrite x0 x1) := of_none rfl

theorem burstSample x0 : Statement (.burstSample x0) := of_none rfl

theorem busError x0 x1 : Statement (.busError x0 x1) := of_none rfl

theorem sluiceReadTimeout x0 : Statement (.sluiceReadTimeout x0) := of_none rfl

theorem busStopDrainDone : Statement (.busStopDrainDone) := of_none rfl

theorem slcCont x0 : Statement (.slcCont x0) := of_none rfl

theorem slcAbandon x0 : Statement (.slcAbandon x0) := of_none rfl

theorem slcCfgWrite x0 x1 : Statement (.slcCfgWrite x0 x1) := of_none rfl

theorem linkPowerUp x0 : Statement (.linkPowerUp x0) := of_none rfl

theorem detectDone x0 x1 : Statement (.detectDone x0 x1) := of_none rfl

theorem detectRetry x0 x1 : Statement (.detectRetry x0 x1) := of_none rfl

theorem loopMeasureDone x0 x1 : Statement (.loopMeasureDone x0 x1) := of_none rfl

theorem qualifyWindowPass x0 : Statement (.qualifyWindowPass x0) := of_none rfl

theorem uncorrectableCodeword x0 : Statement (.uncorrectableCodeword x0) := of_none rfl

theorem requal : Statement (.requal) := of_none rfl

theorem trainingDone x0 x1 x2 x3 x4 : Statement (.trainingDone x0 x1 x2 x3 x4) := of_none rfl

theorem trainTimeout x0 : Statement (.trainTimeout x0) := of_none rfl

theorem failedRetry x0 : Statement (.failedRetry x0) := of_none rfl

theorem linkLoss x0 : Statement (.linkLoss x0) := of_none rfl

theorem laneDegrade x0 x1 : Statement (.laneDegrade x0 x1) := of_none rfl

theorem laneRetry x0 x1 : Statement (.laneRetry x0 x1) := of_none rfl

theorem aqdRetrain x0 : Statement (.aqdRetrain x0) := of_none rfl

theorem aqdDisable x0 x1 : Statement (.aqdDisable x0 x1) := of_none rfl

theorem frameRd x0 x1 : Statement (.frameRd x0 x1) := of_none rfl

theorem frameWr x0 x1 : Statement (.frameWr x0 x1) := of_none rfl

theorem frameWrp x0 x1 : Statement (.frameWrp x0 x1) := of_none rfl

theorem frameAtom x0 x1 : Statement (.frameAtom x0 x1) := of_none rfl

theorem frameResp x0 x1 : Statement (.frameResp x0 x1) := of_none rfl

theorem frameRsf x0 x1 : Statement (.frameRsf x0 x1) := of_none rfl

theorem frameLctl x0 x1 : Statement (.frameLctl x0 x1) := of_none rfl

theorem frameTrn x0 x1 : Statement (.frameTrn x0 x1) := of_none rfl

theorem replay x0 : Statement (.replay x0) := of_none rfl

theorem lackTimer x0 : Statement (.lackTimer x0) := of_none rfl

theorem rsfSend : Statement (.rsfSend) := of_none rfl

theorem routeAgeOut x0 x1 : Statement (.routeAgeOut x0 x1) := of_none rfl

theorem remoteTimeout x0 : Statement (.remoteTimeout x0) := of_none rfl

theorem nodeWrite x0 : Statement (.nodeWrite x0) := of_none rfl

theorem weirRefill x0 : Statement (.weirRefill x0) := of_none rfl

theorem weirFrameSelect x0 : Statement (.weirFrameSelect x0) := of_none rfl

theorem weiQWrite x0 x1 x2 : Statement (.weiQWrite x0 x1 x2) := of_none rfl

theorem weiClsqWrite x0 x1 : Statement (.weiClsqWrite x0 x1) := of_none rfl

theorem weiGateWrite x0 x1 : Statement (.weiGateWrite x0 x1) := of_none rfl

theorem ppsEdge x0 x1 : Statement (.ppsEdge x0 x1) := of_none rfl

theorem wallHoldover : Statement (.wallHoldover) := of_none rfl

theorem timWallWrite x0 : Statement (.timWallWrite x0) := of_none rfl

theorem tideValueAccept x0 : Statement (.tideValueAccept x0) := of_none rfl

theorem tideStall : Statement (.tideStall) := of_none rfl

theorem tideHoldoverStep : Statement (.tideHoldoverStep) := of_none rfl

theorem rebase : Statement (.rebase) := of_none rfl

theorem timEvt0Write x0 x1 : Statement (.timEvt0Write x0 x1) := of_none rfl

theorem weirGate x0 : Statement (.weirGate x0) := of_none rfl

theorem deferOpen : Statement (.deferOpen) := of_none rfl

theorem deferClose : Statement (.deferClose) := of_none rfl

theorem scrubOpen : Statement (.scrubOpen) := of_none rfl

theorem scrubClose : Statement (.scrubClose) := of_none rfl

theorem calOpen : Statement (.calOpen) := of_none rfl

theorem calClose : Statement (.calClose) := of_none rfl

theorem censusSnap x0 : Statement (.censusSnap x0) := of_none rfl

theorem overlay x0 : Statement (.overlay x0) := of_none rfl

theorem plumeGo x0 : Statement (.plumeGo x0) := of_none rfl

theorem domainOffRequest x0 x1 : Statement (.domainOffRequest x0 x1) := of_none rfl

theorem domainOnRequest x0 x1 : Statement (.domainOnRequest x0 x1) := of_none rfl

theorem wakeRampStart x0 : Statement (.wakeRampStart x0) := of_none rfl

theorem wakeRampEnd x0 x1 : Statement (.wakeRampEnd x0 x1) := of_none rfl

theorem telemetryFrame x0 x1 : Statement (.telemetryFrame x0 x1) := of_none rfl

theorem telemetryMissing x0 : Statement (.telemetryMissing x0) := of_none rfl

theorem capLevelDown x0 : Statement (.capLevelDown x0) := of_none rfl

theorem darkenStart x0 : Statement (.darkenStart x0) := of_none rfl

theorem domainDarkDone x0 : Statement (.domainDarkDone x0) := of_none rfl

theorem reenable x0 : Statement (.reenable x0) := of_none rfl

theorem setmvWrite x0 x1 : Statement (.setmvWrite x0 x1) := of_none rfl

theorem sensorSample x0 : Statement (.sensorSample x0) := of_none rfl

theorem thermalLevelTimer x0 : Statement (.thermalLevelTimer x0) := of_none rfl

theorem powerCapStep x0 : Statement (.powerCapStep x0) := of_none rfl

theorem tripGateTimeout : Statement (.tripGateTimeout) := of_none rfl

theorem sensorReturn x0 : Statement (.sensorReturn x0) := of_none rfl

theorem calMeasurementDone x0 x1 x2 x3 : Statement (.calMeasurementDone x0 x1 x2 x3) := of_none rfl

theorem trimApply x0 : Statement (.trimApply x0) := of_none rfl

theorem trainingPointDone x0 x1 : Statement (.trainingPointDone x0 x1) := of_none rfl

theorem sweepDone x0 : Statement (.sweepDone x0) := of_none rfl

theorem driftCheckDue x0 : Statement (.driftCheckDue x0) := of_none rfl

theorem driftCheckSkip x0 : Statement (.driftCheckSkip x0) := of_none rfl

theorem zqRecalDue x0 : Statement (.zqRecalDue x0) := of_none rfl

theorem calWindowWaitExpire x0 : Statement (.calWindowWaitExpire x0) := of_none rfl

theorem calStarved x0 : Statement (.calStarved x0) := of_none rfl

theorem recal x0 : Statement (.recal x0) := of_none rfl

theorem retrain x0 : Statement (.retrain x0) := of_none rfl

theorem fspRateWrite x0 : Statement (.fspRateWrite x0) := of_none rfl

theorem fspReq x0 : Statement (.fspReq x0) := of_none rfl

theorem fspHoldEnd : Statement (.fspHoldEnd) := of_none rfl

theorem fspPadLock : Statement (.fspPadLock) := of_none rfl

theorem pstateRequest x0 : Statement (.pstateRequest x0) := of_none rfl

theorem pstateEntryTimeout : Statement (.pstateEntryTimeout) := of_none rfl

theorem idleEnter : Statement (.idleEnter) := of_none rfl

theorem pstateWake x0 : Statement (.pstateWake x0) := of_none rfl

theorem tierStoreWrite x0 x1 : Statement (.tierStoreWrite x0 x1) := of_none rfl

theorem tierApply : Statement (.tierApply) := of_none rfl

theorem swreq : Statement (.swreq) := of_none rfl

theorem hello x0 x1 : Statement (.hello x0 x1) := of_none rfl

theorem helloResend : Statement (.helloResend) := of_none rfl

theorem electionTimeout : Statement (.electionTimeout) := of_none rfl

theorem role x0 x1 x2 x3 : Statement (.role x0 x1 x2 x3) := of_none rfl

theorem start x0 x1 : Statement (.start x0 x1) := of_none rfl

theorem startSend : Statement (.startSend) := of_none rfl

theorem time x0 x1 x2 : Statement (.time x0 x1 x2) := of_none rfl

theorem timeSend : Statement (.timeSend) := of_none rfl

theorem casLinkDown : Statement (.casLinkDown) := of_none rfl

theorem mgrLost : Statement (.mgrLost) := of_none rfl

theorem setcfg x0 x1 x2 : Statement (.setcfg x0 x1 x2) := of_none rfl

theorem telem x0 x1 x2 x3 x4 : Statement (.telem x0 x1 x2 x3 x4) := of_none rfl

theorem telemSend : Statement (.telemSend) := of_none rfl

theorem capAllocate : Statement (.capAllocate) := of_none rfl

theorem ringrpt x0 x1 x2 : Statement (.ringrpt x0 x1 x2) := of_none rfl

theorem poolAlloc x0 : Statement (.poolAlloc x0) := of_none rfl

theorem poolAddref x0 : Statement (.poolAddref x0) := of_none rfl

theorem poolRelease x0 : Statement (.poolRelease x0) := of_none rfl

theorem poolPublish x0 : Statement (.poolPublish x0) := of_none rfl

theorem poolLookup x0 x1 : Statement (.poolLookup x0 x1) := of_none rfl

theorem poolEvict x0 x1 x2 : Statement (.poolEvict x0 x1 x2) := of_none rfl

theorem poolFetch x0 x1 : Statement (.poolFetch x0 x1) := of_none rfl

theorem poolAddr x0 : Statement (.poolAddr x0) := of_none rfl

theorem censusSnapCall x0 : Statement (.censusSnapCall x0) := of_none rfl

theorem mailboxSubmit x0 x1 : Statement (.mailboxSubmit x0 x1) := of_none rfl

theorem bmcMessage x0 : Statement (.bmcMessage x0) := of_none rfl

theorem status : Statement (.status) := of_none rfl

theorem assayRepair x0 x1 x2 : Statement (.assayRepair x0 x1 x2) := of_none rfl

theorem assayTest x0 x1 : Statement (.assayTest x0 x1) := of_none rfl

theorem svcConfigRead x0 : Statement (.svcConfigRead x0) := of_none rfl

theorem keySlotWrite x0 x1 x2 : Statement (.keySlotWrite x0 x1 x2) := of_none rfl

theorem fwLoad x0 : Statement (.fwLoad x0) := of_none rfl

theorem plumeStart x0 : Statement (.plumeStart x0) := of_none rfl

theorem plumeCancel x0 : Statement (.plumeCancel x0) := of_none rfl

theorem plAnnounce x0 x1 : Statement (.plAnnounce x0 x1) := of_none rfl

theorem plData x0 x1 x2 x3 x4 : Statement (.plData x0 x1 x2 x3 x4) := of_none rfl

theorem plRoll x0 x1 x2 : Statement (.plRoll x0 x1 x2) := of_none rfl

theorem plMiss x0 x1 x2 x3 : Statement (.plMiss x0 x1 x2 x3) := of_none rfl

theorem rollwaitExpire : Statement (.rollwaitExpire) := of_none rfl

theorem plArm x0 x1 x2 : Statement (.plArm x0 x1 x2) := of_none rfl

theorem armwaitExpire : Statement (.armwaitExpire) := of_none rfl

theorem plReady x0 x1 x2 x3 : Statement (.plReady x0 x1 x2 x3) := of_none rfl

theorem plGo x0 x1 x2 x3 x4 : Statement (.plGo x0 x1 x2 x3 x4) := of_none rfl

theorem plCancel x0 x1 : Statement (.plCancel x0 x1) := of_none rfl

theorem eventCollect : Statement (.eventCollect) := of_none rfl

theorem eventQueueWrite x0 : Statement (.eventQueueWrite x0) := of_none rfl

theorem consWrite x0 x1 : Statement (.consWrite x0 x1) := of_none rfl

theorem glbEvqWrite x0 x1 : Statement (.glbEvqWrite x0 x1) := of_none rfl

theorem freeze : Statement (.freeze) := of_none rfl

theorem rearm x0 : Statement (.rearm x0) := of_none rfl

theorem sedAggStart x0 : Statement (.sedAggStart x0) := of_none rfl

theorem sed x0 x1 x2 x3 : Statement (.sed x0 x1 x2 x3) := of_none rfl

theorem sedWorkerTimeout : Statement (.sedWorkerTimeout) := of_none rfl

theorem wrapperInstructionLoad x0 : Statement (.wrapperInstructionLoad x0) := of_none rfl

theorem registerRead x0 x1 x2 : Statement (.registerRead x0 x1 x2) := of_none rfl

theorem rstNRise x0 : Statement (.rstNRise x0) := of_none rfl

theorem responseBeatTransfer x0 : Statement (.responseBeatTransfer x0) := of_none rfl

theorem frameCheckFail x0 : Statement (.frameCheckFail x0) := of_none rfl

theorem tideValueDiscard : Statement .tideValueDiscard := of_none rfl

theorem censusReadMissed x0 : Statement (.censusReadMissed x0) := of_none rfl

theorem plReadyTimeout x0 : Statement (.plReadyTimeout x0) := of_none rfl

theorem cascadeForward x0 x1 x2 x3 x4 : Statement (.cascadeForward x0 x1 x2 x3 x4) := of_none rfl

theorem wrstnAssert : Statement (.wrstnAssert) := of_none rfl

theorem illegalOpcode x0 x1 x2 : Statement (.illegalOpcode x0 x1 x2) := of_none rfl

end RoundTrip

end Sys2Proof.Laws
end

