-- ==== Sys2Proof/Tests/Slice0.lean ====
section
/-! SUPPORT. Sys2Proof/Tests/Slice0.lean: the model's own tests: the spec's worked examples, what WellFormed refuses, and for each statement with hypotheses a
state and operands that meet them (test_meets_<statement>). -/
namespace Sys2Proof.Tests
open Sys2Proof Sys2Proof.Machine

set_option Elab.async false

/-! ## States and instructions that the witnesses use -/

/-- The reset state with spout n in RUN: its unit powered, its program line at 0x1000 held, a command of maintenance privilege. -/
def runs (n : Nat) : State :=
  ((State.reset.setDom (domOfSpout n) 2).setSpSt n 2).updSp n fun y =>
    { y with pc := 0x1000, lines := [(0x1000, List.replicate 256 0)], cmd := { y.cmd with priv := 2 } }

/-- The reset state after bring-up as far as register access goes: phase 8 and every domain ON. -/
def up : State := (foldS (List.range 66) State.reset fun t d => t.setDom d 2).wr F.GLB_BOOTSTAT_PHASE 0 8

/-- An instruction of spout n, executed always, without extension word. -/
def hdr (n : Sp) : Hdr := { sp := n, ps := 0, x := false, ext := 0 }

/-- A form D instruction of zeros. -/
def formD : FormD := { od := 0, dd := 0, oa := 0, da := 0, ob := 0, db := 0, rm := 0, sat := false, ac := 0, gx := 0, px := 0, imm := 0 }

/-- A message from instance src to all or to this instance. -/
def msg (src : Inst) (bc : Bool) : CasHdr := { src := src, dst := 0, bc := bc, pri := false, seq := 0, epoch := 0 }

/-- A form S instruction with registers 1, 2, 3 and rounding mode rm. -/
def formS (rm : BitVec 3) : FormS := { gd := 1, ga := 2, gb := 3, immb := false, imm := 0, pd := 1, pw := true, rm := rm }

/-- Whether an instruction of class c that names u issues at spout n, as a Bool. -/
def may (s : State) (n : Nat) (c : Cls) (u : Use) : Bool :=
  let x := s.sp n
  s.spSt n == 2 && x.prog.isNone && x.finish.isNone && x.waiting == .none && x.stopReq.isNone && x.txAbort.isNone && x.holds x.pc && s.domOn (domOfSpout n)
    && s.power.shut == 0 && s.phase != 9 && (32 ≤ n || (!s.sluice.draining && !s.flag F.SLC_CTL_PAUSE n)) && (c != .prv || x.cmd.priv == 2)
    && c.allowed (spKind n) && !u.illegal n x && u.ready x

/-- `may` says what `State.issues` asks for. -/
theorem issues_of_may {s : State} {h : Hdr} {c : Cls} {u : Use} (hp : h.ps = 0) (hx : h.x = false) (hq : (s.sp h.sp.val).pred 0 = true)
    (w : may s h.sp.val c u = true) : s.issues h c u := by
  simp only [may, Bool.and_eq_true, Bool.or_eq_true, Option.isNone_iff_eq_none, beq_iff_eq, Bool.not_eq_true', bne_iff_ne, decide_eq_true_eq] at w
  obtain ⟨⟨⟨⟨⟨⟨⟨⟨⟨⟨⟨⟨⟨⟨h1, h2⟩, h3⟩, h4⟩, h5⟩, h6⟩, h7⟩, h8⟩, h8a⟩, h8b⟩, h9⟩, h10⟩, h11⟩, h12⟩, h13⟩ := w
  refine ⟨⟨h1, h2, h3, h4, h5, h6, h8, h8a, h8b, fun hn => ?_⟩, by simp [Spout.hasWords, hx, h7], fun hc => ?_, h11, by simp [hp], h12,
    by rw [hp]; exact hq, h13⟩
  · rcases h9 with h9 | h9
    · omega
    · exact h9
  · rcases h10 with h10 | h10
    · exact absurd hc h10
    · exact h10

/-- Spout n in RUN after `f`. -/
def runsW (n : Nat) (f : Spout → Spout) : State := (runs n).updSp n f

/-! ## Witnesses: states and operands that meet every hypothesis of a statement's clauses -/

theorem test_meets_StepRunsTheFrontCommand : ∃ c rest, ({ State.reset with pending := [.zqRecalDue 127] } : State).pending = c :: rest := ⟨_, _, rfl⟩

theorem test_meets_EmptyQueueIdles : State.reset.pending = [] ∧ State.reset.phase = 0 ∧ up.phase ≠ 0 := by decide +kernel

theorem test_meets_RegisterSetupCompletes :
    may (runs 0) 0 .ctl Use.none ∧ may (runs 160) 160 .ctl { Use.none with sels := [27, 0] } := by
  decide +kernel

/-- At a `LOOP` whose count is v, with an `ENDLOOP` at 0x1008. -/
def loopAt (v : Nat) : State :=
  runsW 0 fun y => { y with lines := [(0x1000, toLE 256 (0x0401 * 2 ^ 112))], g := Store.put 0 y.g 1 (BitVec.ofNat 64 v) }

theorem test_meets_BranchesAndLoopsBegin :
    (may (loopAt 8) 0 .ctl { Use.none with names := [16] } ∧ ((loopAt 8).sp 0).av 0 % 8 = 0 ∧ (loopAt 8).isLocal (((loopAt 8).sp 0).av 0) = true) ∧
    (may (loopAt 8) 0 .ctl { Use.none with names := [1, 2] } ∧ may (loopAt (2 ^ 32)) 0 .ctl { Use.none with names := [1] }) ∧
    (may (runsW 0 fun y => { y with loops := List.replicate 4 ⟨0, 0, 1⟩ }) 0 .ctl { Use.none with names := [1] } ∧
      4 ≤ ((runsW 0 fun y => { y with loops := List.replicate 4 ⟨0, 0, 1⟩ }).sp 0).depth) ∧
    (((loopAt (2 ^ 32)).sp 0).depth < 4 ∧ 2 ^ 32 ≤ ((loopAt (2 ^ 32)).sp 0).gv 1) ∧
    (((loopAt (2 ^ 32 - 1)).sp 0).gv 1 < 2 ^ 32 ∧ (((loopAt 8).sp 0).word 0x1000).map isEndloop = some false ∧
      (((loopAt 8).sp 0).word 0x1008).map isEndloop = some true ∧ ((loopAt 8).sp 0).word 0x1100 = none) := by
  decide +kernel

/-- At an `ENDLOOP` with one loop active whose end is a. -/
def endAt (a : Nat) : State := runsW 0 fun y => { y with loops := [⟨0x0FF8, a, 8⟩] }

theorem test_meets_EndloopCounts :
    (may (runs 0) 0 .ctl Use.none ∧ ((runs 0).sp 0).loops = []) ∧
    (may (endAt 0x1000) 0 .ctl Use.none ∧ ((endAt 0x1000).sp 0).loops.getLast?.map (·.endAt) = some ((endAt 0x1000).sp 0).pc) ∧
    (may (endAt 0x1008) 0 .ctl Use.none ∧ ((endAt 0x1008).sp 0).loops.getLast?.map (·.endAt) ≠ some ((endAt 0x1008).sp 0).pc) := by
  decide +kernel

/-- Spout 0 with a write that has not been acknowledged. -/
def unacked : State :=
  runsW 0 fun y => { y with outs := [{ idx := 0, need := .store, addr := 64, pc := 0x1000, seq := 0, write := true, remote := false, accepted := false, resp := none }] }

/-- Spout n in WAIT for w. -/
def waits (n : Nat) (w : Waiting) : State := (runsW n fun y => { y with waiting := w }).setSpSt n 3

theorem test_meets_SyncWaitsForWrites :
    (may (runs 0) 0 .ctl Use.none ∧ ((runs 0).sp 0).tx = none ∧ ((runs 0).sp 0).settled = true ∧ ((runs 0).sp 0).unackedN = 0) ∧
    (may unacked 0 .ctl Use.none ∧ (unacked.sp 0).tx = none ∧ ((unacked.sp 0).settled && (unacked.sp 0).unackedN == 0) = false) ∧
    (may (runsW 0 fun y => { y with tx := some 3 }) 0 .ctl Use.none ∧ ((runsW 0 fun y => { y with tx := some 3 }).sp 0).tx = some 3) ∧
    (((waits 0 .sync).sp 0).waiting = .sync ∧ (waits 0 .sync).spSt 0 = 3) := by
  decide +kernel

/-- A wait of spout 0 for condition cond on TIDE below 0, with the timeout lim. -/
def condWait (lim : Option Nat) : State := waits 0 (.cond 2 0 0 0 1 true lim)

theorem test_meets_WaitEndsOnConditionOrTimeout :
    (may (runs 0) 0 .ctl { Use.none with names := [1] } ∧ may (runs 0) 0 .ctl { Use.none with names := [16, 1], reads := true } ∧
      spKind 0 = 0 ∧ ((runs 0).sp 0).tx = none ∧ (runs 0).isLocal 0 = true) ∧
    (runs 0).lookWait 0 2 0 0 = some true ∧ (runs 0).lookWait 0 2 1 0 = some false ∧
    ((condWait (some 5)).spSt 0 = 3 ∧ ((condWait (some 5)).sp 0).waiting = .cond 2 0 0 0 1 true (some 5)) ∧
    (condWait none).lookWait 0 2 0 0 = some true ∧ (condWait none).lookWait 0 2 1 0 = some false ∧
    (((condWait none).sp 0).stopReq = none ∧ ((condWait none).sp 0).txAbort = none) := by
  decide +kernel

/-- Spout n in a transaction in slot k. -/
def inTx (n k : Nat) : State := runsW n fun y => { y with tx := some k }

theorem test_meets_ScalarRequestsAreSent :
    (may (runs 0) 0 .ctl { Use.none with names := [16, 32], reads := true } ∧ (runs 0).addrFault 0 (addrAdd (((runs 0).sp 0).av 0) 16) 16 = none) ∧
    (may (runs 0) 0 .ctl { Use.none with sels := [0], names := [16], reads := true } ∧
      may (runs 0) 0 .ctl { Use.none with sels := [0], names := [16], writes := true }) ∧
    (may (runs 0) 0 .ctl { Use.none with names := [16, 1, 2], writes := true, reads := true, all := true } ∧ (runs 0).evFull = false) ∧
    (may (inTx 0 3) 0 .ctl { Use.none with names := [16, 1], writes := true, reads := true, all := true } ∧ ((inTx 0 3).sp 0).tx.isSome = true ∧
      (inTx 0 3).isRemote (addrAdd (((inTx 0 3).sp 0).av 0) 8) = false) ∧
    (may (runs 160) 160 .prv { Use.none with names := [1] } ∧ ((runs 160).sp 160).tx = none ∧ 161 ≤ (161#8).toNat ∧ (160#8).toNat < 161) := by
  decide +kernel

theorem test_meets_FaultsAreRecorded :
    may (runs 0) 0 .ctl Use.none ∧ ((runs 0).sp 0).holds 0x1000 = true ∧ ((runs 0).sp 0).pc = 0x1000 ∧ majorOf 0x3F 0 = none ∧ majorOf 0x02 0x3F = some (.ctl, false) ∧ majorOf 0x20 0x3F ≠ none ∧
    ((runs 0).sp 0).tx = none ∧ ((runs 0).sp 0).pc < 2 ^ 48 := by
  decide +kernel

/-- The tensor descriptor of one row of n elements of format f, of m rows stride bytes apart. -/
def desc (f n m stride : Nat) : BitVec 128 := BitVec.ofNat 128 (f * 2 ^ 123 + n * 2 ^ 101 + m * 2 ^ 81 + stride * 2 ^ 49)

/-- A spout of jet 0 with the tiles t0 to t7 of 4 KiB each and the descriptors d0 to d3. -/
def jetW (d0 d1 d2 d3 : BitVec 128) (f : Spout → Spout) : State :=
  runsW 32 fun y => f
    { y with tiles := BitVec.ofNat 128 ((List.range 8).foldl (fun a t => a + (0x8001 + t * 64) * 2 ^ (16 * t)) 0),
             d := Store.put 0 (Store.put 0 (Store.put 0 (Store.put 0 y.d 0 d0) 1 d1) 2 d2) 3 d3,
             g := Store.put 0 y.g 1 1 }

/-- One element each: d0 fp32, d1 int32, d2 int8, d3 fp64. -/
def ones : State := jetW (desc 1 1 1 0) (desc 10 1 1 0) (desc 12 1 1 0) (desc 0 1 1 0) id

/-- A form D instruction from the tiles t1 and t2 to t0, the descriptors d, a and b. -/
def td (d a b : BitVec 2) : FormD := { formD with od := 8, dd := d, oa := 9, da := a, ob := 10, db := b, gx := 1 }

/-- What arithmetic work leaves where it has all it reads in hand and ends. -/
def workRuns (s : State) (n : Nat) (w : Work) (p : InProg) : Option State :=
  let b := (w.run (s.bk n p)).close
  if b.missing = [] ∧ b.want = none ∧ b.stop = none ∧ ((b.s.sp n).outs.any fun o => o.short.isSome) = false then
    let q := { p with elems := b.elems, wbuf := none, fetched := [], upds := [], results := w.fin b, gen := b.draw.g, flags := b.flags, closed := some none }
    some (((b.s.countMacs (jetOf n) w.macs).updSp n fun y => { y with prog := some q }).ended n q)
  else none

theorem workDone_of_runs {s : State} {n : Nat} {w : Work} {p : InProg} (q : (workRuns s n w p).isSome = true) : ∃ t, s.workDone n w p t := by
  unfold workRuns at q
  dsimp only at q
  split at q
  · rename_i c
    exact ⟨_, c.1, c.2.1, c.2.2.1, c.2.2.2, rfl⟩
  · cases q

/-- What a planned instruction leaves where it runs to its end at once. -/
def planRuns (s : State) (h : Hdr) (i : Instr) (w : Plan) : Option State :=
  let n := h.sp.val
  if (s.begun h).arChecks n w.ck = none then
    match (s.begun h).acquire n w.units with
    | some s1 =>
      if ((s1.sp n).outs.any Out.isBulk) = false then
        workRuns (s1.updSp n fun y => { y with prog := some (s1.begin h i) }) n w.toWork (s1.begin h i)
      else none
    | none => none
  else none

theorem runsPlan_of_runs {s : State} {h : Hdr} {i : Instr} {c : Cls} {u : Use} {plan : Spout → Nat → Plan} (iss : s.issues h c u)
    (q : (planRuns s h i (plan (s.sp h.sp.val) h.sp.val)).isSome = true) : ∃ t, s.runsPlan h i c u plan t := by
  unfold planRuns at q
  dsimp only at q
  split at q
  · rename_i h1
    split at q
    · rename_i s1 h2
      split at q
      · rename_i h3
        obtain ⟨t, ht⟩ := workDone_of_runs q
        exact ⟨t, Or.inl ⟨iss, h1, s1, h2, ht, h3⟩⟩
      · cases q
    · cases q
  · cases q

/-- Whether the plan runs to its end at spout 32 of s. -/
def ends (s : State) (f : FormD) (p : FormD → Spout → Nat → Plan) : Bool := (planRuns s (hdr 32) (.vadd (hdr 32) f) (p f (s.sp 32) 32)).isSome

theorem test_meets_ElementwiseCompletes :
    (may ones 32 .vec (dUse [8, 9, 10] [0, 0, 0] []) ∧ may ones 32 .vec (dUse [8, 9] [0, 0] [1]) ∧ may ones 32 .cvt (dUse [8, 9] [3, 3] [])) ∧
    (∀ o ∈ [Ew.add, .sub, .mul, .fma, .min, .max, .abs, .neg, .scale], ends ones (td 0 0 0) (fun f x n => ewPlan f x n o) = true) ∧
    ends ones (td 0 0 0) (fun f x n => bitPlan f x n (· &&& ·)) ∧ ends ones (td 0 0 0) (fun f x n => bitPlan f x n (· ||| ·)) ∧
    ends ones (td 0 0 0) (fun f x n => bitPlan f x n (· ^^^ ·)) ∧ ends ones (td 2 0 0) (fun f x n => cmpPlan f x n Val.eqv) ∧
    ends ones (td 2 0 0) (fun f x n => cmpPlan f x n Val.lt) ∧ ends ones (td 3 0 0) cvtPlan ∧ ends ones (td 3 3 0) cvtPrPlan := by
  decide +kernel

theorem test_meets_ReductionsAndProductsComplete :
    (may ones 32 .vec (dUse [8, 9] [0, 0] [1]) ∧ may ones 32 .vec (dUse [8, 9, 10] [0, 0, 0] [1]) ∧ may ones 32 .mat (dUse [8, 9, 10] [0, 0, 0] [])) ∧
    ends ones (td 0 0 0) rsumPlan ∧ ends ones (td 0 0 0) rsumsqPlan ∧ ends ones { td 0 3 0 with ac := 1 } rmergePlan ∧ ends ones (td 0 0 0) rdotPlan ∧
    ends ones (td 0 0 0) (fun f x n => pickPlan f x n (fun _ => []) rowMin) ∧ ends ones (td 0 0 0) (fun f x n => pickPlan f x n (fun _ => []) rowMax) ∧
    ends ones (td 1 0 0) (fun f x n => argPlan f x n Val.below) ∧ ends ones (td 1 0 0) (fun f x n => argPlan f x n fun a b => Val.below b a) ∧
    ends ones (td 0 0 0) (fun f x n => matPlan f x n false 16 true) ∧ ends ones (td 0 0 0) (fun f x n => matPlan f x n true 16 true) ∧
    ends ones (td 0 0 0) (fun f x n => matPlan f x n false 64 false) := by
  decide +kernel

/-- A field of 3 x 3 in fp32 (d2), a halo list of one entry (d1) and a packed buffer (d0). -/
def halos : State := jetW (desc 1 9 1 0) (desc 10 4 1 0) (desc 1 3 3 16) (desc 0 1 1 0) id

theorem test_meets_HashOperationsComplete :
    (may ones 32 .hsh (dUse [8, 9, 10] [1, 1, 1] []) ∧ may ones 32 .hsh (dUse [8, 9, 10] [1, 1, 1] [1]) ∧ may ones 32 .hsh (dUse [8, 9] [1, 0] [1])) ∧
    (∀ o ∈ [HashOp.probe, .insert, .delete], ends ones { td 1 1 1 with imm := 1 } (fun f x n => hashPlan (hdr 32) f x n o) = true) ∧
    (∀ o ∈ [Upd.min, .max, .add], ends ones (td 0 0 1) (fun f x n => updPlan f x n o) = true) ∧
    ends halos { td 0 2 1 with imm := 1 } haloPlan ∧ ends ones (td 1 1 1) isectPlan ∧ ends ones (td 1 0 0) topkPlan := by
  decide +kernel

theorem test_meets_OneElementInTiles :
    let x := ones.sp 32
    (x.opnd 32 8 0).tile ∧ (x.opnd 32 8 0).bsm = 0 ∧ (x.opnd 32 8 0).w = 32 ∧ (x.opnd 32 8 0).n0 = 1 ∧ (x.opnd 32 8 0).n1 = 1 ∧ (x.opnd 32 10 3).w = 64 ∧
    (td 0 0 0).rm.toNat < 4 ∧ (x.opnd 32 9 0).tile ∧ (x.opnd 32 10 0).tile ∧ ones.arChecks 32 (ewPlan (td 0 0 0) x 32 .add).ck = none ∧
    (workRuns ones 32 (ewPlan (td 0 0 0) x 32 .add).toWork (ones.begin (hdr 32) (.vadd (hdr 32) (td 0 0 0)))).isSome := by
  decide +kernel

/-- What the elements of a MOV-class instruction leave where they are in hand and it ends. -/
def endsMov (s : State) (n : Nat) (m : Mov) (p : InProg) : Option State :=
  let b := s.movElems n m p
  let q := { p.last m b.close with closed := some none }
  let s1 := (b.close.s.notePoison n (b.marked.length - p.marked.length)).updSp n fun y => { y with prog := some q }
  if b.stop = none ∧ (b.found = true ∨ m.count ≤ b.elems) ∧ ((s1.sp n).outs.any fun o => o.short.isSome) = false then some ((s1.noteProgress n).ended n q)
  else none

theorem movEnds_of_runs {s : State} {n : Nat} {m : Mov} {p : InProg} (q : (endsMov s n m p).isSome = true) : ∃ t, s.movEnds n m p t := by
  unfold endsMov at q
  dsimp only at q
  split at q
  · rename_i c
    exact ⟨_, c.1, c.2.1, c.2.2, rfl⟩
  · cases q

/-- What a MOV-class instruction leaves where it runs to its end at once. -/
def movRuns (s : State) (h : Hdr) (i : Instr) : Option State :=
  let n := h.sp.val
  let s0 := s.begun h
  match s0.movOf i, s0.acquire n [uMOV] with
  | some (_, m), some s1 =>
    let p := s0.movBegin h i m
    let s2 := (s1.movClear n).inProgress n p
    match s2.movOf i with
    | some (_, m2) =>
      if m.fault = none ∧ m.stage = [] ∧ (s.sp n).tx = none ∧ m2.stage = [] then endsMov s2 n m2 { p with limit := m2.count } else none
    | none => none
  | _, _ => none

theorem movOf_hdr {s : State} {i : Instr} {h : Hdr} {m : Mov} (w : s.movOf i = some (h, m)) : ∀ t : State, ∀ g n, t.movOf i = some (g, n) → g = h := by
  intro t g n q
  cases i <;> simp_all [State.movOf]

theorem runsMov_of_runs {s : State} {h : Hdr} {i : Instr} {u : Use} {m : Mov} (hn : 32 ≤ h.sp.val) (iss : s.issues h .mov u)
    (hm : (s.begun h).movOf i = some (h, m)) (w : (movRuns s h i).isSome = true) : ∃ t, s.runsMov h i u t := by
  unfold movRuns at w
  dsimp only at w
  split at w
  · rename_i g m' s1 e1 e2
    split at w
    · rename_i g2 m2 e3
      split at w
      · rename_i c
        obtain ⟨c1, c2, c3, c4⟩ := c
        rw [hm] at e1
        obtain ⟨rfl, rfl⟩ : h = g ∧ m = m' := by simpa using e1
        have e4 := movOf_hdr hm _ _ _ e3
        subst e4
        obtain ⟨t, ht⟩ := movEnds_of_runs w
        exact ⟨t, Or.inl ⟨iss, fun q => absurd q (by omega), m, s1, hm, c1, c2, Or.inl c3, e2, m2, e3, c4, ht⟩⟩
      · cases w
    · cases w
  · cases w

theorem test_meets_DataMovementCompletes :
    may ones 32 .mov (movUse [8, 9] [0, 0] [] [] true) ∧ may ones 32 .mov (movUse [8, 9, 10] [0, 0, 1] [] [] true) ∧
    may ones 32 .mov { movUse [8] [0] [1] [] true with reads := false } ∧ may ones 32 .mov (movUse [9, 10] [0, 0] [1] [0] false) ∧
    (movRuns ones (hdr 32) (.move (hdr 32) (td 0 0 0))).isSome ∧ (movRuns ones (hdr 32) (.gather (hdr 32) (td 0 0 1))).isSome ∧
    (movRuns ones (hdr 32) (.scatter (hdr 32) (td 0 0 1))).isSome ∧ (movRuns ones (hdr 32) (.fill (hdr 32) (td 0 0 0))).isSome ∧
    (movRuns ones (hdr 32) (.cmp (hdr 32) (td 0 0 0))).isSome ∧ (movRuns ones (hdr 32) (.pack (hdr 32) (td 0 0 0))).isSome := by
  decide +kernel

theorem test_meets_ScalarIntegersCompute :
    may (runs 32) 32 .scalar { Use.none with names := [1, 2, 3] } ∧ (formS 4).rm.toNat < 5 ∧ 5 ≤ (formS 5).rm.toNat := by decide +kernel

theorem test_meets_ScalarDoublesCompute :
    may (runs 32) 32 .scalar { Use.none with names := [1, 2, 3] } ∧ may (runs 160) 160 .scalar { Use.none with names := [1, 2] } ∧ (formS 4).rm.toNat < 5 := by
  decide +kernel

/-- Slot k as y. -/
def slotW (s : State) (k : Nat) (y : TxSlot) : State := s.updSlot k fun _ => y

/-- Spout 32 in RUN with g1 = v. -/
def gTwo (v : Nat) : State := runsW 32 fun y => { y with g := Store.put 0 y.g 1 (BitVec.ofNat 64 v) }

/-- Every ordinary slot ACTIVE. -/
def fullTx : State := foldS (List.range 56) (runs 32) fun t k => slotW t k { TxSlot.init with st := .active }

theorem test_meets_TransactionsBegin :
    may (inTx 32 0) 32 .txn { Use.none with names := [1] } ∧ ((inTx 32 0).sp 32).tx.isSome = true ∧
    (may (runs 32) 32 .txn { Use.none with names := [1] } ∧ ((runs 32).sp 32).tx = none ∧ (runs 32).freeSlot = some 0) ∧
    (may fullTx 32 .txn { Use.none with names := [1] } ∧ fullTx.freeSlot = none) ∧
    (may (gTwo (2 ^ 63)) 32 .txn { Use.none with names := [1] } ∧ (((gTwo (2 ^ 63)).sp 32).gv 1).testBit 63 = true) ∧
    (may (slotW (gTwo 7) 63 { TxSlot.init with st := .active }) 32 .txn { Use.none with names := [1] } ∧ ((slotW (gTwo 7) 63 { TxSlot.init with st := .active }).sp 32).gv 1 = 7 ∧
      ((slotW (gTwo 7) 63 { TxSlot.init with st := .active }).slot 63).label = ((gTwo 7).sp 32).cmd.label) ∧
    ((gTwo 7).slot 63).st ≠ .active := by
  decide +kernel

theorem test_meets_TransactionsEnd :
    (may (inTx 32 55) 32 .txn { Use.none with names := [1], all := true } ∧ ((inTx 32 55).sp 32).tx = some 55) ∧
    (may (inTx 32 56) 32 .txn { Use.none with names := [1], all := true } ∧ ((inTx 32 56).slot 56).owner ≠ (inTx 32 56).me * 256 + 32) ∧
    ((slotW (inTx 32 56) 56 { TxSlot.init with owner := 32 }).slot 56).owner = (inTx 32 56).me * 256 + 32 ∧
    may (slotW (inTx 32 56) 56 { TxSlot.init with owner := 32 }) 32 .txn { Use.none with names := [1], all := true } ∧
    (may (runs 32) 32 .txn { Use.none with names := [1], all := true } ∧ ((runs 32).sp 32).tx = none) ∧ may (inTx 32 0) 32 .txn Use.none := by
  decide +kernel

theorem test_meets_TstatWritesTheStatusWord :
    may (inTx 32 63) 32 .txn { Use.none with names := [1] } ∧ ((inTx 32 63).sp 32).tx = some 63 ∧ ((inTx 32 63).slot 63).log.length ≤ 1024 ∧
    ((inTx 32 63).slot 63).reads.length ≤ 4096 := by
  decide +kernel

theorem test_meets_TransactionsCloseTheirLogs :
    (((slotW State.reset 55 { TxSlot.init with st := .active }).slot 55).members = [] ∧ ((slotW State.reset 55 { TxSlot.init with st := .active }).slot 55).st = .active ∧
      ((slotW State.reset 55 { TxSlot.init with st := .active }).slot 55).log = []) ∧
    ((slotW State.reset 0 { TxSlot.init with st := .closed }).slot 0).st = .closed ∧ ((slotW State.reset 0 { TxSlot.init with st := .closed }).slot 0).asked = false ∧
    ((slotW State.reset 0 { TxSlot.init with st := .committing }).slot 0).st = .committing ∧ (State.reset.slot 0).st ≠ .committing := by
  decide +kernel

/-- A manager whose loop is whole. -/
def manager : State := (State.reset.wr F.CAS_STAT_ROLE 0 2).wr F.CAS_STAT_LOOPOK 0 1

/-- A worker whose manager is instance 0. -/
def worker : State := State.reset.wr F.CAS_STAT_ROLE 0 1

/-- Spout 32 that waits for the package transaction 7, whose slot it owns. -/
def opening : State := slotW (waits 32 (.xopen 0x2000 1)) 63 { TxSlot.init with st := .active, owner := 32 }

theorem test_meets_PackageTransactionsOpen :
    ((manager.casTake (msg 1 true) 0x10 false).2 ∧ (manager.casTake (msg 1 true) 0x10 false).1.role = 2 ∧
      (manager.casTake (msg 1 true) 0x10 false).1.flag F.CAS_STAT_LOOPOK 0 = true ∧ (manager.casTake (msg 1 true) 0x10 false).1.txu.recovering = false ∧
      ((List.range 8).find? fun x => ((manager.casTake (msg 1 true) 0x10 false).1.pkt x).phase == 0) = some 0) ∧
    (((List.range 8).find? fun x =>
      (((foldS (List.range 8) manager fun t x => t.updPkt x fun r => { r with phase := 1 }).casTake (msg 1 true) 0x10 false).1.pkt x).phase == 0) = none) ∧
    ((manager.casTake (msg 1 true) 0x11 false).2 ∧ (1 : Inst).val ≠ (manager.casTake (msg 1 true) 0x11 false).1.me) ∧
    (((opening.casTake (msg 1 true) 0x12 false).1.slot 63).owner / 256 = (opening.casTake (msg 1 true) 0x12 false).1.me ∧
      ((opening.casTake (msg 1 true) 0x12 false).1.slot 63).st = .active ∧ ((opening.casTake (msg 1 true) 0x12 false).1.sp 32).waiting = .xopen 0x2000 1 ∧
      ((opening.casTake (msg 1 true) 0x13 false).1.sp 32).waiting = .xopen 0x2000 1) := by
  decide +kernel

/-- A manager whose package transaction 7 has this record. -/
def decides (r : XRec) : State := manager.updPkt 7 fun _ => r

/-- What the message leaves before it acts. -/
def taken (typ : Nat) (s : State) : State := (s.casTake (msg 15 true) typ false).1

theorem test_meets_PackageTransactionsDecide :
    (∀ typ ∈ [0x14, 0x16, 0x19, 0x1A], ((decides XRec.init).casTake (msg 15 true) typ false).2 ∧ (taken typ (decides XRec.init)).role = 2) ∧
    ((taken 0x14 (decides { XRec.init with phase := 1 })).pkt 7).phase = 1 ∧
    (((taken 0x16 (decides { XRec.init with phase := 2 })).pkt 7).phase = 2 ∧
      (((taken 0x16 (decides { XRec.init with phase := 2 })).pkt 7).voted ||| 2 ^ 15) ≠ 0xFFFF) ∧
    (((taken 0x16 (decides { XRec.init with phase := 2, voted := 0x7FFF })).pkt 7).voted ||| 2 ^ 15) = 0xFFFF ∧
    (((taken 0x1A (decides { XRec.init with phase := 3, yes := 0x8000 })).pkt 7).phase = 3 ∧
      (let r := (taken 0x1A (decides { XRec.init with phase := 3, yes := 0x8000 })).pkt 7; (r.yes &&& (r.done ||| 2 ^ 15)) = r.yes)) ∧
    (decides { XRec.init with phase := 2 }).role = 2 ∧ ((decides { XRec.init with phase := 2 }).pkt 7).phase = 2 := by
  decide +kernel

/-- A slot that XT_PREPARE asked, with one granule in its log. -/
def asked : State := slotW (manager.wr F.TXU_RECBASE_VALID 0 1) 63 { TxSlot.init with st := .active, asked := true, log := [(0, List.replicate 64 0)] }

/-- A PREPARED slot of package transaction 7 at an instance where the manager has decided it. -/
def prepared : State :=
  { slotW manager 63 { TxSlot.init with st := .prepared } with txu := { (slotW manager 63 { TxSlot.init with st := .prepared }).txu with decisions := [7] } }

/-- One that is PREPARED with a granule in its log. -/
def preparedLog : State := slotW manager 63 { TxSlot.init with st := .prepared, log := [(0, List.replicate 64 0)] }

theorem test_meets_PackageTransactionsAtAnInstance :
    ((asked.slot 63).asked = true ∧ (asked.slot 63).st = .active ∧ (asked.slot 63).log ≠ [] ∧ (∀ m ∈ (asked.slot 63).members, (asked.slot 63).ready.contains m.1 = true) ∧
      asked.flag F.TXU_RECBASE_VALID 0 = true) ∧
    ((asked.casTake (msg 15 true) 0x15 false).2 ∧ ((taken 0x18 asked).slot 63).st = .active ∧ ((taken 0x17 prepared).slot 63).st = .prepared ∧
      (((taken 0x17 prepared).commitPoint 63).slot 63).st = .closed ∧ (asked.casTake (msg 15 true) 0x18 false).2 ∧ (prepared.casTake (msg 15 true) 0x17 false).2 ∧
      (((taken 0x17 preparedLog).commitPoint 63).slot 63).st ≠ .closed ∧ ((taken 0x17 preparedLog).slot 63).st = .prepared) ∧
    ((prepared.slot 63).st = .prepared ∧ (prepared.slot 63).indoubt = false) ∧
    ((prepared.casTake (msg 15 false) 0x1C false).2 ∧ (msg 15 false).bc = false ∧ (prepared.casTake (msg 15 true) 0x1C false).2 ∧ (msg 15 true).bc = true ∧
      (prepared.casTake (msg 15 false) 0x1C false).1.role = 2 ∧ 7 ∈ (prepared.casTake (msg 15 false) 0x1C false).1.txu.decisions) ∧
    ((prepared.casTake (msg 15 true) 0x1B false).2 ∧ (taken 0x1B prepared).role = 2 ∧ ∀ y < 8, ((taken 0x1B prepared).pkt y).phase = 0) := by
  decide +kernel

/-- Spout 32 in RUN with a0 = 0, g1 = n and a capacity of 2^30 B. -/
def hints (n : Nat) : State := (gTwo n).wr F.GLB_CAPACITY_CAP 0 (2 ^ 30)

/-- `hints` with pins granted to class 0 of a cache that holds enough lines. -/
def pins (n : Nat) : State := ((hints n).wr F.ITK_CLS_PIN 0 1).wr F.BAS_CFG_PINCAP 0 75

theorem test_meets_HintsAct :
    ((hints 8192).addrFault 32 (((hints 8192).sp 32).av 0) 1 = none ∧ (hints 8192).decodeAddr (((hints 8192).sp 32).av 0) = .localMem 0) ∧
    (may (hints 8192) 32 .hnt { Use.none with names := [16, 1], all := true } ∧ ((hints 8192).sp 32).tx = none ∧ (hints 8192).hintFault 32 0 8192 true = 0 ∧
      (((hints 8192).begun (hdr 32)).conflict true none ((List.range 128).map (0 + ·))).1 = .go ∧ (hints 4095).hintFault 32 0 4095 true = 0) ∧
    (may (hints 256) 32 .hnt { Use.none with names := [16, 1], reads := true } ∧ (hints 256).hintFault 32 0 256 false = 0 ∧ (hints 256).pinStatus 0 0 256 = 6 ∧ (pins 256).pinStatus 0 0 256 = 0) ∧
    (may (hints 256) 32 .hnt { Use.none with names := [16, 1] }) ∧
    ((waits 32 (.pinFill 1 1 0 1)).spSt 32 = 3 ∧ ((waits 32 (.pinFill 1 1 0 1)).sp 32).waiting = .pinFill 1 1 0 1 ∧
      ((waits 32 (.pinFill 1 1 0 1)).sp 32).outs.any Out.pinning = false) ∧
    (let s := slotW (hints 8192) 63 { TxSlot.init with st := .prepared, log := [(0, List.replicate 64 0)] }
     ((s.begun (hdr 32)).conflict true none ((List.range 128).map (0 + ·))).1 = .hold ∧ may s 32 .hnt { Use.none with names := [16, 1], all := true } ∧
      s.hintFault 32 0 8192 true = 0) := by
  decide +kernel

/-- The font's services on. -/
def served : State := (runs 32).setDom 64 2

/-- A call of spout 32 that the font has answered. -/
def answered : State :=
  { waits 32 .service with font := { (waits 32 .service).font with calls := [{ sp := 32, func := 0x100, args := [], call := true, gd := 1 }], answer := some (0, 0, 0) } }

theorem test_meets_ServiceCallsAreAnswered :
    (may served 32 .svc { Use.none with names := svcRegs 1 ++ [5, 6] } ∧ (served.sp 32).tx = none ∧ svcFuncs.contains 0x300 = false) ∧
    (may (served.wr F.FNT_FWCTL_RUNNING 0 1) 32 .svc { Use.none with names := svcRegs 1 } ∧ (served.wr F.FNT_FWCTL_RUNNING 0 1).svcFault 0x200 0 false = 0 ∧
      (served.wr F.FNT_FWCTL_RUNNING 0 1).svcFault 0x107 0 true = 0) ∧
    (answered.font.answer = some (0, 0, 0) ∧ (answered.sp 32).waiting = .service ∧ answered.font.calls.head?.map (·.call) = some true) := by
  decide +kernel

/-- The font's spout in RUN in phase 8 with every domain ON, a0 = a and g1 = 1. -/
def fontAt (a : Nat) : State :=
  ((up.setSpSt 160 2).updSp 160 fun y =>
    { y with pc := 0x1000, lines := [(0x1000, List.replicate 256 0)], cmd := { y.cmd with priv := 2 }, a := Store.put 0 y.a 0 (BitVec.ofNat 48 a),
             g := Store.put 0 y.g 1 1 })

theorem test_meets_FontReadsAndWritesRegisters :
    (may (fontAt 4) 160 .prv { Use.none with names := [1, 16] } ∧ ((fontAt 4).sp 160).av 0 % 8 ≠ 0) ∧
    (may (fontAt 0x0F0000000000) 160 .prv { Use.none with names := [1, 16] } ∧ ((fontAt 0x0F0000000000).sp 160).av 0 % 8 = 0 ∧
      (fontAt 0x0F0000000000).decodeAddr 0x0F0000000000 = .regWin 0 ∧ ((fontAt 0x0F0000000000).sp 160).tx = none) ∧
    ((fontAt 0x0F0000000000).winRead (Reg.addr .GLB_UNITS 0) 8).isSome ∧ (fontAt 0x0F0000000000).winRead 0x7FFFF8 8 = none ∧
    ((fontAt 0x0F0000000000).regWrite 0x7FFFF8 8 0 true).ctl.decerr = true ∧
    ((fontAt 0x0F0000000000).regWrite (Reg.addr .AQD_RTO 0) 8 200 true).ctl.decerr = false := by
  decide +kernel

theorem test_meets_ControlPortAnswers :
    (up.winRead (Reg.addr .GLB_UNITS 0) 8).isSome ∧ up.winRead 0x7FFFF8 8 = none ∧ up.taskMay (regAt 0) = false ∧
    ((regAt (Reg.addr .AQD_RTO 0)).map (fun p => decide (p.1 ≠ .DBL_PTR))) = some true ∧ up.answers (Reg.addr .AQD_RTO 0) = true ∧
    up.pageDown (Reg.addr .AQD_RTO 0) = false ∧ Reg.addr .AQD_RTO 0 % 8 = 0 := by
  decide +kernel

theorem test_meets_UndefinedOffsetsAnswerDecerr : regAt 0x7FFFF8 = none ∧ winAt 0x7FFFF8 = none ∧ regAt 0x6FFFF8 = none ∧ winAt 0x6FFFF8 = none := by
  decide +kernel

theorem test_meets_RegistersHoldWhatIsWritten :
    Reg.addr .AQD_RTO 0 ≠ Reg.addr .GLB_UNITS 0 ∧ F.DBL_PTR_TAIL.reg = F.DBL_PTR_HEAD.reg ∧ F.DBL_PTR_TAIL.lo ≤ F.DBL_PTR_TAIL.hi ∧ F.DBL_PTR_TAIL.hi < 64 ∧
    (F.DBL_PTR_HEAD.hi < F.DBL_PTR_TAIL.lo ∨ F.DBL_PTR_TAIL.hi < F.DBL_PTR_HEAD.lo) := by
  decide +kernel

theorem test_meets_DoorbellsAreWritten :
    up.unitResetting 160 = false ∧ up.rd F.GLB_PSTATE_CUR 0 ≠ 1 ∧ up.domSt (domOfSpout 160) = 2 ∧ State.reset.domSt (domOfSpout 160) ≠ 2 ∧
    State.reset.domSt (domOfSpout 160) ≠ 4 ∧ State.reset.unitResetting 160 = false ∧ State.reset.rd F.GLB_PSTATE_CUR 0 ≠ 1 ∧
    up.flag F.DBL_CTL_OWNER 160 = false ∧ up.answers (Reg.DBL_RING.addr 160) = true ∧ 
    (∀ v ∈ [4, 16], let n := F.DBL_RING_LOG2N.of (up.proposed .DBL_RING 160 v (!up.pageStopped 160)); 4 ≤ n ∧ n ≤ 16) ∧
    F.DBL_RING_LOG2N.of (up.proposed .DBL_RING 160 0 (!up.pageStopped 160)) = 0 ∧
    (∀ v ∈ [1, 3, 17], let n := F.DBL_RING_LOG2N.of (up.proposed .DBL_RING 160 v (!up.pageStopped 160)); 1 ≤ n ∧ (n ≤ 3 ∨ 16 < n)) ∧ up.answers (Reg.DBL_CTL.addr 160) = true := by
  decide +kernel

/-- Spout 32 with a ring of 16 entries whose TAIL is 3. -/
def ringed : State := (up.wr F.DBL_RING_LOG2N 32 4).wr F.DBL_PTR_TAIL 32 3

theorem test_meets_TailsAreChecked :
    ringed.tail 32 = 3 ∧ (17 ≠ ringed.tail 32 ∧ ringed.ringSize 32 < (17 + 2 ^ 32 - ringed.head 32) % 2 ^ 32) ∧
    (16 ≠ ringed.tail 32 ∧ (16 + 2 ^ 32 - ringed.head 32) % 2 ^ 32 ≤ ringed.ringSize 32) := by
  decide +kernel

/-- Spout 32 in FETCH with a command to fetch and the requests l outstanding. -/
def fetching (l : List Out) : State := (((ringed.wr F.DBL_CTL_EN 32 1).setSpSt 32 1).updSp 32 fun y => { y with outs := l })

/-- Its ring entry, returned with the code c. -/
def entryOut (c : Nat) : Out := { idx := 0, need := .entry, addr := 0, pc := 0, seq := 0, write := false, remote := false, accepted := true, resp := some (c, List.replicate 64 0) }

/-- Channel 0 whose fetch is answered DECERR while channel 1 runs. -/
def alarming : State := ((up.setSpSt 0 1).setSpSt 1 2).updSp 0 fun y => { y with outs := [entryOut 1, { entryOut 1 with idx := 1, need := .line 0x2000 }] }

/-- Spout 32 with a ring beyond the memory that its addresses reach. -/
def farRing : State := (fetching []).wr F.DBL_RING_BASE 32 (2 ^ 26)

/-- Spout 32 whose command ends with the code c. -/
def ending (c : Nat) : State := (up.setSpSt 32 2).updSp 32 fun y => { y with finish := some c }

theorem test_meets_CommandsRunThroughTheRing :
    ((fetching []).spSt 32 = 1 ∧ ((fetching []).sp 32).finish = none ∧ (fetching []).domOn (domOfSpout 32) = true ∧ (fetching []).mayFetch 32 = true ∧
      (((fetching []).sp 32).outs.any fun o => o.need == .entry) = false ∧ (fetching []).isLocal ((fetching []).entryAddr 32) = true) ∧
    ((((fetching [entryOut 0]).sp 32).outs.find? fun o => o.need == .entry) = some (entryOut 0) ∧ (entryOut 0).resp = some (0, List.replicate 64 0) ∧
      (fetching [entryOut 0]).spSt 32 = 1 ∧ (((fetching [entryOut 3]).sp 32).outs.find? fun o => o.need == .entry) = some (entryOut 3)) ∧
    ((alarming.sp 0).outs.find? fun o => o.need == .entry) = some (entryOut 1) ∧ alarming.notAlone 0 = true ∧ alarming.spSt 0 = 1 ∧
    (fetching [entryOut 1]).notAlone 32 = false ∧
    (farRing.spSt 32 = 1 ∧ farRing.mayFetch 32 = true ∧ farRing.isLocal (farRing.entryAddr 32) = false) ∧
    (let s := (ending 0).updSp 32 fun y => { y with cmd := { y.cmd with known := true, crec := true, craddr := 0 } }
     let s1 := s.ask 32 .record 0 16 .wr (s.recordBytes 32 0)
     s.wantsRecord 32 = true ∧ (s.sp 32).recordOut = none ∧ (s1.sp 32).recordOut.isSome ∧
      (let x := s1.updSp 32 fun y => { y with outs := y.outs.map fun o => { o with accepted := true } }; (x.sp 32).recordOut.isSome ∧ (x.sp 32).writesOpen = false)) ∧
    (∀ c ∈ [0, 0x0D, 0xF0], ((ending c).sp 32).finish = some c ∧ ((ending c).sp 32).writesOpen = false ∧ ((ending c).sp 32).writeFailed = false ∧
      (ending c).evFull = false ∧ (ending c).wantsRecord 32 = false ∧ ((ending c).sp 32).tx = none ∧ (ending c).flag F.DBL_CTL_EN 32 = false) := by
  decide +kernel

/-- A data request of spout 32 that has returned. -/
def dataOut : Out := { idx := 7, need := .load 1, addr := 0, pc := 0x1000, seq := 0, write := false, remote := false, accepted := true, resp := some (0, List.replicate 8 0) }

/-- The program line at 0x2000 returned with the code c. -/
def lineOut (c : Nat) : Out := { idx := 8, need := .line 0x2000, addr := 0x2000, pc := 0x1000, seq := 0, write := false, remote := false, accepted := true, resp := some (c, List.replicate 256 0) }

/-- Spout 32 in RUN with the request o outstanding. -/
def outW (o : Out) : State := runsW 32 fun y => { y with outs := [o] }

/-- Spout 32 waits for the vector unit of jet 0 with a `VADD`. -/
def queued : State :=
  (runsW 32 fun y => { y with waiting := .grant (.vadd (hdr 32) (td 0 0 0)) }).updJet 0 fun j => { j with waiting := Store.put [] j.waiting 1 [(32, .vadd (hdr 32) (td 0 0 0))] }

/-- A channel that waits for a staging slot. -/
def staging : State := { State.reset with sluice := { State.reset.sluice with waiters := [3] } }

theorem test_meets_ResponsesAndGrantsLetSpoutsGoOn :
    (∀ c ∈ [0, 3], ((((outW (lineOut c)).sp 32).outs.find? fun o => o.need == .line (0x2000 / 256 * 256)) = some (lineOut c)) ∧
      (outW (lineOut c)).inCommand 32 = true ∧ ((outW (lineOut c)).sp 32).finish = none) ∧
    ((((outW dataOut).sp 32).outs.find? fun o => decide (o.idx = 7) && o.isData && o.need != .record) = some dataOut ∧ dataOut.resp = some (0, List.replicate 8 0) ∧
      (outW dataOut).inCommand 32 = true ∧
      ((((outW { dataOut with need := .poll }).sp 32).outs.find? fun o => decide (o.idx = 7) && o.isData && o.need != .record).map (·.need)) = some .poll) ∧
    ((((alarming.setSpSt 0 2).sp 0).outs.find? fun o => o.need == .line (0x2000 / 256 * 256)).map (·.idx)) = some 1 ∧ (alarming.setSpSt 0 2).notAlone 0 = true ∧
      (alarming.rd F.SLC_GSTOP_STOPMASK 0).testBit 0 = false ∧ (alarming.setSpSt 0 2).inCommand 0 = true ∧
    ((Store.get [] (queued.jet 0).waiting 1 = [(32, .vadd (hdr 32) (td 0 0 0))]) ∧
      (((queued.jet 0).wanted (32, .vadd (hdr 32) (td 0 0 0))).all fun u => (Store.get [] (queued.jet 0).waiting u).head? == some (32, .vadd (hdr 32) (td 0 0 0))) = true ∧
      (queued.jet 0).freeFor 32 ((queued.jet 0).wanted (32, .vadd (hdr 32) (td 0 0 0))) = true ∧
      (queued.updSp 32 fun y => { y with waiting := .none }).issuable 32 false = true) ∧
    (staging.sluice.waiters = [3] ∧ staging.freeStaging = some 0) ∧
    ({ staging with sluice := { staging.sluice with staging := (List.range 4).map fun k => (k, some 0) } } : State).freeStaging = none := by
  decide +kernel

/-- Jet 0 in an engine reset, and channel 31 in one. -/
def resetting : State := { up.updJet 0 fun j => { j with resetting := true } with chans := [(31, { ChanState.init with resetting := true })] }

/-- A bus-error stop that drains. -/
def draining : State := { up with sluice := { up.sluice with draining := true } }

theorem test_meets_EnginesAndTheSluiceStop :
    up.answers (Reg.JET_CTL.addr 15) = true ∧ (up.jet 15).resetting = false ∧ (resetting.jet 0).resetting = true ∧ up.answers (Reg.SLC_CTL.addr 31) = true ∧
    (resetting.chan 31).resetting = true ∧ up.sluice.draining = false ∧ up.slcActive.length ≠ 1 ∧ draining.sluice.draining = true ∧ draining.slcActive = [] ∧
    (let s := { (up.setSpSt 0 2) with sluice := { up.sluice with draining := true } }
     let u := foldS s.slcActive s fun t n => if t.spSt n = 2 then t.contMov n false else t
     u.slcActive.any u.writing = false) ∧
    (let s := { unacked with sluice := { unacked.sluice with draining := true } }
     let u := foldS s.slcActive s fun t n => if t.spSt n = 2 then t.contMov n false else t
     u.slcActive.any u.writing = true) := by
  decide +kernel

/-- Channel 0 in RUN between instructions with PAUSE set. -/
def pausing : State := (runs 0).wr F.SLC_CTL_PAUSE 0 1

/-- Channel 0 in PAUSED. -/
def paused : State := (runs 0).setSpSt 0 4

/-- A paced MOV-class instruction of channel 0 at the end of its burst. -/
def bursting : State :=
  let s := runs 0
  (s.updSp 0 fun y => { y with prog := some { s.begin (hdr 0) (.move (hdr 0) formD) with elems := 4, total := 8, limit := 4 } }).wr F.SLC_CFG_PACED 0 1

theorem test_meets_ChannelsPause :
    up.answers (Reg.SLC_CTL.addr 31) = true ∧ up.answers (Reg.SLC_CFG.addr 31) = true ∧ F.SLC_CFG_BURST.of (up.proposed .SLC_CFG 31 0 (!up.slcStopped 31)) = 0 ∧
    (let b := F.SLC_CFG_BURST.of (up.proposed .SLC_CFG 31 (2 ^ 64 - 1) (!up.slcStopped 31)); 8 < b) ∧
    (let b := F.SLC_CFG_BURST.of (up.proposed .SLC_CFG 31 (up.reg .SLC_CFG 31) (!up.slcStopped 31)); 1 ≤ b ∧ b ≤ 8) ∧ up.answers (Reg.SLC_PREQ.addr 31) = true ∧
    up.spSt 31 ≠ 4 ∧
    (pausing.flag F.SLC_CTL_PAUSE 0 = true ∧ pausing.canPause 0 = true ∧ (pausing.contMov 0 false).canPause 0 = true ∧ pausing.paced 0 = false) ∧
    (paused.spSt 0 = 4 ∧ paused.flag F.SLC_CTL_PAUSE 0 = false ∧ paused.paced 0 = false ∧ (paused.sp 0).txAbort = none ∧ (paused.sp 0).prog = none ∧
      (paused.sp 0).waiting = .none) ∧
    ((paused.updSp 0 fun y => { y with waiting := .grant (.move (hdr 0) formD) }).sp 0).waiting = .grant (.move (hdr 0) formD) ∧
    ((bursting.setSpSt 0 4).spSt 0 = 4 ∧ ((bursting.setSpSt 0 4).sp 0).prog.isSome = true ∧
      (({ bursting with chans := [(0, { ChanState.init with seenReq := true })] } : State).chan 0).seenReq = true) ∧
    (((bursting.sp 0).prog.map fun p => decide (p.elems = p.limit ∧ p.closed = none)) = some true ∧ bursting.spSt 0 = 2 ∧ bursting.paced 0 = true ∧
      bursting.flag F.SLC_CTL_PAUSE 0 = false ∧ bursting.sluice.draining = false ∧ (bursting.sp 0).waiting = .none ∧ (bursting.sp 0).finish = none ∧
      (bursting.sp 0).settled = true ∧ ((bursting.sp 0).outs.any Out.isBulk) = false) := by
  decide +kernel

/-- A request beat at address 0 with tag 5. -/
def beat (size : BitVec 2) : Beat :=
  { op := 0, addr := 0, size := size, tag := 5, label := 0, req := 0, txv := false, txid := 0, rem := false, node := 0, rinst := 0, mask := 0, data := 0 }

/-- Port 7 in state st, with the tags l in use. -/
def port (st : Nat) (l : List (Nat × Nat)) : State :=
  let s := up.wr F.ITK_FPSTAT_STATE 7 st
  { s with intake := { s.intake with tags := [(7, l)] } }

/-- A response that waits on port 7. -/
def responding : State :=
  { up with intake := { up.intake with resp := [(7, [{ isRead := true, counted := false, tag := 5, code := 0, deadRead := false, data := [] }])] } }

theorem test_meets_FabricBeatsAreTaken :
    up.rd F.GLB_PSTATE_CUR 0 ≠ 1 ∧ (port 2 []).rd F.GLB_PSTATE_CUR 0 ≠ 1 ∧
    Store.get [] (({ port 2 [] with intake := { (port 2 []).intake with tagWait := [(7, [(true, beat 3)])] } } : State).intake.tagWait) 7 ≠ [] ∧
    ({ up with boot := { up.boot with entry := some 2 } } : State).readyLow 7 = true ∧ Store.get [] up.intake.tagWait 7 = [] ∧
    ((port 1 []).readyLow 7 = false ∧ (port 1 []).tagBusy 7 5 = false ∧ (port 1 []).fpSt 7 ≠ 2) ∧
    ((port 2 [(5, 0)]).readyLow 7 = false ∧ (port 2 [(5, 0)]).tagBusy 7 5 = true) ∧
    ((port 2 []).readyLow 7 = false ∧ (port 2 []).tagBusy 7 5 = false ∧ (port 2 []).fpSt 7 = 2) ∧
    beatBad (beat 3) = true ∧ (Store.get [] responding.intake.resp 7).length = 1 ∧ Store.get [] up.intake.resp 7 = [] := by
  decide +kernel

theorem test_meets_PortsNegotiateAndQuiesce :
    ((port 1 []).fpSt 7 = 1 ∧ (port 1 []).phase = 8 ∧ ({ port 1 [] with map := { (port 1 []).map with mode := 1 } } : State).map.mode ≠ 0 ∧
      (port 1 []).flag F.GLB_MAPSTAT_BUSY 0 = false) ∧
    Store.get false (port 1 []).intake.negDone 7 = false ∧ ((port 3 []).fpSt 7 = 3 ∧ (port 3 []).portBusy 7 = false ∧ (port 3 []).boot.compute = false ∧
      ({ port 3 [] with boot := { (port 3 []).boot with compute := true } } : State).boot.compute = true) := by
  decide +kernel

/-- A read of spout 32, requester 0, held at the source 40. -/
def request : Req :=
  { origin := .spout 32 0, kind := .rd, addr := 0, size := 64, mask := 0, data := [], label := 0, reqNo := 0, priv := true, tx := none }

/-- The request held at its source, with a map in force and pseudo-channel 0 OPEN. -/
def presenting : State :=
  let s := (up.wr F.GLB_CAPACITY_CAP 0 (2 ^ 30)).wr F.PC_STAT_STATE 0 1
  { s with map := { s.map with mode := 1 }, intake := { s.intake with held := [(40, [request])] }, pcs := [(0, { PcState.init with waiting := [(0, request)] })] }

theorem test_meets_RequestsAreAdmittedAndAccepted :
    up.heldAt 170 = [] ∧ presenting.heldAt 40 = [request] ∧ presenting.winFull request = false ∧ presenting.admission 0 0 0 ≠ .held ∧
    ((presenting.wr F.ITK_CLS_OUTMAX 0 0).heldAt 40 = [request] ∧ (presenting.wr F.ITK_CLS_OUTMAX 0 0).admission 0 0 0 = .held) ∧
    (up.minSum ≤ up.limit ∧ up.flag F.ITK_ERR_SCALED 0 = false) ∧
    (presenting.takes 0 = true ∧ (presenting.rotate 0 ((List.range 15).map fun i => ((presenting.pc 0).rot + i) % 15)).isSome) ∧
    (let s := presenting.updPc 0 fun p => { p with waiting := [] }; s.rotate 0 ((List.range 15).map fun i => ((s.pc 0).rot + i) % 15)).isNone ∧
    (presenting.presented 0 0 = [request] ∧ ((presenting.takeWaiting 0 request).acceptReq 0 request).isSome ∧ presenting.presented 0 1 = []) ∧
    State.reset.takes 63 = false := by
  decide +kernel

/-- Pseudo-channel 0 OPEN as p, with a map in force. -/
def pcW (p : PcState) : State := { presenting with pcs := [(0, p)] }

/-- A queue entry of `request`. -/
def entry (bg : Bool) : Entry := { req := request, bg := bg, todo := [0], cols := 0, got := [], raws := [], newer := [], shadows := [], promoted := false }

/-- Every bank is ready for every command. -/
def allReady : Ready :=
  { act := BitVec.allOnes 80, rd := BitVec.allOnes 80, wr := BitVec.allOnes 80, pre := BitVec.allOnes 80, ref := BitVec.allOnes 80 }

/-- A pseudo-channel before its command: one clock more, and whether it drains shown. -/
def clocked (s : State) : State := (s.updPc 0 fun p => { p with clocks := (p.clocks + 1) % 64 }).wrB F.PC_STAT_DRAIN 0 (s.drainNow 0)

/-- A read of granule 0 alone in the queue, whose row is open. -/
def opened : State :=
  let s := pcW { PcState.init with queue := [entry false] }
  s.updPc 0 fun p => { p with banks := [(s.bankG 0, { Bank.idle with row := some (rowOf (s.gloc 0).page), page := (s.gloc 0).page, held := 3 })] }

/-- A flight of a request of this origin, of granule 0 read as w. -/
def flight (o : Origin) (w : Bytes) (newer : List Nat) : Flight := { req := { request with origin := o }, got := [], raws := [(0, w)], newer := newer }

/-- How granule 0 read as zeros but for the changed bits fl decodes: clean 0, corrected 1, uncorrectable 2. -/
def decodesAs (s : State) (fl : List (Nat × Byte)) : Nat :=
  match s.decodeBytes 0 (2 ^ 64 - 1) (flipBytes (bytesOf 100 0#8) fl) with
  | .clean _ => 0
  | .corrected .. => 1
  | .uncorrectable _ => 2
  | .poisoned => 3

theorem test_meets_RillsServeTheirQueues :
    (State.reset.rillRuns 63 = false ∧ (pcW PcState.init).rillRuns 0 = true) ∧
    (let s := pcW { PcState.init with banks := [(79, { Bank.idle with owed := 8 })] }
     (((s.pc 0).tiers s.sched.scrubPrec).findSome? fun k => (clocked s).chooseTier 0 allReady k).isSome ∧
      (∀ c < 79, (((clocked s).pc 0).bank c).rfm = false ∧ (((clocked s).pc 0).bank c).owed ≠ 8) ∧ (((clocked s).pc 0).bank 79).row = none ∧
      (((clocked s).pc 0).bank 79).rfm = false ∧ (((clocked s).pc 0).bank 79).owed = 8 ∧ allReady.ref.getLsbD 79 = true) ∧
    ((((pcW PcState.init).pc 0).tiers false).findSome? fun k => (clocked (pcW PcState.init)).chooseTier 0 allReady k).isNone ∧
    (((clocked opened).pc 0).candidates = [(0, entry false, 0)] ∧ (∀ b < 80, (((clocked opened).pc 0).bank b).rfm = false ∧ (((clocked opened).pc 0).bank b).owed = 0) ∧
      (clocked opened).remapOf ((clocked opened).gloc 0) = none ∧ (clocked opened).openFor 0 0 = true ∧
      readyCol allReady (entry false) ((clocked opened).bankG 0) = true) ∧
    ((opened.pc 0).queue[(0 : Fin 64).val]? = some (entry false) ∧ (entry false).bg = false) ∧
    (∀ o ∈ [Origin.scrub, .census 0 0, .spout 32 0],
      ((pcW { PcState.init with flights := [flight o [] []] }).pc 0).flights.find? (fun f => f.req.origin != .verify) = some (flight o [] [])) ∧
    ((pcW PcState.init).pc 0).flights.find? (fun f => f.req.origin != .verify) = none ∧
    (((pcW { PcState.init with merges := [⟨0, [request], true⟩] }).pc 0).merges = [⟨0, [request], true⟩] ∧
      ((pcW { PcState.init with merges := [⟨0, [request], true⟩] }).pc 0).room false = true) ∧
    (∀ newer ∈ [[], [0]], ((pcW { PcState.init with flights := [flight .verify (bytesOf 100 0#8) newer] }).pc 0).flights.find? (fun f => f.req.origin == .verify)
        = some (flight .verify (bytesOf 100 0#8) newer)) ∧
    (decodesAs (pcW PcState.init) [] = 0 ∧ decodesAs (pcW PcState.init) [(63, 1)] = 1 ∧
      decodesAs (pcW PcState.init) [(0, 1), (9, 2), (20, 4), (40, 8)] = 2) ∧
    (State.reset.wr F.RAS_SCRUB_PERIOD 0 0).rd F.RAS_SCRUB_PERIOD 0 = 0 ∧
    (up.setDefer true).flag F.SCH_STAT_DEFER 0 = true ∧ up.flag F.SCH_STAT_DEFER 0 = false ∧
    (∀ page ∈ [pcPages - 2, pcPages - 1],
      let s := pcW { PcState.init with scrubPage := page }
      s.pcSt 0 = 1 ∧ s.fenced 0 = false ∧ s.rd F.RAS_SCRUB_PERIOD 0 ≠ 0 ∧ s.map.mode ≠ 0 ∧ (s.pc 0).scrubQ = [] ∧ (s.pc 0).scrubPage = page) ∧
    pcPages - 2 + 1 < pcPages ∧ pcPages ≤ pcPages - 1 + 1 := by
  decide +kernel

/-- An instance that is going to self-refresh. -/
def refreshing : State := { (presenting.wr F.GLB_BOOTSTAT_PHASE 0 9) with boot := { presenting.boot with entry := none } }

/-- A spare of octet 0 whose next use is granted: a trim calibration of leg 1. -/
def granting : State :=
  { presenting with cal := { presenting.cal with acts := [{ kind := 2, leg := 1, use := 1, started := false, nowin := false }] } }

/-- A spare that measures pseudo-channel 1 while leg 1, whose trims and delays are good, waits to be carried. -/
def carrying : State :=
  let f := [F.CAL_RDLY_VALID, F.CAL_RDLY_VERIFIED, F.CAL_WDLY_VALID, F.CAL_WDLY_VERIFIED]
  let s := foldS f ((granting.wrB F.CAL_ZQ_VERIFIED 1 true).wrB F.CAL_VREF_VERIFIED 1 true) fun t x => t.wrB x 2 true
  { (s.wr F.SP_STAT_USE 0 1).wr F.SP_STAT_PC 0 1 with cal := { s.cal with acts := [{ kind := 2, leg := 1, use := 2, started := false, nowin := false }] } }

theorem test_meets_RillsChangeState :
    (State.reset.wr F.GLB_RETIRED_RETIRED 0 (2 ^ 63)).fenced 63 = true ∧
    (presenting.pcSt 0 = 1 ∧ (presenting.wr F.GLB_PSTATE_CUR 0 2).rd F.GLB_PSTATE_CUR 0 = 2 ∧ (presenting.pc 0).queue = []) ∧
    (presenting.answers (Reg.PC_CTL.addr 0) = true ∧ presenting.answers (Reg.PC_CTL.addr 63) = true ∧ presenting.pcSt 63 ≠ 1) ∧
    (refreshing.wantsRefresh = true ∧ refreshing.pcSt 0 = 1 ∧ refreshing.boot.entry = none) ∧
    (presenting.pcSt 63 ≠ 3 ∧ presenting.pcSt 63 ≠ 4) ∧
    ((presenting.wr F.PC_STAT_STATE 0 3).pcSt 0 = 3 ∧ presenting.phase = 8 ∧ presenting.power.shut = 0 ∧ presenting.boot.entry = none ∧ presenting.cur < 3 ∧
      presenting.flag F.CAL_STAT_SWITCH 0 = false) ∧
    presenting.nextGrant 7 = none ∧ ((granting.nextGrant 0).isSome ∧ granting.spareUse 0 = 0) ∧
    ((carrying.nextGrant 0).isSome ∧ carrying.spareUse 0 ≠ 0) ∧
    (let s : State := { refreshing with boot := { refreshing.boot with entry := some 3, entering := false }, power := { refreshing.power with shut := 0 } }.wr F.GLB_BOOTSTAT_PHASE 0 8
     s.wantsRefresh = true ∧ s.pcSt 0 = 1 ∧ s.boot.entry = some 3 ∧ s.boot.entering = false ∧ s.phase ≠ 9 ∧ s.power.shut ≠ 1) := by
  decide +kernel

theorem test_meets_SettingsAreChecked :
    up.answers (Reg.GLB_PREG.addr 3) = true ∧ up.answers (Reg.GLB_BCW.addr 3) = true ∧ (∀ k : Fin 3, up.answers ((tmgReg k).addr 1) = true) ∧
    up.answers (Reg.ITK_REQ.addr 63) = true ∧ F.ITK_REQ_BURST.of (up.proposed .ITK_REQ 63 0 false) = 0 ∧
    (F.ITK_REQ_BURST.of (up.proposed .ITK_REQ 63 (2 ^ 64 - 1) false) ≠ 0 ∧ F.ITK_REQ_MINBW.of (up.proposed .ITK_REQ 63 0 false) ≤ up.rd F.ITK_REQ_MINBW 63) ∧
    (up.answers (Reg.GLB_MAPCTL.addr 0) = true ∧ (port 2 []).anyOpen = true ∧ up.anyOpen = false ∧ up.flag F.GLB_MAPSTAT_BUSY 0 = false ∧
      up.spoutsStopped = true ∧ up.stackOk = true) ∧
    (up.answers (Reg.BAS_CFG.addr 0) = true ∧ up.rd F.BAS_CFG_PINCAP 0 ≤ 75 ∧ up.rd F.BAS_CFG_FLOOR 0 ≤ 100 ∧ 1 ≤ up.rd F.BAS_CFG_GUARD 0 ∧
      up.rd F.BAS_CFG_GUARD 0 ≤ 75) ∧
    up.basin.lookups < 1024 ∧ (let b := { up.basin with lookups := 1024, hits := 1024 }; 1024 ≤ b.lookups ∧ b.hits ≤ b.lookups) ∧
    (up.answers (Reg.TXU_RECBASE.addr 0) = true ∧ (slotW up 63 { TxSlot.init with st := .active }).pkgBusy = true ∧
      F.TXU_RECBASE_BASE.of (2 ^ 64 - 1) ≠ up.rd F.TXU_RECBASE_BASE 0 ∧ up.pkgBusy = false) := by
  decide +kernel

/-- Aqueduct port 1 in state st as a. -/
def aqW (st : Nat) (a : AqPort) : State := { up.wr F.AQD_STAT_STATE 1 st with aqd := [(1, a)] }

theorem test_meets_AqueductPortsTrain :
    ((aqW 0 AqPort.init).aqSt 1 = 0 ∧ up.domOn 57 = true ∧ up.flag F.AQD_CTL_DISABLE 1 = false) ∧ (aqW 1 AqPort.init).aqSt 1 = 1 ∧
    sensedLanes 0xFF % 16 ≠ 0 ∧ sensedLanes 0 % 16 = 0 ∧
    (∀ b ∈ [true, false],
      let seen := foldS (List.range 4) ((aqW 1 { AqPort.init with detectRec := b }).updAq 1 fun a => { a with sense := 0 }) fun t l =>
        (t.wrB F.AQD_LANE_DETECT (laneOf 1 l) false).exclude 1 l 1
      (seen.aq 1).detectRec = b) ∧
    (let s := (up.wr F.AQD_STAT_STATE 0 2).wr F.AQD_STAT_STATE 1 2; s.aqSt 0 = 2 ∧ s.aqSt 1 = 2 ∧ ∀ l < 4, s.flag F.AQD_LANE_DETECT (laneOf 0 l) = false) ∧
    ((aqW 4 AqPort.init).aqSt 1 = 4 ∧ ((aqW 4 AqPort.init).aq 1).codewords = []) ∧
    (((aqW 4 { AqPort.init with codewords := [0, 0, 0] }).aq 1).codewords = [0, 0, 0] ∧ (aqW 4 AqPort.init).time.ticks < 0 + 100000) ∧
    ((aqW 3 { AqPort.init with everUp := true }).aqSt 1 = 3 ∧ ((aqW 3 { AqPort.init with everUp := true }).aq 1).everUp = true ∧ (aqW 5 AqPort.init).aqSt 1 = 5) ∧
    (((aqW 4 AqPort.init).wr F.AQD_STAT_LUP 1 0xF).rd F.AQD_STAT_LUP 1).testBit 3 = true ∧
    ((List.range 4).filter fun l => (8#4).getLsbD l && (((aqW 4 AqPort.init).wr F.AQD_LANE_EXCL (laneOf 1 3) 1).wr F.AQD_LANE_CAUSE (laneOf 1 3) 3).flag F.AQD_LANE_EXCL (laneOf 1 l) &&
      (((aqW 4 AqPort.init).wr F.AQD_LANE_EXCL (laneOf 1 3) 1).wr F.AQD_LANE_CAUSE (laneOf 1 3) 3).rd F.AQD_LANE_CAUSE (laneOf 1 l) == 3) ≠ [] ∧
    up.answers (Reg.AQD_CTL.addr 1) = true ∧ up.answers (Reg.AQD_RING.addr 0) = true := by
  decide +kernel

/-- A frame of n payload bytes for node 0 with the number that an UP port expects first. -/
def frame (n : Nat) : Frame := { Frame.zero with payload := List.replicate n 0, lseq := 1, size := 0, rtag := 7, src := 1 }

/-- An instance that waits for a response under the tag 7. -/
def remote : Remote := { rtag := 7, origin := .spout 32 0, node := 1, port := 0, size := 64, reads := true, taken := true }

theorem test_meets_FramesAreTaken :
    (aqW 4 AqPort.init).aqSt 1 = 4 ∧ (frame 1).payload.length = 1 ∧
    (∀ n ∈ [0, 8, 16], (aqW 4 AqPort.init).inOrder 1 (frame n) = true ∧ (frame n).dst.toNat = (aqW 4 AqPort.init).node ∧ (frame n).op.toNat < 7) ∧
    ((frame 0).payload.length = 0 ∧ (frame 8).payload.length = 8 ∧ (frame 16).payload.length = 16) ∧
    (∃ n ∈ (dataLens 0), (aqW 4 AqPort.init).inOrder 1 (frame n) = true ∧ (dataLens (frame n).size).contains (frame n).payload.length = true ∧
      ((dataLens 0).map (32 + ·)).contains (frame (32 + n)).payload.length = true) ∧
    (respLens (frame 0)).contains (frame 0).payload.length = true ∧
    (let s := ({ aqW 4 AqPort.init with ring := { up.ring with remotes := [remote] } } : State)
     ((s.takeAck 1 (frame 0)).ring.remotes.find? fun r => r.rtag = (frame 0).rtag.toNat && r.node == (frame 0).src.toNat && r.taken) = some remote) ∧
    (aqW 4 AqPort.init).ring.remotes = [] ∧
    (let f := { frame 0 with dst := 2, ttl := 9 }
     let s := ((aqW 4 AqPort.init).wr F.AQD_STAT_STATE 0 4).wr F.AQD_ROUTE_DIR 2 1
     s.inOrder 1 f = true ∧ f.dst.toNat ≠ s.node ∧ (s.transit 1 { f with typ := 1 }).isSome ∧ ((s.takeAck 1 f).transit 1 { f with typ := 1 }).isSome) ∧
    (frame 0).payload = [] ∧ (frame 0).op = 0 ∧
    ((aqW 4 { AqPort.init with replayDue := true }).aq 1).replayDue = true ∧ ((aqW 4 { AqPort.init with ackDue := true }).aq 1).ackDue = true ∧
    (let s := up.wr F.AQD_STAT_STATE 0 4; s.aqSt 0 = 4 ∧ s.flag F.AQD_RING_DUP 0 = false ∧ s.aqSt 1 ≠ 4) ∧
    (let s := aqW 4 AqPort.init; s.aqSt 0 ≠ 4 ∧ s.flag F.AQD_RING_DUP 0 = false) ∧ (let s := (aqW 4 AqPort.init).wr F.AQD_STAT_STATE 0 4; s.aqSt 0 = 4 ∧ s.aqSt 1 = 4) ∧
    (63 : Fin 64).val ≠ up.node ∧ (0 : Fin 64).val = up.node ∧ ([remote].find? fun q => q.rtag = (7#12).toNat) = some remote ∧ remote.taken = true := by
  decide +kernel

theorem test_meets_WeirsSend :
    up.answers (Reg.WEI_Q.addr 15) = true ∧ up.answers (Reg.WEI_CLSQ.addr 1) = true ∧ up.answers (Reg.WEI_GATE.addr 1) = true ∧ (up.weir 1).waitG = [] ∧
    ((aqW 3 AqPort.init).aqSt 1 = 3 ∧ ((aqW 3 AqPort.init).aq 1).outNow = []) ∧
    (((aqW 3 { AqPort.init with outNow := [{ Frame.zero with typ := 0x12 }] }).aq 1).outNow = [{ Frame.zero with typ := 0x12 }]) ∧ up.aqSt 1 ≠ 3 ∧ up.aqSt 1 ≠ 4 ∧
    up.aqSt 1 ≠ 5 ∧ ((aqW 4 { AqPort.init with replays := [Frame.zero] }).aq 1).replays = [Frame.zero] ∧
    (((aqW 4 AqPort.init).aq 1).replays = [] ∧ ((aqW 4 AqPort.init).aq 1).linkReady = none) := by
  decide +kernel

/-- The wall counter's edges: l the last accepted one at tick t, in WSTATE w. -/
def timed (l : Option Nat) (t w : Nat) : State :=
  let s := up.wr F.TIM_WSTAT_WSTATE 0 w
  { s with time := { s.time with lastPps := l, lastEdge := l.getD 0, ticks := t } }

theorem test_meets_WallTimeKeeps :
    State.reset.phase = 0 ∧ (∀ w < 4, (timed none 0 w).phase ≠ 0) ∧ (timed none 0 0).tooSoon 9 = false ∧ (timed none 0 1).rd F.TIM_WSTAT_WSTATE 0 = 1 ∧
    (∀ w ∈ [1, 2], let u := (timed none 0 w).stepWall 0; u.rd F.TIM_WSTAT_WSTATE 0 = w) ∧
    ((timed (some 0) 49999999 0).time.lastPps = some 0 ∧ 10 * (timed (some 0) 49999999 0).time.ticks + 9 < 0 + 500000000) ∧
    ((timed none 0 0).time.lastPps = none ∧ (timed none 0 0).rd F.TIM_WSTAT_WSTATE 0 = 0 ∧ (timed none 0 0).time.edges = 0) ∧
    (0 + 500000000 ≤ 10 * (timed (some 0) 50000000 2).time.ticks ∧ (timed (some 0) 50000000 2).rd F.TIM_WSTAT_WSTATE 0 = 2 ∧
      (timed (some 0) 50000000 2).time.discards < 3 ∧ 10 * (timed (some 0) 50000000 2).time.ticks - (timed (some 0) 50000000 2).time.lastEdge < 999000000) ∧
    up.answers (Reg.TIM_WALL.addr 0) = true ∧ up.rd F.TIM_WSTAT_WSTATE 0 ≠ 2 := by
  decide +kernel

/-- The tide in state w at the value 0, with the last value 0. -/
def tides (w : Nat) : State := up.wr F.TIM_TIDE_TSTATE 0 w

/-- What a sample of the tide leaves before it acts. -/
def seen (s : State) : State := s.wr F.GLB_PINSTAT_TIDE_VLD 0 1

theorem test_meets_TideDrives :
    (State.reset.phase = 0 ∧ (up.wr F.GLB_BOOTSTAT_PHASE 0 7).phase = 7 ∧ (up.wr F.GLB_BOOTSTAT_PHASE 0 9).phase = 9) ∧ bits (0x0F01#32).toNat 7 0 ≠ 0 ∧
    ((seen (tides 0)).phase = 8 ∧ (seen (tides 0)).time.rebase = false ∧ (seen (tides 0)).rd F.TIM_TIDE_TSTATE 0 = 0) ∧
    ((seen (tides 1)).rd F.TIM_TIDE_TSTATE 0 ≠ 0 ∧ (seen (tides 1)).time.tLast = 0 ∧ (0 + 2 ^ 32 - (seen (tides 1)).time.tLast) % 2 ^ 32 = 0 ∧
      (1 + 2 ^ 32 - (seen (tides 1)).time.tLast) % 2 ^ 32 < 2 ^ 31 ∧ 2 ^ 31 ≤ (2 ^ 31 + 2 ^ 32 - (seen (tides 1)).time.tLast) % 2 ^ 32) ∧
    (seen { tides 1 with time := { (tides 1).time with rebase := true } }).time.rebase = true ∧ (tides 1).rd F.TIM_TIDE_TSTATE 0 = 1 ∧
    (let s := (tides 2).wr F.TIM_TIDE_RATEV 0 1
     s.rd F.TIM_TIDE_TSTATE 0 = 2 ∧ s.flag F.TIM_TCTL_HOLDMODE 0 = false ∧ s.flag F.TIM_TIDE_RATEV 0 = true ∧
      ((s.time.tLast + s.time.rho.1 * (s.wall - s.time.wallLast) / s.time.rho.2) % 2 ^ 32 + 2 ^ 32 - s.rd F.TIM_TIDE_TIDE 0) % 2 ^ 32 < 2 ^ 31) ∧
    up.answers (Reg.TIM_TCTL.addr 0) = true ∧ up.answers (Reg.TIM_EVT0.addr 255) = true ∧ evt0Code (up.proposed .TIM_EVT0 255 0 false) = 0 ∧
    (up.phase = 8 ∧ up.cur = 0 ∧ up.boot.leaving = false ∧ bits (0x0F00#32).toNat 7 0 = 0 ∧ up.flag F.SCH_STAT_DEFER 0 = false ∧
      (up.setDefer true).flag F.SCH_STAT_DEFER 0 = true ∧ (up.setDom 64 0).domOn 64 = false ∧ up.domOn 64 = true) := by
  decide +kernel

/-- Domain 63 waits to wake, or ramps, first or again. -/
def waking (retry : Bool) : State := { up with power := { up.power with wakes := [(63, retry)], ramps := [(63, retry)] } }

/-- The regulators l have failed. -/
def failed (l : List Nat) : State := foldS l up fun t r => t.wr F.PWR_REG_FAILED r 1

/-- Triad 7's working regulators carry c tenths of an ampere each. -/
def loaded (s : State) (c : Nat) : State := { s with power := { s.power with curs := [(21, c), (22, c), (23, c)] } }

theorem test_meets_PowerIsSequenced :
    up.answers (Reg.PWR_DCTL.addr 65) = true ∧ up.answers (Reg.PWR_TRI.addr 7) = true ∧ (failed [23]).answers (Reg.PWR_REG.addr 23) = true ∧
    (failed [23]).flag F.PWR_REG_FAILED 23 = true ∧
    (let s := { waking false with power := { (waking false).power with ramps := [] } }
     s.power.wakes = [(63, false)] ∧ s.power.shut = 0 ∧ s.slewing (triadOf 63) = false ∧ s.power.delayed = [] ∧ s.within (triadOf 63) 85 = true) ∧
    (loaded up 100000).within 7 85 = false ∧ (waking true).power.ramps = [(63, true)] ∧ (waking true).working (triadOf 63) ≠ [] ∧
    (Store.get none (failed [23]).power.rearm 23 = none ∧ up.flag F.PWR_REG_FAILED 23 = false) ∧
    ((up.wr F.PWR_TRI_CAPLVL 7 3).rd F.PWR_TRI_CAPLVL 7 ≠ 0 ∧ (up.wr F.PWR_TRI_CAPLVL 7 3).within 7 45 = true) ∧
    ((failed [21, 22]).power.shut = 0 ∧ ((failed [21, 22]).working 7).length < 2) ∧
    ((failed [21]).power.shut = 0 ∧ ((failed [21]).working 7).length = 2 ∧ (loaded (failed [21]) 100000).within 7 100 = false ∧
      Store.get [] (failed [21]).power.darkQ 7 = []) ∧
    (let s := ({ up with power := { up.power with darkQ := [(7, [[57]])], darkCause := [(7, 1)] } } : State).setDom 57 3
     ((List.range 8).find? fun k => ((Store.get [] s.power.darkQ k).headD []).contains 57) = some 7 ∧ s.domSt 57 = 3 ∧ Store.get 0 s.power.darkCause 7 = 1) ∧
    (up.rd F.PWR_CAP_CAP 0 < 0xFFFF + 1 ∧ up.rd F.PWR_STAT_LADDER 0 < 4 ∧ 0 * 100 ≤ up.rd F.PWR_CAP_CAP 0 * 95 ∧ 0 < (up.wr F.PWR_STAT_LADDER 0 4).rd F.PWR_STAT_LADDER 0 ∧
      up.rd F.PWR_CAP_CAP 0 * 95 < up.rd F.PWR_CAP_CAP 0 * 100) := by
  decide +kernel

/-- The clock c at the thermal level l, with every sensor at t °C. -/
def heated (c l : Nat) (t : Nat) : State :=
  { foldS (List.range 16) up fun u n => u.wr F.THM_SENS_TEMP n t with power := { up.power with lvls := [(c, l)] } }

theorem test_meets_HeatIsLimited :
    (let raw := List.replicate 16 (some (50 : Int)); (((up.takeReadings raw).testSensors raw).showExcl).exclCount < 5) ∧
    (∀ shut ∈ [0, 2],
      let raw := List.replicate 16 (some (50 : Int))
      let s : State := { up with power := { up.power with shut := shut } }
      let a := ((s.takeReadings raw).testSensors raw).showExcl
      let b : State := { a with power := { a.power with quorum := false } }
      let e := ((foldS (List.range 6) (foldS (List.range 16) b.showTemps fun t k => t.warnStep k) fun t k => t.raiseLvl k).showLevels).decideTrip
      a.exclCount < 5 ∧ e.power.shut = shut) ∧
    up.thmLvl 6 = 0 ∧
    ((heated 0 1 105).thmLvl 0 = 1 ∧ throttleOf 0 ≤ (heated 0 1 105).ruling 0 ∧ (heated 0 1 104).ruling 0 < throttleOf 0 ∧
      (heated 0 1 0).ruling 0 ≤ throttleOf 0 - (heated 0 1 0).hyst ∧ (heated 0 1 0).ruling 0 < throttleOf 0) ∧
    ((heated 5 2 104).thmLvl 5 = 2 ∧ (heated 5 2 104).ruling 5 < throttleOf 5) ∧ (95#8).toInt ≤ 95 ∧ 95 < (96#8).toInt ∧
    (((up.stackTemp (some 96)).raiseLvl 6).showLevels).power.stackRun = 0 ∧ up.answers (Reg.THM_SENS.addr 15) = true ∧
    ({ up with power := { up.power with shut := 1 } } : State).power.shut = 1 ∧
    (let s : State := { up with power := { up.power with shut := 2, shutAt := 120 } }
     s.power.shut = 2 ∧ s.power.region = none ∧ s.allCool = true ∧ s.flag F.THM_TRIP_HELD 0 = false) ∧
    (let s : State := { up with power := { up.power with shut := 2, shutAt := 120, cool := true } }.wr F.THM_TRIP_HELD 0 1
     s.flag F.THM_TRIP_HELD 0 = true ∧ s.allCool = true ∧ s.answers (Reg.THM_TRIP.addr 0) = true ∧ s.power.shut = 2 ∧ s.power.region = none ∧ s.power.cool = true) := by
  decide +kernel

/-- An activity of leg 127. -/
def act (kind use : Nat) (started : Bool) : Act := { kind := kind, leg := 127, use := use, started := started, nowin := false }

/-- The activity a in hand. -/
def actW (a : Act) : State := { up with cal := { up.cal with acts := [a] } }

theorem test_meets_LegsAreCalibrated :
    ((actW (act 2 1 true)).actOf 127 = some (act 2 1 true) ∧ Store.find (actW (act 2 1 true)).cal.pending 127 = none ∧
      Store.get [] (actW (act 2 1 true)).cal.meas 127 = [] ∧ agreeing (List.replicate 7 512) (List.replicate 7 514) = true) ∧
    (let s := { actW (act 2 1 true) with cal := { (actW (act 2 1 true)).cal with pending := [(127, List.replicate 7 512)] } }
     s.actOf 127 = some (act 2 1 true) ∧ s.atPoint 127 = true ∧ Store.find s.cal.pending 127 = some (List.replicate 7 512)) ∧
    ((actW (act 4 1 true)).actOf 127 = some (act 4 1 true) ∧ (act 4 1 true).kind ≠ 2 ∧
      (Store.get [] (actW (act 4 1 true)).cal.points 127).length < sweepPoints 4 ∧ Store.find (actW (act 4 1 true)).cal.pendDly 127 = none) ∧
    (sweepPoints 4 ≤ (List.replicate 6 0xF).length ∧ ((List.replicate 6 0xF).all fun p => p % 16 == 15) = true ∧ ((List.replicate 6 7).all fun p => p % 16 == 15) = false) ∧
    up.actOf 127 = none ∧ ((presenting.pcSt 0 = 1 ∧ presenting.cal.acts = [])) ∧
    ((act 0 0 false).kind = 0 ∧ (act 0 0 false).leg / 2 = 63 ∧ (act 0 0 false).started = false ∧ (actW (act 0 0 false)).cal.acts = [act 0 0 false] ∧
      Store.find (actW (act 0 0 false)).cal.pendDly 127 = none) ∧
    up.legBusy 127 = false ∧ ((actW (act 2 1 false)).cal.acts = [act 2 1 false] ∧ (act 2 1 false).kind = 2) ∧
    (up.answers (Reg.CAL_CTL.addr 0) = true ∧ F.CAL_CTL_RECAL.of (2 ^ 9) = 1 ∧ up.pcSt (F.CAL_CTL_PC.of (2 ^ 9)) ≠ 1) ∧
    (up.answers (Reg.CAL_FSP.addr 0) = true ∧ up.fsp = 0 ∧ up.calHeld = false ∧ up.cal.reqHeld = false ∧
      F.CAL_FSP_RATE0.of (up.proposed .CAL_FSP 0 (up.reg .CAL_FSP 0) false) = up.rd F.CAL_FSP_RATE0 0 ∧
      F.CAL_FSP_RATE1.of (up.proposed .CAL_FSP 0 (up.reg .CAL_FSP 0) false) ≤ 3 ∧ up.rd F.CAL_FSP_RATE0 0 ≤ 3 ∧ up.pstateBusy = false) ∧
    ((up.wrB F.CAL_STAT_HOLD 0 true).flag F.CAL_STAT_HOLD 0 = true ∧ (up.wrB F.CAL_STAT_HOLD 0 true).cal.acts = [] ∧ up.flag F.CAL_STAT_HOLD 0 = false) ∧
    ((up.wrB F.CAL_STAT_SWITCH 0 true).flag F.CAL_STAT_SWITCH 0 = true ∧ (up.wrB F.CAL_STAT_SWITCH 0 true).cal.padLock = false) := by
  decide +kernel

/-- A power state k that is asked for. -/
def entering (k : Nat) : State := { up with boot := { up.boot with entry := some k } }

theorem test_meets_PowerStatesAndTiers :
    (up.answers (Reg.GLB_PSTATE.addr 0) = true ∧ 4 ≤ F.GLB_PSTATE_REQ.of (up.proposed .GLB_PSTATE 0 7 false) ∧
      F.GLB_PSTATE_REQ.of (up.proposed .GLB_PSTATE 0 1 false) = 1 ∧ up.boot.entry = none ∧ up.boot.leaving = false ∧ up.phase = 8 ∧ up.power.shut = 0 ∧ up.cur = 0) ∧
    ((entering 3).boot.entry = some 3 ∧ (entering 3).boot.entering = false ∧ (entering 3).quiesced = true ∧ ((entering 3).setSpSt 0 2).quiesced = false) ∧
    ((up.wr F.GLB_PSTATE_CUR 0 1).cur = 1 ∧ (up.wr F.GLB_PSTATE_CUR 0 3).cur = 3 ∧ (up.wr F.GLB_PSTATE_CUR 0 4).cur = 4) ∧
    (up.rd F.GLB_PSTATE_REQ 0 = 0 ∧ (up.wr F.GLB_PSTATE_IDLENS 0 100).rd F.GLB_PSTATE_IDLENS 0 ≠ 0 ∧ (∀ n < 161, up.spSt n = 0) ∧ (∀ k < 64, (up.slot k).st = .free) ∧
      (∀ p < 8, up.tagsOf p = [] ∧ Store.get [] up.intake.tagWait p = []) ∧ up.intake.held = [] ∧
      (∀ n < 64, (up.pc n).queue = [] ∧ (up.pc n).waiting = [] ∧ (up.pc n).merges = [] ∧ (up.pc n).flights = [])) ∧
    up.answers (Reg.GLB_TIER.addr 0) = true ∧ (up.answers 0x800000 = true ∧ (0x83FFF8#24).toNat < 0x840000 ∧ (0x83FFF8#24).toNat % 8 = 0 ∧
      up.flag F.GLB_TIERSTAT_BUSY 0 = false) := by
  decide +kernel

/-- The pins of instance 0 at power-on. -/
def pins0 : PinLevels :=
  { mgrSel := false, instId := 0, refclk := true, rstN := true, compute := false, fuse := 0, stackId := 0, stackOk := true, failRill := 0, failSpare := 0,
    failWin := false, failSram := false }

/-- An instance whose pins are known and whose clock and reset are good. -/
def awake : State := { up with boot := { up.boot with env := some pins0, refclk := true, rstN := true } }

theorem test_meets_ResetsRestart :
    awake.boot.env ≠ none ∧ ({ awake with boot := { awake.boot with rstN := false } } : State).boot.rstN = false ∧ awake.boot.refclk = true ∧ awake.phase ≠ 0 ∧
    (up.answers (Reg.GLB_RESET.addr 0) = true ∧ up.phase = 8 ∧ up.power.shut = 0 ∧ up.cur = 0 ∧ (up.wr F.GLB_BOOTSTAT_PHASE 0 7).phase ≠ 8) ∧
    (({ up with boot := { up.boot with compute := true } } : State).boot.compute = true ∧ up.boot.compute = false ∧ up.computeIdle = false ∧ up.domOn 63 = true) ∧
    ((up.wr F.GLB_BOOTSTAT_PHASE 0 6).phase = 6 ∧ up.fenced 63 = false ∧ up.boot.tested.contains 63 = false) ∧
    (up.wr F.GLB_MAPSTAT_BUSY 0 1).flag F.GLB_MAPSTAT_BUSY 0 = true ∧
    ((worker.wr F.GLB_BOOTSTAT_PHASE 0 2).phase = 2 ∧ (worker.wr F.GLB_BOOTSTAT_PHASE 0 2).role = 1) ∧ awake.boot.rstN = true ∧
    ((awake.wr F.GLB_BOOTSTAT_PHASE 0 0).phase = 0 ∧ (awake.wr F.GLB_BOOTSTAT_PHASE 0 0).cause = 0 ∧
      ((awake.wr F.GLB_BOOTSTAT_PHASE 0 0).wr F.GLB_BOOTSTAT_CAUSE 0 1).cause = 1 ∧ awake.boot.env = some pins0 ∧ (worker.wr F.CAS_STAT_ROLE 0 0).role = 0) ∧ (∀ op ∈ [0, 1], (BitVec.ofNat 8 op).toNat ≤ 1) ∧
    (∀ op ∈ [2, 3], 2 ≤ (BitVec.ofNat 8 op).toNat ∧ (BitVec.ofNat 8 op).toNat ≤ 3) ∧ 4 ≤ (4#8).toNat := by
  decide +kernel

/-- An instance that has drawn its nonce, with its own HELLO back and those of l heard. -/
def heard (l : List HelloP) : State := { State.reset with cas := { State.reset.cas with drawn := true, returned := true, heard := l } }

/-- HELLO of instance k, with a strap or without. -/
def hello (k : Inst) (strap : Bool) : HelloP := { inst := k, strap := strap, nonce := 5, reply := false, mgr := 0, mgrValid := false, epoch := 0 }

/-- Every other instance's HELLO. -/
def others : List HelloP := (List.range 15).map fun k => hello (Fin.ofNat 16 (k + 1)) false

/-- What a HELLO leaves before it acts. -/
def takenE (s : State) : State := ((s.passHello (msg 1 true) (hello 1 false)).casTake (msg 1 true) 1 true).1

/-- What a message of type typ from instance 0 leaves before it acts. -/
def taken0 (typ : Nat) (s : State) : State := (s.casTake (msg 0 true) typ false).1

theorem test_meets_CascadeIsKept :
    ((((heard []).passHello (msg 1 true) (hello 1 false)).casTake (msg 1 true) 1 true).2 ∧ (takenE (heard [])).cas.drawn = true ∧ (takenE (heard [])).me = 0 ∧
      (takenE (heard [])).cas.nonce = 0) ∧
    ((takenE (heard [])).cas.heard = [] ∧
      (let r := { hello 2 false with reply := true, mgrValid := true }
       (takenE (heard [r])).role = 0 ∧ (takenE (heard [r])).cas.heard.find? (fun h => h.reply && h.mgrValid) = some r)) ∧
    ((heard others).cas.drawn = true ∧ (heard others).role = 0 ∧ (heard others).cas.returned = true) ∧
    electFrom (heard [hello 0 false]).hellos = none ∧ electFrom (heard [hello 3 true]).hellos = some 3 ∧ (heard [hello 3 true]).me ≠ 3 ∧
    (let s := (heard others).wr F.GLB_ID_MGR_STRAP 0 1
     electFrom s.hellos = some s.me ∧ s.hellos.any (fun h => h.strap) = true ∧
      maskOf ((s.hellos.filter fun h => !dupIn s.hellos h.inst.val).map fun h => h.inst.val) = 0xFFFF) ∧
    (((heard []).casTake (msg 1 true) 2 true).2 ∧ ((heard []).casTake (msg 1 true) 2 true).1.role = 0 ∧ ((heard []).casTake (msg 1 true) 2 true).1.cas.drawn = true ∧ ((heard []).casTake (msg 1 true) 2 true).1.cas.returned = true ∧
      ((heard []).casTake (msg 1 true) 2 true).1.strap = false ∧ (msg 1 true).src.val ≠ ((heard []).casTake (msg 1 true) 2 true).1.me) ∧
    (let s := (manager.wr F.GLB_BOOTSTAT_PHASE 0 3).updCas fun k => { k with startAt := 15 }; s.role = 2 ∧ s.phase = 3 ∧ s.cas.startAt = 15 ∧ s.me = 0) ∧
    (manager.role = 2 ∧ manager.cas.away < 3 ∧ worker.role = 1 ∧ worker.cas.linkDown = false ∧ worker.cas.lostMgr = false) ∧
    ((manager.casTake (msg 0 true) 3 false).2 ∧ (taken0 3 manager).role ≠ 3) ∧
    (∀ typ ∈ [4, 5], (worker.casTake (msg 0 true) typ false).2 ∧ (taken0 typ worker).role = 1 ∧ (msg 0 true).src.val = (taken0 typ worker).mgr) ∧
    ((manager.casTake (msg 0 true) 4 false).2 ∧ (taken0 4 manager).role = 2 ∧ (msg 0 true).src.val = (taken0 4 manager).me ∧ (taken0 4 manager).cas.broken = false) ∧
    (∀ typ ∈ [6, 7], (manager.casTake (msg 0 true) typ false).2 ∧ (taken0 typ manager).role = 2) ∧
    ((msg 1 true).src.val ≠ manager.me ∧ (msg 1 true).bc = true ∧ (msg 1 false).bc = false ∧ (msg 1 false).dst.val = manager.me ∧ (msg 0 true).src.val = manager.me ∧
      manager.role ≠ 3 ∧ (2#8) ≠ 1 ∧ ({ msg 0 false with dst := 5 } : CasHdr).dst.val ≠ manager.me) ∧
    (let s := manager.wr F.CAS_STAT_MEMBERS 0 1; s.role = 2 ∧ s.cas.broken = false ∧ s.memberList = [s.me]) := by
  decide +kernel

/-- A configuration block whose six areas are valid, 1 unit each at unit k, and the classes' permissions set. -/
def cfgOn : List Nat := (List.range 5).map (fun k => 2 ^ 63 + 2 ^ 48 + k * 2 ^ 21) ++ [2 ^ 64 - 1]

/-- The font with its services, its configuration and the pages l, serving a call of func with args. -/
def serves (l : List PoolPage) (func : Nat) (args : List Nat) : State :=
  let s := (up.wr F.FNT_FWCTL_RUNNING 0 1).wr F.FNT_SVCBASE_VALID 0 1
  { s with font := { s.font with cfg := cfgOn, pages := l, calls := [{ sp := 32, func := func, args := args, call := true, gd := 1 }] } }

/-- A LOCAL page of 4 KiB under the handle 9, counted once. -/
def page (spill : Option (Nat × Nat)) : PoolPage := { handle := 9, s := 12, addr := 2 ^ 21, count := 1, spill := spill, hash := some 77 }

/-- `serves` with memory that the font can read and a route to node 1. -/
def fonted (l : List PoolPage) (func : Nat) (args : List Nat) : State :=
  let s := ((serves l func args).wr F.GLB_CAPACITY_CAP 0 (2 ^ 30)).wr F.AQD_ROUTE_DIR 1 1
  { s with map := { s.map with mode := 1 } }

theorem test_meets_ServicesAnswer :
    ((serves [page none] 0x101 [9]).poolOn = true ∧ (serves [page none] 0x101 [9]).page 9 = some (page none) ∧ (serves [page none] 0x101 [9]).serving 0x101 [9] = true ∧
      (page none).count < 65535 ∧ (serves [page none] 0x102 [9]).serving 0x102 [9] = true) ∧
    ((fonted [page none] 0x103 [9]).serving 0x103 [9] = true ∧ ((fonted [page none] 0x103 [9]).fontRead (2 ^ 21) 64).2.isSome ∧ (page none).hash ≠ none) ∧
    ((fonted [page none] 0x105 [9, 1]).serving 0x105 [9, 1] = true ∧ (fonted [page none] 0x105 [9, 1]).spillOn = true ∧ (fonted [page none] 0x105 [9, 1]).route 1 = 1 ∧
      ((fonted [page none] 0x105 [9, 1]).spillPlace 1 12).isSome) ∧
    ((fonted [page (some (1, 0))] 0x106 [9]).serving 0x106 [9] = true ∧ (page (some (1, 0))).spill ≠ none ∧ ((fonted [page (some (1, 0))] 0x106 [9]).arenaPlace 12).isSome) ∧
    (serves [page none] 0x107 [9]).serving 0x107 [9] = true ∧
    (let s := (serves [] 0x101 [9]).wr F.FNT_SVCBASE_VALID 0 0; s.poolOn = false ∧ s.serving 0x101 [9] = true) ∧ (serves [] 0x107 [9]).page 9 = none ∧
    ((serves [] 0x100 [22]).serving 0x100 [22] = true ∧ (serves [] 0x100 [21]).serving 0x100 [21] = true ∧ ((serves [] 0x100 [21]).arenaPlace 21).isSome ∧
      ({ serves [] 0x100 [21] with font := { (serves [] 0x100 [21]).font with cfg := cfgOn.set 1 (2 ^ 63) } } : State).arenaPlace 21 = none) ∧
    ((serves [page none] 0x104 [77, 12]).serving 0x104 [77, 12] = true ∧
      (serves [page none] 0x104 [77, 12]).font.pages.find? (fun p => p.hash == some 77 && p.s == 12) = some (page none) ∧
      (serves [page none] 0x104 [78, 12]).font.pages.find? (fun p => p.hash == some 78 && p.s == 12) = none) ∧
    (((serves [] 0x200 [255]).headCall.map fun c => c.args.headD 0 % 256) = some 255) ∧
    (((pcW { PcState.init with queue := [{ entry false with req := { request with origin := .census 0 0 } }] }).pc 0).queue.map fun x => x.req.origin) = [.census 0 0] ∧
    (let s : State := { up with font := { up.font with mboxBusy := [7, 6, 5], mbox := [(40, 0x3000000000000), (41, 63), (48, 0x2000000000000), (49, 0), (56, 0x1000000000000)] } }
     s.font.mboxBusy.contains 7 = true ∧ s.mboxFind 1 none = some 7 ∧ s.mboxFind 2 (some 0) = some 6 ∧ s.mboxFind 3 (some 63) = some 5 ∧ s.pcSt 0 ≠ 1 ∧
      s.anyOpen = false) ∧
    (up.font.bmc.length < 8 ∧ 8 ≤ (List.replicate 8 ([] : List Word)).length ∧ up.mboxFind 1 none = none ∧ presenting.pcSt 0 = 1 ∧ (port 2 []).anyOpen = true) ∧
    up.answers (Reg.FNT_SVCBASE.addr 0) = true ∧ up.answers 0x904000 = true ∧ (Store.get 0 up.font.keys (3 * 16 + 12)).testBit 63 = false ∧
    (Store.get 0 [(60, 2 ^ 63)] (3 * 16 + 12)).testBit 63 = true ∧ up.answers (Reg.FNT_FWCTL.addr 0) = true := by
  decide +kernel

/-- The header of an image of 4,096 bytes, number 1. -/
def header : ImageHdr := [0x50, 0x5A, 1, 0, 1, 0] ++ List.replicate 10 0 ++ toLE 8 4096 ++ List.replicate 104 0

/-- A receiver in the plume of `header`, its plume area valid or not. -/
def receiving (on : Bool) : State :=
  { serves [] 0 [] with font := { (serves [] 0 []).font with cfg := cfgOn.set 0 (if on then 2 ^ 63 else 0), plume := { up.font.plume with hdr := header, armed := true } } }

/-- A manager in plume state st with the members 0 and 1. -/
def spreading (st : Nat) : State := (((receiving true).wr F.CAS_STAT_ROLE 0 2).wr F.FNT_PLSTAT_PSTATE 0 st).wr F.CAS_STAT_MEMBERS 0 3

theorem test_meets_PlumesRun :
    up.answers (Reg.FNT_PLCTL.addr 0) = true ∧
    (∀ typ ∈ [0x20, 0x21, 0x22, 0x24, 0x26, 0x27],
      let t := ((receiving true).casTake (msg 1 true) typ false).1
      ((receiving true).casTake (msg 1 true) typ false).2 ∧ t.domOn 64 = true ∧ (1 : Inst).val ≠ t.me ∧ t.plHas 1 = true ∧ t.plumeArea = some 0) ∧
    (lengthGood header = true ∧ packetsOf header = 1 ∧ headerGood header = true) ∧
    (let t := ((receiving false).casTake (msg 1 true) 0x22 false).1; t.plHas 1 = true ∧ t.plumeArea = none) ∧
    (∀ typ ∈ [0x23, 0x25],
      let t := ((spreading 3).casTake (msg 1 true) typ false).1
      ((spreading 3).casTake (msg 1 true) typ false).2 ∧ t.domOn 64 = true ∧ t.role = 2 ∧ t.plSt = 3 ∧ t.plMembers.contains 1 = true) ∧
    ((spreading 3).plumeArea = some 0 ∧ (spreading 3).domOn 64 = true ∧ (spreading 3).role = 2 ∧ (spreading 3).plSt = 3 ∧ (spreading 3).font.plume.armed = true) ∧
    ((spreading 5).plSt = 5 ∧ (spreading 5).plMembers.contains 1 = true ∧ (spreading 5).font.plume.done.contains 1 = false) := by
  decide +kernel

/-- A warning record. -/
def event : EvRec := { (State.reset.emit Ev.DEFER_EXPIRED Un.inst 0 0).events.arising.headD ⟨0, 0, 0, 0, 0, 0, 0, 0⟩ with sev := 2 }

/-- The record arisen, or in the buffer. -/
def events (a b : List EvRec) : State := { presenting with events := { presenting.events with arising := a, buffer := b } }

/-- `events` with queue 1 on at 4 MiB and 2^k entries, of which n stand written. -/
def queues (k n : Nat) (b : List EvRec) : State :=
  ((((events [] b).wr F.GLB_EVQ_EN 1 1).wr F.GLB_EVQ_BASE 1 0x400).wr F.GLB_EVQ_LOG2N 1 k).wr F.GLB_EVQPTR_PROD 1 n

theorem test_meets_EventsAreCollected :
    up.nextRecord = none ∧ (events [event] []).nextRecord = some event ∧ event.sev ≠ 4 ∧
    (let t := ((events [event] []).updEv fun v => { v with arising := [] }).logRecord event; t.evWritable = true ∧ t.evRoute event = none) ∧
    (let t := (((events [event] []).wr F.GLB_BOOTSTAT_PHASE 0 7).updEv fun v => { v with arising := [] }).logRecord event
     t.evWritable = false ∧ t.evFull = false ∧ (t.updEv fun v => { v with buffer := List.replicate 248 event }).evFull = true) ∧
    (let e := { event with sev := 4 }
     let s := (events [e] []).wr F.GLB_BOOTSTAT_PHASE 0 7
     s.nextRecord = some e ∧ ((s.updEv fun v => { v with arising := [] }).logRecord e).evWritable = false) ∧
    State.reset.evWritable = false ∧
    (let s := queues 6 64 [event]
     s.evWritable = true ∧ (s.evFirst 1 [event]).2 = some event ∧ (s.prod 1 + 2 ^ 32 - s.consOf 1) % 2 ^ 32 = s.evSize 1) ∧
    (let s := queues 6 64 [{ event with sev := 4 }]
     s.evWritable = true ∧ (s.evFirst 1 [{ event with sev := 4 }]).2 = some { event with sev := 4 } ∧
      ((s.evLost 1 1).evPut 1 (64 + 2 ^ 32 - 1) 64 { event with sev := 4 }).2 = true) ∧
    (let s := queues 6 63 [event]
     ¬ ((s.prod 1 + 2 ^ 32 - s.consOf 1) % 2 ^ 32 = s.evSize 1) ∧ Store.get 0 s.events.lostRun 1 = 0 ∧ (s.evPut 1 63 64 event).2 = true) ∧
    (let s := (queues 6 63 []).updEv fun v => { v with lostRun := [(1, 3)] }
     (s.evFirst 1 []).2 = none ∧ Store.get 0 s.events.lostRun 1 ≠ 0 ∧ s.queueOn 1 = true ∧ (s.evPut 1 63 64 (s.lostRecord 1 3)).2 = true) ∧
    ((queues 6 63 []).evFirst 1 []).2 = none ∧
    (up.answers (Reg.GLB_EVQPTR.addr 1) = true ∧ (queues 6 64 []).evSize 1 < ((queues 6 64 []).prod 1 + 2 ^ 32 - F.GLB_EVQPTR_CONS.of (2 ^ 64 - 1)) % 2 ^ 32 ∧
      ((queues 6 64 []).prod 1 + 2 ^ 32 - F.GLB_EVQPTR_CONS.of 0) % 2 ^ 32 ≤ (queues 6 64 []).evSize 1) ∧
    up.answers (Reg.GLB_EVQ.addr 1) = true ∧ up.answers (Reg.GLB_SEDCTL.addr 0) = true ∧ up.answers (Reg.GLB_SEDAGG.addr 0) = true ∧
    ((worker.casTake (msg 0 true) 0x30 false).2 ∧ (taken0 0x30 worker).role = 1 ∧ (msg 0 true).src.val = (taken0 0x30 worker).mgr) ∧
    (let s := (manager.wr F.GLB_SEDAGGSTAT_STATE 0 1).wr F.GLB_SEDAGGSTAT_CUR 0 1
     let t := (s.casTake (msg 1 true) 0x30 false).1
     (s.casTake (msg 1 true) 0x30 false).2 ∧ t.role = 2 ∧ t.rd F.GLB_SEDAGGSTAT_STATE 0 = 1 ∧ t.rd F.GLB_SEDAGGSTAT_CUR 0 = (1 : Inst).val ∧
      s.role = 2 ∧ s.rd F.GLB_SEDAGGSTAT_STATE 0 = 1 ∧ s.events.aggRetry = false) := by
  decide +kernel

theorem test_meets_MemoryReadsBack :
    (⟨63, 1310719, 14⟩ : Loc).slot < 15 ∧ (List.replicate 68 (255 : Byte)).length = 68 ∧ Memory.wf (State.reset.setRun 0 [1, 0, 2]).mem = true ∧ (3 : Nat) ≤ 5 ∧ 5 < 3 + 3 := by
  decide +kernel

theorem test_meets_EncodedInstructionsDecode :
    (Instr.halt (hdr 160)).wf = true ∧ (encodeInsn (.halt (hdr 160))).isSome ∧ (encodeInsn (.seed (hdr 160) 255 15)).isSome := by decide +kernel

/-! ## The spec's worked examples -/

/-- 03_address_map.md, "Locating one address in both modes". -/
theorem test_example_address :
    ({ mode := 1, openList := [], windows := [], regions := [], takeover := [] } : MapRec).loc 0x12345640 = ⟨32, 4971, 0⟩ ∧
    ({ mode := 2, openList := (List.range 64).filter fun k => k ≠ 17 ∧ k ≠ 44, windows := [], regions := [], takeover := [] } : MapRec).loc 0x12345640 =
      ⟨46, 5131, 4⟩ ∧
    (sidOf 4971, rowOf 4971, bgOf 4971, baOf 4971) = (0, 62, 1, 1) := by
  decide +kernel

/-- 03_address_map.md, "Capacity of a retired instance with windows". -/
theorem test_example_capacity :
    ({ mode := 2, openList := (List.range 64).filter fun k => k ≠ 17 ∧ k ≠ 44, windows := [(0, 0, 1024), (1, 1024, 512)], regions := [], takeover := [] } :
      MapRec).userCap = 76403441664 := by
  decide +kernel

/-- 05_number_formats.md, "fp32 to e4m3". -/
theorem test_example_e4m3 :
    convert 6 0 false 0 (Val.ofInt 300) 1 = ⟨0x79, fINEXACT⟩ ∧ convert 6 0 false 0 (Val.ofInt 460) 1 = ⟨0x7E, fINEXACT⟩ ∧
    convert 6 0 false 0 (Val.ofInt 470) 1 = ⟨0x7F, fOVERFLOW ||| fINEXACT⟩ ∧ convert 6 0 true 0 (Val.ofInt 470) 1 = ⟨0x7E, fOVERFLOW ||| fINEXACT⟩ ∧
    convert 6 1 false 0 (Val.ofInt 470) 1 = ⟨0x7E, fINEXACT⟩ ∧ convert 6 0 false 0 (.fin true 9 0) 10000 = ⟨0x80, fUNDERFLOW ||| fINEXACT⟩ := by
  decide +kernel

/-- 05_number_formats.md, "One stochastic rounding": the fp32 value nearest to 1.3 in e2m1 under the draws 0x8000 and 0xA000. -/
theorem test_example_stochastic :
    (convert 9 4 false 0x8000 (codeValue 1 0x3FA66666 false) 1).bits = 3 ∧ (convert 9 4 false 0xA000 (codeValue 1 0x3FA66666 false) 1).bits = 2 := by
  decide +kernel

/-- 05_number_formats.md, "A two-tier block in e2m1": quotients of its elements. -/
theorem test_example_e2m1 :
    (convert 9 0 false 0 (Val.ofInt 5) 1).bits = 6 ∧ (convert 9 0 false 0 (Val.ofInt 48) 10).bits = 6 ∧ (convert 9 0 false 0 (Val.ofInt 176) 100).bits = 4 := by
  decide +kernel

/-- 12_data_integrity.md, "Correcting one byte in a window". -/
theorem test_example_window : winNibble 0x41 = 8 ∧ winNibble 0x45 = 0xE ∧ (winDecode 0x45 8).1 = 0x41 := by decide +kernel

/-- 07_jet_engines.md, "Halo packing for the climate grid": the west strip of one level. -/
theorem test_example_halo : (haloPoints 486 366 3 0 0 360 0).map List.length = some 1080 ∧ (haloPoints 486 366 3 0 0 361 0) = none := by decide +kernel

/-- 06_zynsa_encoding.md, "A sluice program that copies eight blocks and signals", and 07_jet_engines.md, "One projection of a decode step". -/
theorem test_decode_control :
    decodeInsn 0 0x1001800000000000 0 = some (.movr (hdr 0) 0x10 0 0) ∧ decodeInsn 0 0x1002400008000000 0 = some (.ldd (hdr 0) 1 0 1) ∧
    decodeInsn 0 0x1003880004000000 0 = some (.ldr (hdr 0) 0x11 0 4) ∧ decodeInsn 0 0x1000100000000800 0 = some (.ldi (hdr 0) 2 1) ∧
    decodeInsn 0 0x0400000000000418 0 = some (.loop (hdr 0) 0 4 1 true) ∧ decodeInsn 0 0x0401000000000000 0 = some (.endloop (hdr 0)) ∧
    decodeInsn 0 0x0C010000C9400000 0 = some (.signal (hdr 0) { aa := 0, disp := 6, op := 1, gv := 2, evt := true, ret := false, gr := 0 }) ∧
    decodeInsn 0 0x0001000000000000 0 = some (.halt (hdr 0)) := by
  decide +kernel

/-- The same examples' data instructions; a reserved bit is ignored (R163) and an unassigned opcode is no instruction. -/
theorem test_decode_data :
    decodeInsn 0 0x2000244000000000 0 = some (.move (hdr 0) { formD with od := 2, dd := 1, oa := 1 }) ∧
    decodeInsn 32 0x8000984840000000 0 = some (.gemv (hdr 32) { formD with od := 9, dd := 2, oa := 1, ob := 8, db := 1 }) ∧
    decodeInsn 0 0x0001000000000002 0 = some (.halt (hdr 0)) ∧ decodeInsn 0 (0x3F * 2 ^ 58) 0 = none := by
  decide +kernel

/-- No row of the opcode table gives a word bits, so no word spells a command (notes/assumptions/29.md). -/
theorem test_no_table_word : decodeTableWord 64 0x0001000000000000 = none ∧ State.reset.withFetchWord 64 0x0001000000000000 = State.reset := by
  decide +kernel

/-! ## WellFormed refuses what no interface can carry -/

theorem test_illformed :
    (Instr.registerWrite 0 2 true 0).wf = false ∧ (Instr.registerRead 0 16 true).wf = false ∧ (Instr.tailWrite 0 0 2 true).wf = false ∧
    (Instr.readDataReturn 0 [(0, 0)]).wf = false ∧ (Instr.mergeReadReturn 0 [(0, 0)]).wf = false ∧ (Instr.verifyReadReturn 0 [(0, 0)]).wf = false ∧
    (Instr.scrubPage 0 [(0, 0, 0)]).wf = false ∧ (Instr.frameWr 0 { Frame.zero with payload := List.replicate 289 0 }).wf = false ∧
    (Instr.loopMeasureDone [] []).wf = false ∧ (Instr.trainingDone 0 [] 0 0 0).wf = false ∧ (Instr.sensorSample []).wf = false ∧
    (Instr.calMeasurementDone 0 true true []).wf = false ∧ (Instr.plAnnounce (msg 0 true) []).wf = false ∧
    (Instr.telemetryFrame 0 { mv := 0, phases := [], temp := 0, faults := 0 }).wf = false ∧ (Instr.nop { hdr 0 with ext := 1 }).wf = false ∧ (Instr.illegalOpcode (hdr 0) 0 0).wf = false ∧ (Instr.illegalOpcode (hdr 0) 0x3F 0).wf = true := by
  decide +kernel

/-! ## Steps -/

/-- A command at the front of the queue runs and leaves the queue: a read of GLB_UNITS answers OK. -/
theorem test_step_reads :
    (match step { up with pending := [.registerRead 0 8 true] } with
      | .next t => t.pending.isEmpty && !t.ctl.decerr
      | _ => false) = true := by
  decide +kernel

/-- The reset state has the form that Safety asks for; an empty queue lets a cycle pass, but in phase 0. -/
theorem test_reset_idles :
    State.reset.wf = true ∧ (match step State.reset with | .next t => t.time.ticks == 0 && t.pending.isEmpty | _ => false) = true ∧
    (match step up with | .next t => t.time.ticks == 1 && t.pending.isEmpty | _ => false) = true := by
  decide +kernel

end Sys2Proof.Tests
end

/-! Register accesses at offsets of the window that hold neither a register nor an array word (00_scope.md R12). -/
namespace Sys2Proof.Proofs
open Sys2Proof Sys2Proof.Machine

/-- What a register read command does. -/
theorem exec_registerRead (off : BitVec 24) (bytes : Nat) (host : Bool) (s : State) :
    exec (.registerRead off bytes host) s = execRegisterRead off bytes host s := by
  rfl

/-- What a register write command does. -/
theorem exec_registerWrite (off : BitVec 24) (bytes : Nat) (host : Bool) (v : Word) (s : State) :
    exec (.registerWrite off bytes host v) s = .next (s.regWrite off.toNat bytes v.toNat host) := by
  rfl

/-- A read that finds nothing answers DECERR to host software, as it does to a task that may not make it. -/
theorem execRegisterRead_of_winRead_eq_none {s : State} {off : BitVec 24} {bytes : Nat} (host : Bool)
    (h : s.winRead off.toNat bytes = none) : execRegisterRead off bytes host s = .next s.decerr := by
  simp only [execRegisterRead, h, ite_self]

section Undefined
variable (s : State) {off : Nat} (bytes : Nat) (hreg : regAt (off - off % 8) = none) (hwin : winAt (off - off % 8) = none)
include hreg hwin

theorem winRead_of_undefined : s.winRead off bytes = none := by
  simp only [State.winRead, hreg, hwin, ite_self]

/-- The privilege check and the lookup of the word both end in DECERR, so neither the value nor the privilege matters. -/
theorem regWrite_of_undefined (v : Nat) (host : Bool) : s.regWrite off bytes v host = s.decerr := by
  simp only [State.regWrite, hreg, hwin, ite_self]

end Undefined

/-- Settles O29: neither the read nor the write finds a word at the offset, and where both lookups fail each access answers DECERR and leaves the rest of
the state. -/
theorem undefinedOffsetsAnswerDecerr : Obligations.UndefinedOffsetsAnswerDecerr := by
  intro s off bytes host v a hreg hwin
  constructor
  · rw [exec_registerRead, execRegisterRead_of_winRead_eq_none host (winRead_of_undefined s bytes hreg hwin)]
  · rw [exec_registerWrite, regWrite_of_undefined s bytes hreg hwin]

end Sys2Proof.Proofs

/-! Writing the TAIL of a doorbell page (04_zynsa_model.md R113). -/
namespace Sys2Proof.Proofs
open Sys2Proof Sys2Proof.Machine

/-! ## Starting a spout on its ring -/

/-- Starting a spout, or finding nothing left for it to run, changes its STATE at most. -/
theorem kickSp_eq_self_or_setSpSt (s : State) (n : Nat) : s.kickSp n = s ∨ ∃ v, s.kickSp n = s.setSpSt n v := by
  unfold State.kickSp
  split
  · exact .inr ⟨1, rfl⟩
  · split
    · exact .inr ⟨0, rfl⟩
    · exact .inl rfl

@[simp] theorem kickSp_mem (s : State) (n : Nat) : (s.kickSp n).mem = s.mem := by
  obtain h | ⟨v, h⟩ := kickSp_eq_self_or_setSpSt s n
  · rw [h]
  · rw [h, State.setSpSt_mem]

/-- A field of a register other than the spout's DBL_STAT reads as before. -/
theorem kickSp_rd (s : State) (n : Nat) (g : Field) (j : Nat) (hg : g.reg.addr j ≠ Reg.DBL_STAT.addr n) :
    (s.kickSp n).rd g j = s.rd g j := by
  obtain h | ⟨v, h⟩ := kickSp_eq_self_or_setSpSt s n
  · rw [h]
  · rw [h, State.setSpSt, State.rd_wr_ne _ _ _ _ _ _ hg]

/-- DBL_PTR and DBL_STAT of a page stand at different offsets. -/
theorem addr_DBL_PTR_ne_DBL_STAT (n : Nat) : Reg.DBL_PTR.addr n ≠ Reg.DBL_STAT.addr n := by
  simp [Reg.addr, Reg.place]

@[simp] theorem kickSp_tail (s : State) (n : Nat) : (s.kickSp n).tail n = s.tail n :=
  kickSp_rd s n F.DBL_PTR_TAIL n (addr_DBL_PTR_ne_DBL_STAT n)

@[simp] theorem kickSp_head (s : State) (n : Nat) : (s.kickSp n).head n = s.head n :=
  kickSp_rd s n F.DBL_PTR_HEAD n (addr_DBL_PTR_ne_DBL_STAT n)

/-! ## The two fields of DBL_PTR -/

@[simp] theorem tail_wr_tail (s : State) (n v : Nat) : (s.wr F.DBL_PTR_TAIL n v).tail n = v % 2 ^ 32 :=
  State.rd_wr_same s F.DBL_PTR_TAIL n v (by decide)

@[simp] theorem head_wr_tail (s : State) (n v : Nat) : (s.wr F.DBL_PTR_TAIL n v).head n = s.head n :=
  State.rd_wr_apart s F.DBL_PTR_TAIL F.DBL_PTR_HEAD n v (by decide) rfl (by decide)

/-! ## The check of a new TAIL -/

section StoreTail
variable {s : State} {n v : Nat} (hv : v < 2 ^ 32)
include hv

theorem storeTail_of_eq (heq : v = s.tail n) : s.storeTail n v = s := by
  simp only [State.storeTail, Nat.mod_eq_of_lt hv, if_pos heq]

theorem storeTail_of_beyond (hne : v ≠ s.tail n) (hbeyond : s.ringSize n < (v + 2 ^ 32 - s.head n) % 2 ^ 32) :
    s.storeTail n v = s.spEvent n (if n < 160 then 0x06 else 0x0B) v (s.head n) := by
  simp only [State.storeTail, Nat.mod_eq_of_lt hv, if_neg hne, if_pos hbeyond]

theorem storeTail_of_within (hne : v ≠ s.tail n) (hwithin : (v + 2 ^ 32 - s.head n) % 2 ^ 32 ≤ s.ringSize n) :
    s.storeTail n v = (s.wr F.DBL_PTR_TAIL n v).kickSp n := by
  simp only [State.storeTail, Nat.mod_eq_of_lt hv, if_neg hne, if_neg (Nat.not_lt.mpr hwithin)]

end StoreTail

/-- Settles O32: the check has three answers, and where the new TAIL is taken, starting the spout leaves DBL_PTR and the memory. -/
theorem tailsAreChecked : Obligations.TailsAreChecked := by
  intro s n v hv
  refine ⟨storeTail_of_eq hv, storeTail_of_beyond hv, fun hne hwithin => ?_⟩
  rw [storeTail_of_within hv hne hwithin]
  refine ⟨?_, ?_, ?_⟩
  · rw [kickSp_tail, tail_wr_tail, Nat.mod_eq_of_lt hv]
  · rw [kickSp_head, head_wr_tail]
  · rw [kickSp_mem, State.wr_mem]

end Sys2Proof.Proofs

/-! ENDLOOP (06_zynsa_encoding.md R172). -/
namespace Sys2Proof.Proofs
open Sys2Proof Sys2Proof.Machine

/-- What an ENDLOOP command does. -/
theorem exec_endloop (h : Hdr) (s : State) : exec (.endloop h) s = execEndloop h s := by
  rfl

/-! ## An instruction that executes normally -/

section Issues
variable {s : State} {h : Hdr} {c : Cls} {u : Use} (hi : s.issues h c u)
include hi

/-- Where nothing holds it back, an instruction's body runs. -/
theorem issue1_of_issues (i : Instr) (body : State → State) : s.issue1 h i c u body = body (s.begun h) :=
  State.issue_runs s h i c u _ body hi

/-- The body starts from the spout as it stands: a spout that can issue waits for nothing. -/
theorem begun_sp_of_issues : (s.begun h).sp h.sp.val = s.sp h.sp.val :=
  (onlySpout.start hi).1

end Issues

/-! ## The changes of the spout -/

/-- The count of the innermost loop after one more pass over its body, as a 32-bit counter. -/
def nextCount (x : Spout) : Nat := (x.kv (x.depth - 1) + 1) % 2 ^ 32

/-- y with loop counter d at v. -/
def setCount (d v : Nat) (y : Spout) : Spout := { y with k := Store.put 0 y.k d (BitVec.ofNat 32 v) }

/-- y without its innermost loop. -/
def popLoop (y : Spout) : Spout := { y with loops := y.loops.dropLast }

/-! ## What ENDLOOP answers where it executes normally -/

section Endloop
variable {s : State} {h : Hdr} (hi : s.issues h .ctl Use.none)
include hi

/-- R172, without a loop: LOOP_MATCH. -/
theorem execEndloop_of_no_loop (hloops : (s.sp h.sp.val).loops = []) :
    execEndloop h s = .next ((s.begun h).fault h.sp.val 0x80 0 0) := by
  simp only [execEndloop, issue1_of_issues hi, begun_sp_of_issues hi, hloops, List.getLast?_nil]

variable {e : LoopEnt} (hlast : (s.sp h.sp.val).loops.getLast? = some e)
include hlast

/-- R172, at another place than the innermost loop's end: LOOP_MATCH. -/
theorem execEndloop_of_endAt_ne (hend : e.endAt ≠ (s.sp h.sp.val).pc) :
    execEndloop h s = .next ((s.begun h).fault h.sp.val 0x80 0 0) := by
  simp only [execEndloop, issue1_of_issues hi, begun_sp_of_issues hi, hlast, if_pos hend]

/-- R172, at the innermost loop's end: the counter goes up, and the loop is repeated or left. -/
theorem execEndloop_of_endAt_eq (hend : e.endAt = (s.sp h.sp.val).pc) :
    let n := h.sp.val
    let x := s.sp n
    let t := (s.begun h).updSp n (setCount (x.depth - 1) (nextCount x))
    execEndloop h s = .next (if nextCount x < e.n then t.goto n e.start else (t.updSp n popLoop).goto n (x.pc + 8)) := by
  simp only [execEndloop, issue1_of_issues hi, begun_sp_of_issues hi, hlast, hend, ne_eq, not_true_eq_false, if_false]
  rfl

end Endloop

/-- Settles O6: the two ways to LOOP_MATCH and the counting are ENDLOOP's three answers, and where it counts, the rules for a change of one spout and for
going on at an address say what is left. -/
theorem endloopCounts : Obligations.EndloopCounts := by
  intro s h hi x
  refine ⟨fun hloops => ?_, fun e hlast hend => ?_, fun e hlast hend => ?_⟩
  · rw [exec_endloop, execEndloop_of_no_loop hi hloops]
  · rw [exec_endloop, execEndloop_of_endAt_ne hi hlast hend]
  · intro v y
    refine ⟨_, (exec_endloop h s).trans (execEndloop_of_endAt_eq hi hlast hend), ?_⟩
    obtain ⟨-, -, -, -, hstop, habort, -⟩ := hi.1
    have hcount := (onlySpout.start hi).upd (setCount (x.depth - 1) (nextCount x))
    by_cases hv : nextCount x < e.n
    · rw [if_pos hv, if_pos (show v < e.n from hv)]
      exact hcount.goto hstop habort e.start
    · rw [if_neg hv, if_neg (show ¬ v < e.n from hv)]
      exact (hcount.upd popLoop).goto hstop habort (x.pc + 8)

end Sys2Proof.Proofs

/-! TSTAT (09_transactions.md R261). -/
namespace Sys2Proof.Proofs
open Sys2Proof Sys2Proof.Machine

/-- What a TSTAT command does. -/
theorem exec_tstat (h : Hdr) (gd : BitVec 4) (s : State) : exec (.tstat h gd) s = execTstat h gd s := by
  rfl

/-! ## The fields of the status word -/

/-- The status word of an open transaction, from the values of its fields. -/
def statusWord (pkg sig slot wcount rcount : Nat) : Nat :=
  2 ^ 63 + pkg * 2 ^ 62 + sig * 2 ^ 61 + slot * 2 ^ 55 + wcount * 2 ^ 44 + rcount * 2 ^ 31

/-- R261: where every value fits its field, each field reads back as its value. -/
theorem bits_statusWord {pkg sig slot wcount rcount : Nat} (hpkg : pkg ≤ 1) (hsig : sig ≤ 1) (hslot : slot < 64)
    (hwcount : wcount ≤ 1024) (hrcount : rcount ≤ 4096) :
    let w := statusWord pkg sig slot wcount rcount
    bits w 63 63 = 1 ∧ bits w 62 62 = pkg ∧ bits w 61 61 = sig ∧ bits w 60 55 = slot ∧
      bits w 54 44 = wcount ∧ bits w 43 31 = rcount ∧ bits w 30 0 = 0 := by
  simp only [bits, statusWord, Nat.shiftRight_eq_div_pow]
  refine ⟨?_, ?_, ?_, ?_, ?_, ?_, ?_⟩ <;> omega

theorem b2n_le_one (b : Bool) : b2n b ≤ 1 := by
  cases b <;> decide

/-! ## The status word of a spout's transaction -/

theorem txStatus_of_tx_eq_none {s : State} {n : Nat} (h : (s.sp n).tx = none) : s.txStatus n = 0 := by
  simp only [State.txStatus, h]

theorem txStatus_of_tx_eq_some {s : State} {n k : Nat} (h : (s.sp n).tx = some k) :
    s.txStatus n = statusWord (b2n (decide (56 ≤ k))) (b2n (s.slot k).sigUsed) k (s.slot k).log.length (s.slot k).reads.length := by
  simp only [State.txStatus, h, statusWord]

/-! ## What TSTAT answers where it executes normally -/

section Tstat
variable {s : State} {h : Hdr} {c : Cls} {u : Use}

/-- The status word is that of the state before: the start of an instruction changes neither the spout nor the slots. -/
theorem begun_txStatus_of_issues (hi : s.issues h c u) : (s.begun h).txStatus h.sp.val = s.txStatus h.sp.val := by
  have hsp := begun_sp_of_issues hi
  cases htx : (s.sp h.sp.val).tx with
  | none => rw [txStatus_of_tx_eq_none htx, txStatus_of_tx_eq_none (hsp ▸ htx)]
  | some k => rw [txStatus_of_tx_eq_some htx, txStatus_of_tx_eq_some (hsp ▸ htx), State.begun, State.updSp_slot]

theorem execTstat_of_issues {gd : BitVec 4} (hi : s.issues h .txn { Use.none with names := [gd.toNat] }) :
    execTstat h gd s =
      .next (((s.begun h).updSp h.sp.val fun x => x.setG gd.toNat (s.txStatus h.sp.val)).done h) := by
  simp only [execTstat, issue1_of_issues hi, begun_txStatus_of_issues hi]

end Tstat

/-- Settles O20: where it executes normally, TSTAT writes the status word of the spout's transaction to g[GD] and completes, and the word is 0 or holds
each value in its field. -/
theorem tstatWritesTheStatusWord : Obligations.TstatWritesTheStatusWord := by
  intro s h gd hi x
  obtain ⟨-, -, -, -, hstop, habort, -⟩ := hi.1
  refine ⟨_, s.txStatus h.sp.val, (exec_tstat h gd s).trans (execTstat_of_issues hi), ?_, txStatus_of_tx_eq_none, ?_⟩
  · exact ((onlySpout.start hi).upd fun y => y.setG gd.toNat (s.txStatus h.sp.val)).done hstop habort
  · intro k htx hslot hlog hreads
    rw [txStatus_of_tx_eq_some htx]
    exact bits_statusWord (b2n_le_one _) (b2n_le_one _) hslot hlog hreads

end Sys2Proof.Proofs

/-! Every instruction's word decodes to the instruction (06_zynsa_encoding.md R159, R160, R167, R168, R180 to R183). -/
namespace Sys2Proof.Proofs
open Sys2Proof Sys2Proof.Machine

/-- One law for each instruction; a command that is no instruction has no word. -/
theorem roundTrip_statement (i : Instr) : Laws.RoundTrip.Statement i := by
  cases i
  case nop => apply Laws.RoundTrip.nop
  case halt => apply Laws.RoundTrip.halt
  case fence => apply Laws.RoundTrip.fence
  case sync => apply Laws.RoundTrip.sync
  case loop => apply Laws.RoundTrip.loop
  case endloop => apply Laws.RoundTrip.endloop
  case br => apply Laws.RoundTrip.br
  case brA => apply Laws.RoundTrip.brA
  case brC => apply Laws.RoundTrip.brC
  case wait => apply Laws.RoundTrip.wait
  case signal => apply Laws.RoundTrip.signal
  case ldi => apply Laws.RoundTrip.ldi
  case movr => apply Laws.RoundTrip.movr
  case ldd => apply Laws.RoundTrip.ldd
  case ldr => apply Laws.RoundTrip.ldr
  case str => apply Laws.RoundTrip.str
  case plog => apply Laws.RoundTrip.plog
  case move => apply Laws.RoundTrip.move
  case gather => apply Laws.RoundTrip.gather
  case scatter => apply Laws.RoundTrip.scatter
  case fill => apply Laws.RoundTrip.fill
  case cmp => apply Laws.RoundTrip.cmp
  case pack => apply Laws.RoundTrip.pack
  case cvt => apply Laws.RoundTrip.cvt
  case cvtPr => apply Laws.RoundTrip.cvtPr
  case vadd => apply Laws.RoundTrip.vadd
  case vsub => apply Laws.RoundTrip.vsub
  case vmul => apply Laws.RoundTrip.vmul
  case vfma => apply Laws.RoundTrip.vfma
  case vmin => apply Laws.RoundTrip.vmin
  case vmax => apply Laws.RoundTrip.vmax
  case vabs => apply Laws.RoundTrip.vabs
  case vneg => apply Laws.RoundTrip.vneg
  case vscale => apply Laws.RoundTrip.vscale
  case vand => apply Laws.RoundTrip.vand
  case vor => apply Laws.RoundTrip.vor
  case vxor => apply Laws.RoundTrip.vxor
  case vcmpeq => apply Laws.RoundTrip.vcmpeq
  case vcmplt => apply Laws.RoundTrip.vcmplt
  case rsum => apply Laws.RoundTrip.rsum
  case rsumsq => apply Laws.RoundTrip.rsumsq
  case rdot => apply Laws.RoundTrip.rdot
  case rmin => apply Laws.RoundTrip.rmin
  case rmax => apply Laws.RoundTrip.rmax
  case rargmin => apply Laws.RoundTrip.rargmin
  case rargmax => apply Laws.RoundTrip.rargmax
  case rmerge => apply Laws.RoundTrip.rmerge
  case gemv => apply Laws.RoundTrip.gemv
  case gemvt => apply Laws.RoundTrip.gemvt
  case mm => apply Laws.RoundTrip.mm
  case hprobe => apply Laws.RoundTrip.hprobe
  case hinsert => apply Laws.RoundTrip.hinsert
  case hdelete => apply Laws.RoundTrip.hdelete
  case isect => apply Laws.RoundTrip.isect
  case topk => apply Laws.RoundTrip.topk
  case amin => apply Laws.RoundTrip.amin
  case amax => apply Laws.RoundTrip.amax
  case aadd => apply Laws.RoundTrip.aadd
  case halo => apply Laws.RoundTrip.halo
  case add => apply Laws.RoundTrip.add
  case sub => apply Laws.RoundTrip.sub
  case mul => apply Laws.RoundTrip.mul
  case mulhu => apply Laws.RoundTrip.mulhu
  case and => apply Laws.RoundTrip.and
  case or => apply Laws.RoundTrip.or
  case xor => apply Laws.RoundTrip.xor
  case shl => apply Laws.RoundTrip.shl
  case shr => apply Laws.RoundTrip.shr
  case sra => apply Laws.RoundTrip.sra
  case min => apply Laws.RoundTrip.min
  case max => apply Laws.RoundTrip.max
  case minu => apply Laws.RoundTrip.minu
  case maxu => apply Laws.RoundTrip.maxu
  case faddD => apply Laws.RoundTrip.faddD
  case fsubD => apply Laws.RoundTrip.fsubD
  case fmulD => apply Laws.RoundTrip.fmulD
  case fdivD => apply Laws.RoundTrip.fdivD
  case fsqrtD => apply Laws.RoundTrip.fsqrtD
  case cvtDi => apply Laws.RoundTrip.cvtDi
  case cvtId => apply Laws.RoundTrip.cvtId
  case tbegin => apply Laws.RoundTrip.tbegin
  case tcommit => apply Laws.RoundTrip.tcommit
  case tabort => apply Laws.RoundTrip.tabort
  case tstat => apply Laws.RoundTrip.tstat
  case dead => apply Laws.RoundTrip.dead
  case pin => apply Laws.RoundTrip.pin
  case unpin => apply Laws.RoundTrip.unpin
  case prefetch => apply Laws.RoundTrip.prefetch
  case svcCall => apply Laws.RoundTrip.svcCall
  case svcPost => apply Laws.RoundTrip.svcPost
  case rdreg => apply Laws.RoundTrip.rdreg
  case wrreg => apply Laws.RoundTrip.wrreg
  case seed => apply Laws.RoundTrip.seed
  all_goals exact Laws.RoundTrip.of_none rfl

/-- Settles O60: the round-trip laws of the single instructions cover every command. -/
theorem encodedInstructionsDecode : Obligations.EncodedInstructionsDecode :=
  fun i w hwf henc => roundTrip_statement i hwf w henc

end Sys2Proof.Proofs

/-! Every command answers a next state (00_scope.md R5): no meaning faults and none is refused. -/
namespace Sys2Proof.Proofs
open Sys2Proof Sys2Proof.Machine

/-- The outcome is a next state. -/
def Completes (r : Res) : Prop := ∃ t, r = .next t

@[simp] theorem completes_next (t : State) : Completes (.next t) := ⟨t, rfl⟩

@[simp] theorem completes_ite {c : Prop} [Decidable c] {a b : Res} :
    Completes (if c then a else b) ↔ (c → Completes a) ∧ (¬ c → Completes b) := by
  split <;> simp [*]

/-- Most meanings are one next state; the others choose between next states by conditions, or by what they find in the state. -/
theorem exec_completes (i : Instr) (s : State) : Completes (exec i s) := by
  cases i
  case pinWindowEnd | linkPowerUp | loopMeasureDone | qualifyWindowPass | uncorrectableCodeword | trainingDone | trainTimeout | failedRetry |
    laneDegrade | laneRetry | frameCheckFail | replay | frameLctl | frameTrn | lackTimer | rsfSend | routeAgeOut | scrubPage | refreshAccrual |
    parkEnter | privilegedFillDone | negotiationComplete | negotiationRetry | quiesceDrainDone | fspHoldEnd | fspPadLock | tailWrite | dblRingWrite |
    spoutEnable | spoutStop | spoutResume | commandFetch | syncTimeout | busStopDrainDone | slotFreeTimer | txLifetimeExpire | prepareRecordDone |
    voteTimeout | indoubtQuery | txIndoubt | telemetryFrame | darkenStart | thermalLevelTimer | poolPublish | poolEvict | poolFetch | bmcMessage |
    wallHoldover | startSend | timeSend | capAllocate | cascadeForward | sedWorkerTimeout | tideStall | thermalRestart | rstNRise | refclkLoss |
    pstateEntryTimeout | pstateWake | idleEnter | selfRefreshExit | wrapperInstructionLoad | pauseComplete =>
    simp only [exec, execPinWindowEnd, execLinkPowerUp, execLoopMeasureDone, execQualifyWindowPass, execUncorrectableCodeword, execTrainingDone,
      execTrainTimeout, execFailedRetry, execLaneDegrade, execLaneRetry, execFrameCheckFail, execReplay, execFrameLctl, execFrameTrn, execLackTimer,
      execRsfSend, execRouteAgeOut, execScrubPage, execRefreshAccrual, execParkEnter, execPrivilegedFillDone, execNegotiationComplete,
      execNegotiationRetry, execQuiesceDrainDone, execFspHoldEnd, execFspPadLock, execTailWrite, execDblRingWrite, execSpoutEnable, execSpoutStop,
      execSpoutResume, execCommandFetch, execSyncTimeout, execBusStopDrainDone, execSlotFreeTimer, execTxLifetimeExpire, execPrepareRecordDone,
      execVoteTimeout, execIndoubtQuery, execTxIndoubt, execTelemetryFrame, execDarkenStart, execThermalLevelTimer, execPoolPublish, execPoolEvict,
      execPoolFetch, execBmcMessage, execWallHoldover, execStartSend, execTimeSend, execCapAllocate, execCascadeForward, execSedWorkerTimeout,
      execTideStall, execThermalRestart, execRstNRise, execRefclkLoss, execPstateEntryTimeout, execPstateWake, execIdleEnter, execSelfRefreshExit,
      execWrapperInstructionLoad, execPauseComplete, completes_ite, completes_next, implies_true, and_self]
  case responseBeatTransfer | censusReadMissed | weirFrameSelect | remoteTimeout | orderingPointAccept | rillCommandIssue | readDataReturn |
    mergeReadReturn | verifyReadReturn | bringUpTestDone | spareHandover | calMeasurementDone | trainingPointDone | sweepDone | trimApply |
    driftCheckSkip | commandEntryReturn | commandComplete | waitEvaluate | waitTimeout | illegalOpcode | pinFillDone | wakeRampStart | stackTempRead |
    svcAnswer | poolLookup | status | assayRepair | assayTest | rollwaitExpire | armwaitExpire | ppsEdge | hello | electionTimeout | role |
    eventCollect | censusSnapCall | coldReset | selfRefreshEnter | registerRead | memoryResponse | programLineReturn | resourceGrant |
    stagingSlotGrant | pauseRelease | burstSample =>
    dsimp only [exec, execResponseBeatTransfer, execCensusReadMissed, execWeirFrameSelect, execRemoteTimeout, execOrderingPointAccept,
      execRillCommandIssue, execReadDataReturn, execMergeReadReturn, execVerifyReadReturn, execBringUpTestDone, execSpareHandover,
      execCalMeasurementDone, execTrainingPointDone, execSweepDone, execTrimApply, execDriftCheckSkip, execCommandEntryReturn, execCommandComplete,
      execWaitEvaluate, execWaitTimeout, execIllegalOpcode, execPinFillDone, execWakeRampStart, execStackTempRead, execSvcAnswer, execPoolLookup,
      execStatus, execAssayRepair, execAssayTest, execRollwaitExpire, execArmwaitExpire, execPpsEdge, execHello, execElectionTimeout, execRole,
      execEventCollect, execCensusSnapCall, execColdReset, execSelfRefreshEnter, execRegisterRead, execMemoryResponse, execProgramLineReturn,
      execResourceGrant, execStagingSlotGrant, execPauseRelease, execBurstSample]
    repeat' split
    all_goals exact completes_next _
  case poolAlloc sexp =>
    change Completes (execPoolAlloc sexp s)
    unfold execPoolAlloc
    repeat' split
    all_goals exact completes_next _
  all_goals exact completes_next _

/-- Settles O2: the step runs the front command, or lets a cycle pass on an empty queue. -/
theorem everyCommandCompletes : Obligations.EveryCommandCompletes := by
  refine ⟨exec_completes, fun s => ?_⟩
  unfold step
  split
  · exact exec_completes _ _
  · exact completes_next _

end Sys2Proof.Proofs

/-! The step of the queue (95_what_each_step_holds.md). -/
namespace Sys2Proof.Proofs
open Sys2Proof Sys2Proof.Machine

/-- Settles O1: the step's first branch. -/
theorem stepRunsTheFrontCommand : Obligations.StepRunsTheFrontCommand := by
  intro s c rest hp
  simp only [step, hp]

/-- Settles O3: on an empty queue the step is `State.idle`, which changes nothing in phase 0; the cycle writes the clock and TIM_WALL alone. -/
theorem emptyQueueIdles : Obligations.EmptyQueueIdles := by
  intro s hp
  have hstep : step s = .next s.idle := by simp only [step, hp]
  refine ⟨fun h0 => ?_, fun h0 => ⟨?_, ?_, ?_⟩⟩
  · rw [hstep, State.idle, if_pos h0]
  · rw [hstep, State.idle, if_neg h0]
  · rw [State.clockCycle, State.wr_time]
  · rw [State.clockCycle, State.wr_pending, hp]

end Sys2Proof.Proofs

/-! Faults and unassigned opcodes (04_zynsa_model.md R123; 06_zynsa_encoding.md R161). -/
namespace Sys2Proof.Proofs
open Sys2Proof Sys2Proof.Machine

/-! ## Unassigned opcodes -/

section Illegal
variable {s : State} {h : Hdr} {maj min : BitVec 6} (hrun : s.running h.sp.val) (hword : (s.sp h.sp.val).holds (s.sp h.sp.val).pc = true)
include hrun hword

omit hword in
theorem begun_sp_of_running : (s.begun h).sp h.sp.val = s.sp h.sp.val := by
  obtain ⟨-, -, -, hwait, -⟩ := hrun
  rw [State.begun, State.sp_updSp_same, ← hwait]

/-- R161: the opcode alone decides where none of it is assigned. -/
theorem execIllegalOpcode_of_major_none (hmaj : majorOf maj.toNat min.toNat = none) :
    execIllegalOpcode h maj min s = .next ((s.begun h).fault h.sp.val 0x01 0 0) := by
  have hdata := s.endData_idle h.sp.val hrun.2.1
  have hsp := begun_sp_of_running hrun
  rw [State.begun] at hsp ⊢
  simp only [execIllegalOpcode, hmaj, hdata, s.issuable_running h.sp.val _ hrun, hsp, hword, Bool.not_true, Bool.false_eq_true, if_false]

/-- R161: under an assigned major opcode the privilege and the class come before the minor opcode. -/
theorem execIllegalOpcode_of_minor_none {c : Cls} (hmaj : majorOf maj.toNat min.toNat = some (c, false)) :
    execIllegalOpcode h maj min s = .next ((s.begun h).fault h.sp.val
      (if c = .prv ∧ (s.sp h.sp.val).cmd.priv ≠ 2 then 0x05 else if c.allowed (spKind h.sp.val) then 0x01 else 0x02) 0 0) := by
  have hdata := s.endData_idle h.sp.val hrun.2.1
  have hsp := begun_sp_of_running hrun
  rw [State.begun] at hsp ⊢
  simp only [execIllegalOpcode, hmaj, hdata, s.issuable_running h.sp.val _ hrun, hsp, hword, Bool.not_true, Bool.false_eq_true, if_false,
    Bool.and_eq_true, decide_eq_true_eq, bne_iff_ne]
  by_cases hpriv : c = .prv ∧ (s.sp h.sp.val).cmd.priv ≠ 2
  · rw [if_pos hpriv, if_pos hpriv]
  · rw [if_neg hpriv, if_neg hpriv]
    cases c.allowed (spKind h.sp.val) <;> rfl

end Illegal

/-! ## The places of a fault's record -/

theorem addr_DBL_FPC_ne_DBL_STAT (n : Nat) : Reg.DBL_FPC.addr n ≠ Reg.DBL_STAT.addr n := by
  simp [Reg.addr, Reg.place]

theorem addr_DBL_FADDR_ne_DBL_STAT (n : Nat) : Reg.DBL_FADDR.addr n ≠ Reg.DBL_STAT.addr n := by
  simp [Reg.addr, Reg.place]

theorem addr_DBL_FADDR_ne_DBL_FPC (n : Nat) : Reg.DBL_FADDR.addr n ≠ Reg.DBL_FPC.addr n := by
  simp [Reg.addr, Reg.place]

theorem addr_ne_SLC_STAT (n : Nat) :
    Reg.DBL_STAT.addr n ≠ Reg.SLC_STAT.addr n ∧ Reg.DBL_FPC.addr n ≠ Reg.SLC_STAT.addr n ∧ Reg.DBL_FADDR.addr n ≠ Reg.SLC_STAT.addr n := by
  simp only [Reg.addr, Reg.place]
  omega

/-! ## What a fault's record reads as -/

section Record
variable (s : State) (n c f a p : Nat) (i : Bool)

/-- A field of DBL_STAT, which is written before the two addresses. -/
theorem recordFault_stat {g : Field} (hg : g.reg = .DBL_STAT) :
    (s.recordFault n c f a p i).rd g n =
      (((s.wr F.DBL_STAT_FAULT n c).wr F.DBL_STAT_PROGRESS n (Nat.min p 0xFFFFFFFF)).wr F.DBL_STAT_IMPRECISE n (b2n i)).rd g n := by
  rw [State.recordFault, State.rd_wr_ne _ F.DBL_FADDR_ADDR g _ _ _ (hg ▸ (addr_DBL_FADDR_ne_DBL_STAT n).symm),
    State.rd_wr_ne _ F.DBL_FPC_PC g _ _ _ (hg ▸ (addr_DBL_FPC_ne_DBL_STAT n).symm)]
  rfl

theorem recordFault_fault : (s.recordFault n c f a p i).rd F.DBL_STAT_FAULT n = c % 2 ^ 8 := by
  rw [recordFault_stat _ _ _ _ _ _ _ rfl, State.rd_wr_apart _ F.DBL_STAT_IMPRECISE F.DBL_STAT_FAULT _ _ (by decide) rfl (by decide),
    State.rd_wr_apart _ F.DBL_STAT_PROGRESS F.DBL_STAT_FAULT _ _ (by decide) rfl (by decide)]
  exact State.rd_wr_same s F.DBL_STAT_FAULT n c (by decide)

theorem recordFault_progress : (s.recordFault n c f a p i).rd F.DBL_STAT_PROGRESS n = Nat.min p (2 ^ 32 - 1) := by
  rw [recordFault_stat _ _ _ _ _ _ _ rfl, State.rd_wr_apart _ F.DBL_STAT_IMPRECISE F.DBL_STAT_PROGRESS _ _ (by decide) rfl (by decide),
    State.rd_wr_same _ F.DBL_STAT_PROGRESS _ _ (by decide)]
  exact Nat.mod_eq_of_lt (Nat.lt_of_le_of_lt (Nat.min_le_right p 0xFFFFFFFF) (by decide))

theorem recordFault_imprecise : (s.recordFault n c f a p false).flag F.DBL_STAT_IMPRECISE n = false := by
  rw [State.flag, recordFault_stat _ _ _ _ _ _ _ rfl, State.rd_wr_same _ F.DBL_STAT_IMPRECISE _ _ (by decide)]
  rfl

theorem recordFault_spSt : (s.recordFault n c f a p i).spSt n = s.spSt n := by
  rw [State.spSt, recordFault_stat _ _ _ _ _ _ _ rfl, State.rd_wr_apart _ F.DBL_STAT_IMPRECISE F.DBL_STAT_STATE _ _ (by decide) rfl (by decide),
    State.rd_wr_apart _ F.DBL_STAT_PROGRESS F.DBL_STAT_STATE _ _ (by decide) rfl (by decide),
    State.rd_wr_apart _ F.DBL_STAT_FAULT F.DBL_STAT_STATE _ _ (by decide) rfl (by decide)]
  rfl

theorem recordFault_pc : (s.recordFault n c f a p i).rd F.DBL_FPC_PC n = f % 2 ^ 48 := by
  rw [State.recordFault, State.rd_wr_ne _ _ _ _ _ _ (addr_DBL_FADDR_ne_DBL_FPC n).symm]
  exact State.rd_wr_same _ F.DBL_FPC_PC n f (by decide)

theorem recordFault_faddr : (s.recordFault n c f a p i).rd F.DBL_FADDR_ADDR n = a % 2 ^ 48 :=
  State.rd_wr_same _ F.DBL_FADDR_ADDR n a (by decide)

end Record

/-- A field of a register other than SLC_STAT reads as before once a command's end begins. -/
theorem ending_rd (s : State) (n c : Nat) (g : Field) (j : Nat) (hg : n < 32 → g.reg.addr j ≠ Reg.SLC_STAT.addr n) :
    (s.ending n c).rd g j = s.rd g j := by
  rw [State.rd, State.ending_reg _ _ _ _ _ hg, State.rd]

/-- Settles O10: an unassigned opcode is decoded in the order of R161; a fault outside a transaction is its record and the end of the command, and the end
touches no register of the record. -/
theorem faultsAreRecorded : Obligations.FaultsAreRecorded := by
  refine ⟨fun s h maj min hrun hword => ⟨execIllegalOpcode_of_major_none hrun hword, fun c => execIllegalOpcode_of_minor_none hrun hword⟩, ?_⟩
  intro s n c a p htx hpc
  rw [State.fault_plain s n c a p htx]
  have hrec : ∀ g : Field, (n < 32 → g.reg.addr n ≠ Reg.SLC_STAT.addr n) →
      ((s.recordFault n c (s.sp n).pc a p false).ending n c).rd g n = (s.recordFault n c (s.sp n).pc a p false).rd g n :=
    fun g => ending_rd _ n c g n
  refine ⟨?_, ?_, ?_, ?_, ?_, ?_, ?_, ?_, ?_, ?_, ?_, ?_, ?_, ?_, ?_⟩
  · rw [hrec _ fun _ => (addr_ne_SLC_STAT n).1, recordFault_fault]
  · rw [hrec _ fun _ => (addr_ne_SLC_STAT n).1, recordFault_progress]
  · rw [State.flag, hrec _ fun _ => (addr_ne_SLC_STAT n).1, ← State.flag, recordFault_imprecise]
  · rw [hrec _ fun _ => (addr_ne_SLC_STAT n).2.1, recordFault_pc, Nat.mod_eq_of_lt hpc]
  · rw [hrec _ fun _ => (addr_ne_SLC_STAT n).2.2, recordFault_faddr]
  · rw [State.spSt, hrec _ fun _ => (addr_ne_SLC_STAT n).1, ← State.spSt, recordFault_spSt]
  · rw [State.ending_sp_same]
  · rw [State.ending_sp_same]
  · rw [State.ending_sp_same, State.recordFault_sp]
  · rw [State.ending_sp_same]
  · rw [State.ending_sp_same, State.recordFault_sp]
  · rw [State.ending_sp_same, State.recordFault_sp]
  · exact fun m hm => by rw [State.ending_sp_ne _ _ hm, State.recordFault_sp]
  · rw [State.ending_mem, State.recordFault_mem]
  · rw [State.ending_tiles, State.recordFault_tiles]

end Sys2Proof.Proofs

/-! Register setup and branches (06_zynsa_encoding.md R169 to R174, R177). -/
namespace Sys2Proof.Proofs
open Sys2Proof Sys2Proof.Machine

/-! ## Bodies that change their spout and go on -/

section Issues
variable {s : State} {h : Hdr} {c : Cls} {u : Use} (hi : s.issues h c u)
include hi

/-- Where nothing holds it back, the body of an instruction with its own skipping runs. -/
theorem issue_of_issues (i : Instr) (skip body : State → State) : s.issue h i c u skip body = body (s.begun h) :=
  State.issue_runs s h i c u skip body hi

/-- A body that changes its spout, but not what waits for the boundary, and completes. -/
theorem onlySpout_updSp_done (f : Spout → Spout) (hstop : (f (s.sp h.sp.val)).stopReq = (s.sp h.sp.val).stopReq)
    (habort : (f (s.sp h.sp.val)).txAbort = (s.sp h.sp.val).txAbort) :
    onlySpout s (((s.begun h).updSp h.sp.val f).done h) h.sp.val ((f (s.sp h.sp.val)).past h) := by
  obtain ⟨-, -, -, -, hs, ha, -⟩ := hi.1
  exact ((onlySpout.start hi).upd f).done (hstop.trans hs) (habort.trans ha)

/-- A body that only completes. -/
theorem onlySpout_done : onlySpout s ((s.begun h).done h) h.sp.val ((s.sp h.sp.val).past h) := by
  obtain ⟨-, -, -, -, hs, ha, -⟩ := hi.1
  exact (onlySpout.start hi).done hs ha

/-- A taken branch, after a change of the spout that leaves what waits for the boundary. -/
theorem onlySpout_branch {t : State} {y : Spout} (ho : onlySpout s t h.sp.val y) (hstop : y.stopReq = (s.sp h.sp.val).stopReq)
    (habort : y.txAbort = (s.sp h.sp.val).txAbort) {target : Nat} (ht : target < 2 ^ 48) :
    onlySpout s (t.branch h.sp.val target) h.sp.val { y with pc := target, seq := y.seq + 1, loops := popLoops target y.loops } := by
  obtain ⟨-, -, -, -, hs, ha, -⟩ := hi.1
  have hmod := Nat.mod_eq_of_lt ht
  have hgoto := (ho.upd fun x => { x with loops := popLoops (target % 2 ^ 48) x.loops }).goto (hstop.trans hs) (habort.trans ha) (target % 2 ^ 48)
  simp only [hmod] at hgoto
  simpa only [State.branch, hmod] using hgoto

end Issues

/-! ## Values -/

/-- MOVR's sum in 64 bits, where the register's value is any number. -/
theorem wrapInt_add_sx (v : Nat) (imm : BitVec 16) :
    wrapInt 64 ((v : Int) + sx 16 imm.toNat) = (BitVec.ofNat 64 v + imm.signExtend 64).toNat := by
  have hsum : BitVec.ofNat 64 v + imm.signExtend 64 = BitVec.ofInt 64 ((v : Int) + imm.toInt) := by
    rw [BitVec.ofInt_add, BitVec.ofInt_natCast, BitVec.signExtend]
  rw [sx_toInt (by decide), wrapInt, hsum, BitVec.toNat_ofInt]

theorem b2n_eq_ite (b : Bool) : b2n b = if b then 1 else 0 := by
  cases b <;> rfl

/-- A sum with an address stays within 48 bits. -/
theorem addrAdd_lt (a : Nat) (d : Int) : addrAdd a d < 2 ^ 48 := by
  unfold addrAdd wrapInt; omega

/-- Settles O4: each body changes one register of the spout, or its fences, and completes. -/
theorem registerSetupCompletes : Obligations.RegisterSetupCompletes := by
  intro s h x
  refine ⟨fun hi => ?_, fun rd imm hi => ?_, fun rd rs imm hi => ?_, fun pd pa pb tt hi => ?_, fun mask hi => ?_⟩
  · refine ⟨(s.begun h).done h, ?_, onlySpout_done hi⟩
    change execNop h s = _
    rw [execNop, issue1_of_issues hi]
  · refine ⟨((s.begun h).updSp h.sp.val fun y => y.setSel rd.toNat (if h.x then h.ext.toNat else (imm.signExtend 64).toNat)).done h, ?_,
      onlySpout_updSp_done hi _ (by simp) (by simp)⟩
    change execLdi h rd imm s = _
    rw [execLdi, issue1_of_issues hi, wrapInt_sx (by decide)]
  · refine ⟨((s.begun h).updSp h.sp.val fun y =>
      y.setSel rd.toNat (BitVec.ofNat 64 (y.sel rs.toNat) + imm.signExtend 64).toNat).done h, ?_,
      onlySpout_updSp_done hi (fun y => y.setSel rd.toNat (BitVec.ofNat 64 (y.sel rs.toNat) + imm.signExtend 64).toNat) (by simp) (by simp)⟩
    change execMovr h rd rs imm s = _
    rw [execMovr, issue1_of_issues hi]
    simp only [wrapInt_add_sx]
  · refine ⟨((s.begun h).updSp h.sp.val fun y =>
      y.setP pd.toNat (tt.getLsbD (2 * (if y.pv pa.toNat then 1 else 0) + (if y.pv pb.toNat then 1 else 0)))).done h, ?_,
      onlySpout_updSp_done hi (fun y =>
        y.setP pd.toNat (tt.getLsbD (2 * (if y.pv pa.toNat then 1 else 0) + (if y.pv pb.toNat then 1 else 0)))) (by simp) (by simp)⟩
    change execPlog h pd pa pb tt s = _
    rw [execPlog, issue1_of_issues hi]
    simp only [b2n_eq_ite, BitVec.testBit_toNat]
  · by_cases hm : mask = 0
    · refine ⟨(s.begun h).done h, ?_, by simpa only [hm, if_true] using onlySpout_done hi⟩
      change execFence h mask s = _
      rw [execFence, issue1_of_issues hi, if_pos hm]
    · refine ⟨_, ?_, by
        simpa only [hm, if_false] using onlySpout_updSp_done hi (fun y => { y with fences := y.fences ++ [(mask.toNat, y.nextIdx)] }) rfl rfl⟩
      change execFence h mask s = _
      rw [execFence, issue1_of_issues hi, if_neg hm]

/-! ## Branches -/

section Branches
variable {s : State} {h : Hdr}

/-- BR.A's address is checked in the state before: the start of an instruction does not move the map. -/
theorem begun_isLocal (a : Nat) : (s.begun h).isLocal a = s.isLocal a := by
  rfl

theorem av_lt (x : Spout) (n : Nat) : x.av n < 2 ^ 48 :=
  BitVec.isLt _

variable {c : Cls} {u : Use} (hi : s.issues h c u)
include hi

/-- A branch of the spout as it stands. -/
theorem onlySpout_begun_branch {target : Nat} (ht : target < 2 ^ 48) :
    onlySpout s ((s.begun h).branch h.sp.val target) h.sp.val
      { s.sp h.sp.val with pc := target, seq := (s.sp h.sp.val).seq + 1, loops := popLoops target (s.sp h.sp.val).loops } :=
  onlySpout_branch hi (onlySpout.start hi) rfl rfl ht

end Branches

/-! ## What LOOP answers where it executes normally -/

section Loop
variable {s : State} {h : Hdr} {imm : BitVec 24} {len : BitVec 16} {gs : BitVec 4} {cs : Bool}
  (hi : s.issues h .ctl { Use.none with names := if cs then [gs.toNat] else [] })
include hi

/-- The word that LOOP names. -/
def loopStop (x : Spout) (len : BitVec 16) : Nat := (x.pc + 8 * len.toNat) % 2 ^ 48

/-- The spout with a loop begun that runs n times to the word at stop. -/
def pushLoop (h : Hdr) (stop n : Nat) (x y : Spout) : Spout :=
  { y with loops := y.loops ++ [{ start := x.nextPc h, endAt := stop, n := n }], k := Store.put 0 y.k x.depth 0 }

/-- R171: four active loops are as many as there may be. -/
theorem execLoop_of_deep (hdepth : 4 ≤ (s.sp h.sp.val).depth) :
    execLoop h imm len gs cs s = .next ((s.begun h).fault h.sp.val 0x0C 0 0) := by
  have hsp := begun_sp_of_issues hi
  simp only [execLoop, issue_of_issues hi, hsp, if_pos hdepth]

variable (hdepth : (s.sp h.sp.val).depth < 4)
include hdepth

/-- R171: a count of more than 32 bits. -/
theorem execLoop_of_range (hcs : cs = true) (hn : 2 ^ 32 ≤ (s.sp h.sp.val).gv gs.toNat) :
    execLoop h imm len gs cs s = .next ((s.begun h).fault h.sp.val 0x81 0 0) := by
  have hsp := begun_sp_of_issues hi
  have hq : (s.sp h.sp.val).gv gs.toNat / 2 ^ 32 ≠ 0 := Nat.pos_iff_ne_zero.mp (Nat.div_pos hn (by decide))
  subst hcs
  rw [execLoop, issue_of_issues hi]
  simp only [hsp, if_neg (Nat.not_le.mpr hdepth), Bool.true_and, bne_iff_ne.mpr hq, if_true]

variable (hcount : cs = true → (s.sp h.sp.val).gv gs.toNat < 2 ^ 32)
include hcount

omit hdepth in
theorem count_in_range : (cs && (s.sp h.sp.val).gv gs.toNat / 2 ^ 32 != 0) = false := by
  cases cs with
  | false => rfl
  | true => rw [Bool.true_and, bne_eq_false_iff_eq, Nat.div_eq_of_lt (hcount rfl)]

/-- R171: without the line of the word it names, LOOP waits for it. -/
theorem execLoop_of_no_word (hword : (s.sp h.sp.val).word (loopStop (s.sp h.sp.val) len) = none) :
    execLoop h imm len gs cs s =
      .next (((s.begun h).wantLineAt h.sp.val (loopStop (s.sp h.sp.val) len)).holdFor h.sp.val (.loop h imm len gs cs)) := by
  have hsp := begun_sp_of_issues hi
  rw [loopStop] at hword
  simp only [execLoop, issue_of_issues hi, hsp, if_neg (Nat.not_le.mpr hdepth), count_in_range hi hcount, hword,
    Bool.false_eq_true, if_false, loopStop]

variable {w : Nat} (hword : (s.sp h.sp.val).word (loopStop (s.sp h.sp.val) len) = some w)
include hword

/-- R171: the word is no ENDLOOP. -/
theorem execLoop_of_no_endloop (hend : isEndloop w = false) :
    execLoop h imm len gs cs s = .next ((s.begun h).fault h.sp.val 0x80 0 0) := by
  have hsp := begun_sp_of_issues hi
  rw [loopStop] at hword
  simp only [execLoop, issue_of_issues hi, hsp, if_neg (Nat.not_le.mpr hdepth), count_in_range hi hcount, hword, hend,
    Bool.false_eq_true, if_false, Bool.not_false, if_true]

/-- R171, R173: a count of 0 goes on behind the ENDLOOP; another begins the loop. -/
theorem execLoop_of_endloop (hend : isEndloop w = true) :
    let x := s.sp h.sp.val
    let n := if cs then x.gv gs.toNat else imm.toNat
    execLoop h imm len gs cs s = .next (if n = 0 then (s.begun h).goto h.sp.val (loopStop x len + 8)
      else ((s.begun h).updSp h.sp.val (pushLoop h (loopStop x len) n x)).goto h.sp.val (x.nextPc h)) := by
  have hsp := begun_sp_of_issues hi
  have hn : (if cs = true then (s.sp h.sp.val).gv gs.toNat % 2 ^ 32 else imm.toNat) =
      (if cs = true then (s.sp h.sp.val).gv gs.toNat else imm.toNat) := by
    split
    next hcs => exact Nat.mod_eq_of_lt (hcount hcs)
    next => rfl
  rw [loopStop] at hword
  simp only [execLoop, issue_of_issues hi, hsp, if_neg (Nat.not_le.mpr hdepth), count_in_range hi hcount, hword, hend, hn,
    Bool.false_eq_true, if_false, Bool.not_true, loopStop]
  split <;> rfl

end Loop

/-- Settles O5: the three branches are `State.branch` at the spout's target; LOOP answers by its depth, its count and the word that it names. -/
theorem branchesAndLoopsBegin : Obligations.BranchesAndLoopsBegin := by
  constructor
  · intro s h x
    refine ⟨fun off hi => ?_, fun aa hi halign hlocal => ?_, fun f hi => ?_⟩
    · refine ⟨(s.begun h).branch h.sp.val (addrAdd x.pc (8 * off.toInt)), ?_, onlySpout_begun_branch hi (addrAdd_lt _ _)⟩
      change execBr h off s = _
      rw [execBr, issue1_of_issues hi, begun_sp_of_issues hi, sx_toInt (by decide)]
    · refine ⟨(s.begun h).branch h.sp.val (x.av aa.toNat), ?_, onlySpout_begun_branch hi (av_lt _ _)⟩
      change execBrA h aa s = _
      rw [execBrA, issue1_of_issues hi]
      dsimp only
      rw [begun_sp_of_issues hi, if_neg (not_not_intro halign), begun_isLocal, hlocal]
      rfl
    · intro b r y target
      refine ⟨if r && f.off != 0 then
        (if f.pw then (s.begun h).updSp h.sp.val fun y => y.setP f.pd.toNat r else s.begun h).branch h.sp.val target
        else (if f.pw then (s.begun h).updSp h.sp.val fun y => y.setP f.pd.toNat r else s.begun h).done h, ?_, ?_⟩
      · change execBrC h f s = _
        rw [execBrC, issue1_of_issues hi]
        dsimp only
        rw [begun_sp_of_issues hi, wrapInt_sx (by decide), sx_toInt (by decide)]
      · have hset : onlySpout s (if f.pw then (s.begun h).updSp h.sp.val fun y => y.setP f.pd.toNat r else s.begun h) h.sp.val y := by
          by_cases hpw : f.pw = true
          · rw [show y = x.setP f.pd.toNat r from if_pos hpw, if_pos hpw]
            exact (onlySpout.start hi).upd fun y => y.setP f.pd.toNat r
          · rw [show y = x from if_neg hpw, if_neg hpw]
            exact onlySpout.start hi
        have hstop : y.stopReq = x.stopReq := by simp only [y, apply_ite Spout.stopReq, Spout.setP_stopReq, ite_self]
        have habort : y.txAbort = x.txAbort := by simp only [y, apply_ite Spout.txAbort, Spout.setP_txAbort, ite_self]
        obtain ⟨-, -, -, -, hs, ha, -⟩ := hi.1
        by_cases hr : (r && f.off != 0) = true
        · rw [if_pos hr, if_pos hr]
          exact onlySpout_branch hi hset hstop habort (addrAdd_lt _ _)
        · rw [if_neg hr, if_neg hr]
          exact hset.done (hstop.trans hs) (habort.trans ha)
  · intro s h imm len gs cs x stop hi
    refine ⟨execLoop_of_deep hi, execLoop_of_range hi, fun hd hc hw => execLoop_of_no_word hi hd hc hw,
      fun w hd hc hw => ⟨execLoop_of_no_endloop hi hd hc hw, fun hend => ?_⟩⟩
    intro n
    refine ⟨_, execLoop_of_endloop hi hd hc hw hend, ?_⟩
    obtain ⟨-, -, -, -, hs, ha, -⟩ := hi.1
    by_cases hn : n = 0
    · rw [if_pos hn, if_pos hn]
      exact (onlySpout.start hi).goto hs ha (stop + 8)
    · rw [if_neg hn, if_neg hn]
      have hpush := ((onlySpout.start hi).upd (pushLoop h stop n x)).goto hs ha (x.nextPc h)
      have hnext : x.nextPc h % 2 ^ 48 = after h x.pc := by rw [Spout.nextPc, after, Nat.mod_mod]
      rw [hnext] at hpush
      exact hpush

end Sys2Proof.Proofs

/-! SYNC (04_zynsa_model.md R119), WAIT (06_zynsa_encoding.md R175) and the scalar requests (R169, R176, R177, R184). -/
namespace Sys2Proof.Proofs
open Sys2Proof Sys2Proof.Machine

/-! ## SYNC -/

/-- Settles O7: outside a transaction SYNC looks at the spout's requests, inside one it adds a full fence; the timeout is the fault 0x0D. -/
theorem syncWaitsForWrites : Obligations.SyncWaitsForWrites := by
  intro s h page x
  refine ⟨fun hi => ⟨fun htx hset hack => ?_, fun htx hopen => ?_, fun k htx => ?_⟩, fun hwait hst => ?_⟩
  · refine ⟨(s.begun h).done h, ?_, onlySpout_done hi⟩
    change execSync h s = _
    rw [execSync, issue1_of_issues hi]
    dsimp only
    rw [begun_sp_of_issues hi, htx, hset, hack]
    rfl
  · change execSync h s = _
    rw [execSync, issue1_of_issues hi]
    dsimp only
    rw [begun_sp_of_issues hi, htx, hopen]
    rfl
  · refine ⟨_, ?_, onlySpout_updSp_done hi (fun y => { y with fences := y.fences ++ [(15, y.nextIdx)] }) rfl rfl⟩
    change execSync h s = _
    rw [execSync, issue1_of_issues hi]
    dsimp only
    rw [begun_sp_of_issues hi, htx]
    rfl
  · change execSyncTimeout page s = _
    rw [execSyncTimeout, hwait, hst]
    rfl

/-! ## Scalar requests -/

/-- A load or store whose address resolves sends its request and goes on. -/
theorem begun_scalarMem_of_resolves {s : State} {h : Hdr} {c : Cls} {u : Use} (hi : s.issues h c u) {need : Need} {addr size : Nat} {kind : ReqKind}
    {data : Bytes} (haddr : s.addrFault h.sp.val addr size = none) (htx : (s.sp h.sp.val).tx = none ∨ s.isRemote addr = false) :
    (s.begun h).scalarMem h need addr size kind data = ((s.begun h).ask h.sp.val need addr size kind data).done h := by
  have hno : ((s.sp h.sp.val).tx.isSome && s.isRemote addr) = false := by
    obtain htx | htx := htx
    · rw [htx, Option.isSome_none, Bool.false_and]
    · rw [htx, Bool.and_false]
  have haddr' : (s.begun h).addrFault h.sp.val addr size = none := haddr
  have hno' : ((s.sp h.sp.val).tx.isSome && (s.begun h).isRemote addr) = false := hno
  simp only [State.scalarMem, begun_sp_of_issues hi, haddr', hno', Bool.false_eq_true, if_false]

section Signal
variable {s : State} {h : Hdr} {f : SignalF} {a v : Nat}
  (hi : s.issues h .ctl { Use.none with names := [16 + f.aa.toNat, f.gv.toNat] ++ (if f.ret then [f.gr.toNat] else []), writes := true,
                                        reads := true, all := true })
  (ha : addrAdd ((s.sp h.sp.val).av f.aa.toNat) (8 * f.disp.toInt) = a) (hv : (s.sp h.sp.val).gv f.gv.toNat = v)
  (haddr : s.addrFault h.sp.val a 8 = none) (htx : (s.sp h.sp.val).tx = none ∨ s.isRemote a = false)
  (hroom : (f.evt && (s.sp h.sp.val).tx.isNone && s.evFull) = false)
include hi ha hv haddr htx hroom

/-- R176: where its address resolves and its event finds room, SIGNAL sends its request and then its event, or keeps it in a transaction. -/
theorem execSignal_of_resolves :
    let n := h.sp.val
    let sent := (s.begun h).ask n (if f.ret then .prior f.gr.toNat else .store) a 8 (.atom f.op.toNat 8) (toLE 8 v)
    execSignal h f s = .next ((if !f.evt then sent
      else if (s.sp n).tx.isSome then sent.updSp n fun y => { y with signals := y.signals ++ [(a, v)] }
      else sent.spEvent n 0x82 a v).done h) := by
  have hno : ((s.sp h.sp.val).tx.isSome && s.isRemote a) = false := by
    obtain htx | htx := htx
    · rw [htx, Option.isSome_none, Bool.false_and]
    · rw [htx, Bool.and_false]
  have haddr' : (s.begun h).addrFault h.sp.val a 8 = none := haddr
  have hno' : ((s.sp h.sp.val).tx.isSome && (s.begun h).isRemote a) = false := hno
  have hroom' : (f.evt && (s.sp h.sp.val).tx.isNone && (s.begun h).evFull) = false := hroom
  rw [execSignal, issue1_of_issues hi]
  simp only [begun_sp_of_issues hi, sx_toInt (show 0 < 16 by decide), ha, hv, haddr', hno', hroom', Bool.false_eq_true, if_false]

end Signal

/-- Settles O9: each request's address resolves, so its instruction sends it and goes on. -/
theorem scalarRequestsAreSent : Obligations.ScalarRequestsAreSent := by
  intro s h n x t
  refine ⟨fun dd aa disp hi => ?_, fun rd aa disp hi => ?_, fun rs aa disp hi => ?_, fun f hi => ?_, fun page gs hi htx => ?_, fun hi => ?_⟩
  · intro a haddr htx
    change execLdd h dd aa disp s = _
    rw [execLdd, issue1_of_issues hi, begun_sp_of_issues hi, sx_toInt (by decide)]
    exact congrArg _ (begun_scalarMem_of_resolves hi haddr htx)
  · intro a haddr htx
    change execLdr h rd aa disp s = _
    rw [execLdr, issue1_of_issues hi, begun_sp_of_issues hi, sx_toInt (by decide)]
    exact congrArg _ (begun_scalarMem_of_resolves hi haddr htx)
  · intro a haddr htx
    change execStr h rs aa disp s = _
    rw [execStr, issue1_of_issues hi]
    dsimp only
    rw [begun_sp_of_issues hi, sx_toInt (by decide)]
    exact congrArg _ (begun_scalarMem_of_resolves hi haddr htx)
  · intro a v sent haddr htx
    refine ⟨fun hevt => ?_, fun hevt hout hroom => ?_, fun hevt hin => ?_⟩
    · refine (execSignal_of_resolves hi rfl rfl haddr htx (by rw [hevt]; rfl)).trans ?_
      rw [hevt]
      rfl
    · refine (execSignal_of_resolves hi rfl rfl haddr htx (by rw [hroom, Bool.and_false])).trans ?_
      rw [hevt, show (s.sp h.sp.val).tx = none from hout]
      rfl
    · have hin' : (s.sp h.sp.val).tx.isNone = false := by rw [← Option.not_isSome, hin, Bool.not_true]
      refine (execSignal_of_resolves hi rfl rfl haddr htx (by rw [hin', Bool.and_false, Bool.false_and])).trans ?_
      rw [hevt, show (s.sp h.sp.val).tx.isSome = true from hin]
      rfl
  · refine ⟨fun hpage => ?_, fun hpage => ?_⟩
    · change execSeed h page gs s = _
      rw [execSeed, issue1_of_issues hi]
      dsimp only
      rw [begun_sp_of_issues hi, htx, if_pos hpage]
      rfl
    · change execSeed h page gs s = _
      rw [execSeed, issue1_of_issues hi]
      dsimp only
      rw [begun_sp_of_issues hi, htx, if_neg (Nat.not_le.mpr hpage)]
      rfl
  · change execHalt h s = _
    rw [execHalt, issue1_of_issues hi]

/-! ## WAIT -/

theorem addr_TIM_TIDE_ne_DBL_STAT (n : Nat) : Reg.TIM_TIDE.addr 0 ≠ Reg.DBL_STAT.addr n := by
  simp only [Reg.addr, Reg.place]
  omega

/-- The condition of a WAIT sees neither its spout's registers nor its STATE. -/
theorem lookWait_updSp_setSpSt (s : State) (n src c b : Nat) (f : Spout → Spout) (v : Nat) :
    ((s.updSp n f).setSpSt n v).lookWait n src c b = s.lookWait n src c b := by
  have htide : ((s.updSp n f).setSpSt n v).rd F.TIM_TIDE_TIDE 0 = s.rd F.TIM_TIDE_TIDE 0 :=
    State.rd_wr_ne _ F.DBL_STAT_STATE F.TIM_TIDE_TIDE n 0 v (addr_TIM_TIDE_ne_DBL_STAT n)
  match src with
  | 0 => rfl
  | 1 => rfl
  | k + 2 => simp only [State.lookWait, htide]

@[simp] theorem spSt_setSpSt (s : State) (n v : Nat) : (s.setSpSt n v).spSt n = v % 2 ^ 4 :=
  State.rd_wr_same s F.DBL_STAT_STATE n v (by decide)

/-- What is seen of a WAIT: it is met, it was its one evaluation, or it goes on waiting. -/
theorem waitSaw_of_waiting {s : State} {n w a c b pd : Nat} {pw : Bool} {l : Option Nat} (hst : s.spSt n = 3)
    (hwait : (s.sp n).waiting = .cond w a c b pd pw l) (r : Bool) :
    s.waitSaw n r = if r then s.waitMet n pd pw (s.sp n).waitPc else if l = some 0 then s.waitLate n pd pw (s.sp n).waitPc else s := by
  simp only [State.waitSaw, hst, if_true, hwait]

section Wait
variable {s : State} {h : Hdr} {f : WaitF}
  (hi : s.issues h .ctl { Use.none with names := (if f.src.toNat = 0 then [16 + f.aa.toNat] else []) ++ (if f.src.toNat = 1 then [] else [f.gv.toNat]),
                                        reads := f.src.toNat == 0 })
include hi

/-- The address that a WAIT of SRC 0 polls. -/
def waitAddr (f : WaitF) (x : Spout) : Nat := addrAdd (x.av f.aa.toNat) (8 * f.disp.toInt)

/-- The timeout of a WAIT. -/
def waitLimit (h : Hdr) : Option Nat := if h.x then some h.ext.toNat else none

/-- s with spout n in the WAIT that it issues. -/
def inWait (s : State) (h : Hdr) (f : WaitF) : State :=
  let n := h.sp.val
  let x := s.sp n
  ((s.begun h).updSp n fun y =>
    { y with waiting := .cond f.src.toNat (waitAddr f x) f.cond.toNat (x.gv f.gv.toNat) f.pd.toNat f.pw (waitLimit h), waitPc := after h x.pc }).setSpSt n 3

/-- R175: past its checks, WAIT looks at its source, or asks for its word. -/
theorem execWait_of_checked (hsrc : f.src.toNat < 3) (hreq : f.src.toNat = 1 → spKind h.sp.val = 0)
    (htx : (s.sp h.sp.val).tx = none ∨ f.src.toNat = 2)
    (haddr : f.src.toNat = 0 → waitAddr f (s.sp h.sp.val) % 8 = 0 ∧ s.isLocal (waitAddr f (s.sp h.sp.val)) = true) :
    execWait h f s = .next (match s.lookWait h.sp.val f.src.toNat f.cond.toNat ((s.sp h.sp.val).gv f.gv.toNat) with
      | some r => (inWait s h f).waitSaw h.sp.val r
      | none => (inWait s h f).pollWait h.sp.val (waitAddr f (s.sp h.sp.val))) := by
  have hkind : ¬ (3 ≤ f.src.toNat ∨ (f.src.toNat = 1 ∧ spKind h.sp.val ≠ 0)) := by
    rintro (h3 | ⟨h1, hk⟩)
    · omega
    · exact hk (hreq h1)
  have hno : ((s.sp h.sp.val).tx.isSome && f.src.toNat != 2) = false := by
    obtain htx | htx := htx
    · rw [htx, Option.isSome_none, Bool.false_and]
    · rw [htx, bne_self_eq_false, Bool.and_false]
  have halign : ¬ (f.src.toNat = 0 ∧ waitAddr f (s.sp h.sp.val) % 8 ≠ 0) := fun ⟨h0, hne⟩ => hne (haddr h0).1
  have hlocal : ¬ (f.src.toNat = 0 ∧ (!(s.begun h).isLocal (waitAddr f (s.sp h.sp.val))) = true) := by
    rintro ⟨h0, hne⟩
    rw [begun_isLocal, (haddr h0).2] at hne
    exact absurd hne (by decide)
  rw [waitAddr] at halign hlocal
  rw [execWait, issue1_of_issues hi]
  simp only [begun_sp_of_issues hi, sx_toInt (show 0 < 16 by decide), if_neg hkind, hno, Bool.false_eq_true, if_false, if_neg halign, if_neg hlocal,
    lookWait_updSp_setSpSt]
  rfl

end Wait

theorem inWait_spSt (s : State) (h : Hdr) (f : WaitF) : (inWait s h f).spSt h.sp.val = 3 :=
  spSt_setSpSt _ _ 3

theorem inWait_waiting (s : State) (h : Hdr) (f : WaitF) :
    ((inWait s h f).sp h.sp.val).waiting = .cond f.src.toNat (waitAddr f (s.sp h.sp.val)) f.cond.toNat ((s.sp h.sp.val).gv f.gv.toNat) f.pd.toNat f.pw
      (waitLimit h) := by
  rw [inWait, State.setSpSt_sp, State.sp_updSp_same]

theorem inWait_waitPc (s : State) (h : Hdr) (f : WaitF) : ((inWait s h f).sp h.sp.val).waitPc = after h (s.sp h.sp.val).pc := by
  rw [inWait, State.setSpSt_sp, State.sp_updSp_same]

/-- A predicate that is set reads 1. -/
theorem pv_setP_true (x : Spout) {pd : Nat} (hpd : pd < 8) : (x.setP pd true).pv pd = true := by
  by_cases h0 : pd = 0
  · rw [h0]; rfl
  · simp only [Spout.setP, if_neg h0, Spout.pv, setBitTo, BitVec.getLsbD_ofNat, setBits_testBit _ _ _ _ _ (Nat.le_refl pd)]
    simp [hpd]

/-- Going on at an address where nothing waits for the boundary changes the spout alone. -/
theorem onlySpout_goto_self (s : State) (n a : Nat) (hstop : (s.sp n).stopReq = none) (habort : (s.sp n).txAbort = none) :
    onlySpout s (s.goto n a) n { s.sp n with pc := a % 2 ^ 48, seq := (s.sp n).seq + 1 } :=
  onlySpout.goto ⟨rfl, fun _ _ => rfl, rfl⟩ hstop habort a

section OnlySpout
variable {s t : State} {n : Nat} {y : Spout} (ho : onlySpout s t n y)
include ho

theorem onlySpout_spSt (m : Nat) : t.spSt m = s.spSt m := by
  have hrest : t.noSpouts.spSt m = s.noSpouts.spSt m := by rw [ho.2.2]
  exact hrest

theorem onlySpout_mem : t.mem = s.mem := by
  have hrest : t.noSpouts.mem = s.noSpouts.mem := by rw [ho.2.2]
  exact hrest

end OnlySpout

/-- A spout whose WAIT is met under PW. -/
def metSpout (pd : Nat) (x : Spout) : Spout := (x.setP pd true).dropPoll

/-- R175, a WAIT that is met: the spout goes on at the next instruction with PD set. -/
theorem waitMet_goes_on (s : State) (n : Nat) {pd : Nat} (next : Nat) (hpd : pd < 8) (hstop : (s.sp n).stopReq = none) (habort : (s.sp n).txAbort = none) :
    let t := s.waitMet n pd true next
    (t.sp n).pc = next % 2 ^ 48 ∧ (t.sp n).pv pd = true ∧ (t.sp n).waiting = .none ∧ t.spSt n = 2 ∧ t.mem = s.mem ∧ ∀ m, m ≠ n → t.sp m = s.sp m := by
  have hsp : ((s.updSp n (metSpout pd)).setSpSt n 2).sp n = metSpout pd (s.sp n) := by rw [State.setSpSt_sp, State.sp_updSp_same]
  have hgo := onlySpout_goto_self ((s.updSp n (metSpout pd)).setSpSt n 2) n next (by rw [hsp]; exact (Spout.setP_stopReq _ _ _).trans hstop)
    (by rw [hsp]; exact (Spout.setP_txAbort _ _ _).trans habort)
  rw [hsp] at hgo
  have hself : s.waitMet n pd true next = ((s.updSp n (metSpout pd)).setSpSt n 2).goto n next := rfl
  simp only [hself]
  obtain ⟨hn, hm, -⟩ := id hgo
  refine ⟨by rw [hn], ?_, by rw [hn]; rfl, ?_, ?_, fun m hne => ?_⟩
  · rw [hn]; exact pv_setP_true (s.sp n) hpd
  · exact (onlySpout_spSt hgo n).trans (spSt_setSpSt _ n 2)
  · rw [onlySpout_mem hgo, State.setSpSt_mem, State.updSp_mem]
  · rw [hm m hne, State.setSpSt_sp, State.sp_updSp_ne _ _ hne]

/-- Settles O8: an issued WAIT is looked at in the state in which it waits; WAIT_EVALUATE and WAIT_TIMEOUT find the spout in that state. -/
theorem waitEndsOnConditionOrTimeout : Obligations.WaitEndsOnConditionOrTimeout := by
  refine ⟨fun s h f page => ?_, fun s n cond b => ⟨rfl, fun pd next hpd hs ha => waitMet_goes_on s n next hpd hs ha⟩⟩
  intro n x src addr b u lim t
  refine ⟨fun hi hsrc hreq htx haddr => ?_, fun w a c v pd pw l hst hwait => ?_⟩
  · have hexec : exec (.wait h f) s = _ := execWait_of_checked hi hsrc hreq htx haddr
    have hsaw : ∀ r, (inWait s h f).waitSaw n r = _ := waitSaw_of_waiting (inWait_spSt s h f) (inWait_waiting s h f)
    rw [inWait_waitPc] at hsaw
    refine ⟨fun h0 => ?_, fun hlook => ?_, fun hlook hlim => ?_, fun hlook hlim => ?_⟩
    · rw [hexec, show s.lookWait h.sp.val f.src.toNat f.cond.toNat ((s.sp h.sp.val).gv f.gv.toNat) = none by
        rw [show f.src.toNat = 0 from h0]; rfl]
      rfl
    · rw [hexec, show s.lookWait h.sp.val f.src.toNat f.cond.toNat ((s.sp h.sp.val).gv f.gv.toNat) = some true from hlook]
      exact congrArg _ (hsaw true)
    · rw [hexec, show s.lookWait h.sp.val f.src.toNat f.cond.toNat ((s.sp h.sp.val).gv f.gv.toNat) = some false from hlook]
      exact congrArg _ ((hsaw false).trans (if_pos hlim))
    · rw [hexec, show s.lookWait h.sp.val f.src.toNat f.cond.toNat ((s.sp h.sp.val).gv f.gv.toNat) = some false from hlook]
      exact congrArg _ ((hsaw false).trans (if_neg hlim))
  · intro m on seen
    have hsaw : ∀ r, s.waitSaw m r = seen r := waitSaw_of_waiting hst hwait
    refine ⟨fun r hlook => ?_, fun hw => ⟨?_, fun d => ?_⟩, fun k hl hk => ?_⟩
    · change execWaitEvaluate page s = _
      simp only [execWaitEvaluate, hst, if_true, hwait, show s.lookWait page.val w c v = some r from hlook]
      exact congrArg _ (hsaw r)
    · change execWaitEvaluate page s = _
      subst hw
      simp only [execWaitEvaluate, hst, if_true, hwait, State.lookWait]
      rfl
    · subst hw
      simp only [State.polled, show (s.sp m).waiting = _ from hwait, hsaw]
    · change execWaitTimeout page s = _
      subst hl
      simp only [execWaitTimeout, hst, if_true, hwait, if_neg hk]
      rfl

end Sys2Proof.Proofs

/-! Scalar instructions (06_zynsa_encoding.md R182). -/
namespace Sys2Proof.Proofs
open Sys2Proof Sys2Proof.Machine

/-! ## What a scalar instruction writes -/

/-- The random value of a scalar instruction, and its generator after it. -/
def scalarDraw (f : FormS) (draws : Bool) (x : Spout) : Nat × Draw :=
  Draw.next { g := x.gen.toNat, i := 0 } (if draws then f.rm.toNat else 0)

/-- The result of a scalar operation of a spout, and its flags. -/
def scalarValue (h : Hdr) (f : FormS) (draws : Bool) (op : Nat → Nat → Nat → Nat × Nat) (x : Spout) : Nat × Nat :=
  op (x.gv f.ga.toNat) (x.bval h f) (scalarDraw f draws x).1

/-- A spout with the result v written, and its generator. -/
def scalarSpout (f : FormS) (v gen : Nat) (y : Spout) : Spout :=
  let z : Spout := { y.setG f.gd.toNat v with gen := BitVec.ofNat 64 gen }
  if f.pw then z.setP f.pd.toNat (v % 2 ^ 64 != 0) else z

theorem scalarSpout_stopReq (f : FormS) (v gen : Nat) (y : Spout) : (scalarSpout f v gen y).stopReq = y.stopReq := by
  unfold scalarSpout
  split
  · rw [Spout.setP_stopReq]; rfl
  · rfl

theorem scalarSpout_txAbort (f : FormS) (v gen : Nat) (y : Spout) : (scalarSpout f v gen y).txAbort = y.txAbort := by
  unfold scalarSpout
  split
  · rw [Spout.setP_txAbort]; rfl
  · rfl

/-! ## Numeric flags -/

/-- Setting flags changes no spout. -/
theorem setFlags_noSpouts (s t : State) (n fl : Nat) (hst : s.noSpouts = t.noSpouts) : (s.setFlags n fl).noSpouts = (t.setFlags n fl).noSpouts := by
  have hreg : ∀ (u : State) (e : Nat), u.reg .JET_NFLAG e = u.noSpouts.reg .JET_NFLAG e := fun _ _ => rfl
  have hset : ∀ (u : State) (e v : Nat), (u.setReg .JET_NFLAG e v).noSpouts = u.noSpouts.setReg .JET_NFLAG e v := fun _ _ _ => rfl
  unfold State.setFlags
  split
  · exact hst
  · simp only [hset, hreg s, hreg t, hst]

theorem setFlags_mem (s : State) (n fl : Nat) : (s.setFlags n fl).mem = s.mem := by
  unfold State.setFlags; split <;> rfl

theorem setFlags_tiles (s : State) (n fl : Nat) : (s.setFlags n fl).tiles = s.tiles := by
  unfold State.setFlags; split <;> rfl

theorem setFlags_reg_ne (s : State) (n fl : Nat) {q : Reg} {j : Nat} (hq : q.addr j ≠ Reg.JET_NFLAG.addr (jetOf n)) :
    (s.setFlags n fl).reg q j = s.reg q j := by
  unfold State.setFlags
  split
  · rfl
  · exact State.reg_setReg_ne _ _ _ _ _ _ hq

/-- No flags set leave every flag. -/
theorem setFlags_zero_reg (s : State) (n e : Nat) : (s.setFlags n 0).reg .JET_NFLAG e = s.reg .JET_NFLAG e := by
  by_cases he : e = jetOf n
  · subst he
    unfold State.setFlags
    split
    · rfl
    · simp only [Nat.zero_mod, Nat.zero_mul, Nat.or_zero]
      exact State.reg_setReg_same _ _ _ _ (s.reg_lt _ _)
  · refine setFlags_reg_ne s n 0 ?_
    simp only [Reg.addr, Reg.place]
    omega

/-! ## What a scalar instruction does where it executes normally -/

section Scalar
variable {s : State} {h : Hdr} {f : FormS} {un : Bool}
  (hi : s.issues h .scalar { Use.none with names := [f.gd.toNat, f.ga.toNat] ++ if un || f.immb then [] else [f.gb.toNat] })
include hi

/-- R182: an RM that is reserved faults. -/
theorem scalar_of_reserved (i : Instr) (draws : Bool) (op : Nat → Nat → Nat → Nat × Nat) (hrm : 5 ≤ f.rm.toNat) :
    s.scalar h f i un draws op = (s.begun h).fault h.sp.val 0x45 0 0 := by
  rw [State.scalar, issue1_of_issues hi]
  simp only [if_pos hrm]

theorem scalar_of_issues (i : Instr) (draws : Bool) (op : Nat → Nat → Nat → Nat × Nat) (hrm : f.rm.toNat < 5) :
    let v := scalarValue h f draws op (s.sp h.sp.val)
    s.scalar h f i un draws op =
      (((s.begun h).updSp h.sp.val (scalarSpout f v.1 (scalarDraw f draws (s.sp h.sp.val)).2.g)).setFlags h.sp.val v.2).done h := by
  rw [State.scalar, issue1_of_issues hi]
  simp only [begun_sp_of_issues hi, if_neg (Nat.not_le.mpr hrm)]
  rfl

/-- R182: the spout takes the result, the jet the flags, and nothing else changes. -/
theorem scalar_effect (i : Instr) (draws : Bool) (op : Nat → Nat → Nat → Nat × Nat) (hrm : f.rm.toNat < 5) :
    let n := h.sp.val
    let x := s.sp n
    let v := scalarValue h f draws op x
    onlySpout (s.setFlags n v.2) (s.scalar h f i un draws op) n ((scalarSpout f v.1 (scalarDraw f draws x).2.g x).past h) := by
  intro n x v
  obtain ⟨-, -, -, -, hs, ha, -⟩ := hi.1
  rw [scalar_of_issues hi i draws op hrm]
  obtain ⟨hn, hm, hrest⟩ := (onlySpout.start hi).upd (scalarSpout f v.1 (scalarDraw f draws x).2.g)
  refine onlySpout.done ⟨?_, fun m hne => ?_, setFlags_noSpouts _ _ _ _ hrest⟩ ((scalarSpout_stopReq ..).trans hs) ((scalarSpout_txAbort ..).trans ha)
  · rw [State.setFlags_sp]; exact hn
  · rw [State.setFlags_sp, State.setFlags_sp]; exact hm m hne

end Scalar

theorem onlySpout_reg {s t : State} {n : Nat} {y : Spout} (ho : onlySpout s t n y) (r : Reg) (i : Nat) : t.reg r i = s.reg r i := by
  have hrest : t.noSpouts.reg r i = s.noSpouts.reg r i := by rw [ho.2.2]
  exact hrest

theorem onlySpout_tiles {s t : State} {n : Nat} {y : Spout} (ho : onlySpout s t n y) : t.tiles = s.tiles := by
  have hrest : t.noSpouts.tiles = s.noSpouts.tiles := by rw [ho.2.2]
  exact hrest

/-! ## The integer operations -/

theorem addNat_eq (a b : Word) : (a.toNat + b.toNat) % 2 ^ 64 = (a + b).toNat := (BitVec.toNat_add a b).symm

theorem subNat_eq (a b : Word) : (a.toNat + 2 ^ 64 - b.toNat) % 2 ^ 64 = (a - b).toNat := by
  have := b.isLt
  rw [BitVec.toNat_sub]
  congr 1
  omega

theorem mulNat_eq (a b : Word) : a.toNat * b.toNat % 2 ^ 64 = (a * b).toNat := (BitVec.toNat_mul a b).symm

theorem mulhuNat_eq (a b : Word) :
    a.toNat * b.toNat / 2 ^ 64 % 2 ^ 64 = (((a.zeroExtend 128 * b.zeroExtend 128) >>> 64).truncate 64).toNat := by
  have hprod : a.toNat * b.toNat < 2 ^ 128 :=
    calc a.toNat * b.toNat < 2 ^ 64 * 2 ^ 64 := Nat.mul_lt_mul'' a.isLt b.isLt
      _ = 2 ^ 128 := by decide
  have ha : a.toNat % 2 ^ 128 = a.toNat := Nat.mod_eq_of_lt (Nat.lt_trans a.isLt (by decide))
  have hb : b.toNat % 2 ^ 128 = b.toNat := Nat.mod_eq_of_lt (Nat.lt_trans b.isLt (by decide))
  rw [BitVec.truncate, BitVec.toNat_setWidth, BitVec.toNat_ushiftRight, BitVec.toNat_mul, BitVec.toNat_setWidth,
    BitVec.toNat_setWidth, ha, hb, Nat.mod_eq_of_lt hprod, Nat.shiftRight_eq_div_pow]

theorem andNat_eq (a b : Word) : (a.toNat &&& b.toNat) % 2 ^ 64 = (a &&& b).toNat := by
  rw [← BitVec.toNat_and, Nat.mod_eq_of_lt (BitVec.isLt _)]

theorem orNat_eq (a b : Word) : (a.toNat ||| b.toNat) % 2 ^ 64 = (a ||| b).toNat := by
  rw [← BitVec.toNat_or, Nat.mod_eq_of_lt (BitVec.isLt _)]

theorem xorNat_eq (a b : Word) : (a.toNat ^^^ b.toNat) % 2 ^ 64 = (a ^^^ b).toNat := by
  rw [← BitVec.toNat_xor, Nat.mod_eq_of_lt (BitVec.isLt _)]

theorem shlNat_eq (a b : Word) : a.toNat * 2 ^ (b.toNat % 64) % 2 ^ 64 = (a <<< (b.toNat % 64)).toNat := by
  rw [BitVec.toNat_shiftLeft, Nat.shiftLeft_eq]

theorem shrNat_eq (a b : Word) : a.toNat / 2 ^ (b.toNat % 64) % 2 ^ 64 = (a >>> (b.toNat % 64)).toNat := by
  rw [← Nat.shiftRight_eq_div_pow, ← BitVec.toNat_ushiftRight, Nat.mod_eq_of_lt (BitVec.isLt _)]

theorem sraNat_eq (a b : Word) :
    wrapInt 64 (sx 64 a.toNat / (2 ^ (b.toNat % 64) : Nat)) % 2 ^ 64 = (a.sshiftRight (b.toNat % 64)).toNat := by
  rw [sx_toInt (by decide), wrapInt, BitVec.sshiftRight, Int.shiftRight_eq_div_pow, ← BitVec.toNat_ofInt, Nat.mod_eq_of_lt (BitVec.isLt _)]

theorem minNat_eq (a b : Word) : (if sx 64 b.toNat < sx 64 a.toNat then b.toNat else a.toNat) % 2 ^ 64 = (if b.slt a then b else a).toNat := by
  rw [sx_toInt (by decide), sx_toInt (by decide), BitVec.slt, ← apply_ite BitVec.toNat, Nat.mod_eq_of_lt (BitVec.isLt _)]
  simp only [decide_eq_true_eq]

theorem maxNat_eq (a b : Word) : (if sx 64 a.toNat < sx 64 b.toNat then b.toNat else a.toNat) % 2 ^ 64 = (if a.slt b then b else a).toNat := by
  rw [sx_toInt (by decide), sx_toInt (by decide), BitVec.slt, ← apply_ite BitVec.toNat, Nat.mod_eq_of_lt (BitVec.isLt _)]
  simp only [decide_eq_true_eq]

theorem minuNat_eq (a b : Word) : min a.toNat b.toNat % 2 ^ 64 = (if b.ult a then b else a).toNat := by
  have ha := a.isLt
  have hb := b.isLt
  rw [BitVec.ult, apply_ite BitVec.toNat]
  simp only [decide_eq_true_eq]
  split
  · rw [Nat.min_eq_right (by omega), Nat.mod_eq_of_lt hb]
  · rw [Nat.min_eq_left (by omega), Nat.mod_eq_of_lt ha]

theorem maxuNat_eq (a b : Word) : max a.toNat b.toNat % 2 ^ 64 = (if a.ult b then b else a).toNat := by
  have ha := a.isLt
  have hb := b.isLt
  rw [BitVec.ult, apply_ite BitVec.toNat]
  simp only [decide_eq_true_eq]
  split
  · rw [Nat.max_eq_right (by omega), Nat.mod_eq_of_lt hb]
  · rw [Nat.max_eq_left (by omega), Nat.mod_eq_of_lt ha]

/-! ## The second operand -/

/-- The second operand as a word. -/
def operandB (x : Spout) (h : Hdr) (f : FormS) : Word :=
  if !f.immb then BitVec.ofNat 64 (x.gv f.gb.toNat) else if h.x then h.ext else f.imm.signExtend 64

theorem toNat_ofNat_gv (x : Spout) (k : Nat) : (BitVec.ofNat 64 (x.gv k)).toNat = x.gv k := by
  have hk : x.gv k < 2 ^ 64 := BitVec.isLt _
  rw [BitVec.toNat_ofNat, Nat.mod_eq_of_lt hk]

theorem bval_eq_operandB (x : Spout) (h : Hdr) (f : FormS) : x.bval h f = (operandB x h f).toNat := by
  rw [Spout.bval, operandB, wrapInt_sx (by decide), apply_ite BitVec.toNat, apply_ite BitVec.toNat, toNat_ofNat_gv]

/-- A result that does not draw leaves the generator. -/
theorem scalarDraw_false (f : FormS) (x : Spout) : scalarDraw f false x = (0, { g := x.gen.toNat, i := 0 }) := by
  rfl

theorem scalarSpout_word (f : FormS) (r : Word) (x : Spout) :
    scalarSpout f r.toNat x.gen.toNat x = if f.pw then (x.setG f.gd.toNat r.toNat).setP f.pd.toNat (r != 0) else x.setG f.gd.toNat r.toNat := by
  have hne : (r.toNat % 2 ^ 64 != 0) = (r != 0) := by
    rw [Nat.mod_eq_of_lt r.isLt, Bool.eq_iff_iff, bne_iff_ne, bne_iff_ne, ne_eq, ne_eq, BitVec.toNat_eq]
    rfl
  rw [scalarSpout, hne, BitVec.ofNat_toNat, BitVec.setWidth_eq]
  rfl

section Integers
variable {s : State} {h : Hdr} {f : FormS}
  (hi : s.issues h .scalar { Use.none with names := [f.gd.toNat, f.ga.toNat] ++ if f.immb then [] else [f.gb.toNat] }) (hrm : f.rm.toNat < 5)
include hi hrm

/-- R182: an integer operation whose result in numbers is the word r. -/
theorem intOp_effect (i : Instr) (g : Nat → Nat → Nat) {r : Word}
    (hr : g (BitVec.ofNat 64 ((s.sp h.sp.val).gv f.ga.toNat)).toNat (operandB (s.sp h.sp.val) h f).toNat % 2 ^ 64 = r.toNat) :
    let n := h.sp.val
    let x := s.sp n
    let y := x.setG f.gd.toNat r.toNat
    let t := s.scalar h f i false false (intOp g)
    (t.sp n = (if f.pw then y.setP f.pd.toNat (r != 0) else y).past h) ∧ (∀ m, m ≠ n → t.sp m = s.sp m) ∧ t.mem = s.mem ∧ t.tiles = s.tiles ∧
      (∀ q j, q.addr j ≠ Reg.JET_NFLAG.addr (jetOf n) → t.reg q j = s.reg q j) ∧ ∀ e, t.reg .JET_NFLAG e = s.reg .JET_NFLAG e := by
  intro n x y t
  have hv : scalarValue h f false (intOp g) x = (r.toNat, 0) := by
    rw [scalarValue, bval_eq_operandB, intOp, ← toNat_ofNat_gv, hr]
  have heff := scalar_effect (un := false) hi i false (intOp g) hrm
  simp only [show scalarValue h f false (intOp g) (s.sp h.sp.val) = (r.toNat, 0) from hv, scalarDraw_false, scalarSpout_word] at heff
  refine ⟨heff.1, fun m hm => ?_, ?_, ?_, fun q j hq => ?_, fun e => ?_⟩
  · rw [heff.2.1 m hm, State.setFlags_sp]
  · rw [onlySpout_mem heff, setFlags_mem]
  · rw [onlySpout_tiles heff, setFlags_tiles]
  · rw [onlySpout_reg heff, setFlags_reg_ne s n 0 hq]
  · rw [onlySpout_reg heff, setFlags_zero_reg]

end Integers

/-- Settles O11: each instruction's operation on numbers is the one on words; a reserved RM faults before the operation. -/
theorem scalarIntegersCompute : Obligations.ScalarIntegersCompute := by
  refine ⟨fun s h f i r hrm => ?_, fun s h f hrm hi => ⟨?_, ?_, ?_, ?_⟩⟩
  · intro x a b n hop hi
    rcases hop with ⟨rfl, rfl⟩ | ⟨rfl, rfl⟩ | ⟨rfl, rfl⟩ | ⟨rfl, rfl⟩ | ⟨rfl, rfl⟩ | ⟨rfl, rfl⟩ | ⟨rfl, rfl⟩ | ⟨rfl, rfl⟩ | ⟨rfl, rfl⟩ | ⟨rfl, rfl⟩ |
      ⟨rfl, rfl⟩ | ⟨rfl, rfl⟩ | ⟨rfl, rfl⟩ | ⟨rfl, rfl⟩
    · exact ⟨_, rfl, intOp_effect hi hrm (.add h f) _ (addNat_eq a b)⟩
    · exact ⟨_, rfl, intOp_effect hi hrm (.sub h f) _ (subNat_eq a b)⟩
    · exact ⟨_, rfl, intOp_effect hi hrm (.mul h f) _ (mulNat_eq a b)⟩
    · exact ⟨_, rfl, intOp_effect hi hrm (.mulhu h f) _ (mulhuNat_eq a b)⟩
    · exact ⟨_, rfl, intOp_effect hi hrm (.and h f) _ (andNat_eq a b)⟩
    · exact ⟨_, rfl, intOp_effect hi hrm (.or h f) _ (orNat_eq a b)⟩
    · exact ⟨_, rfl, intOp_effect hi hrm (.xor h f) _ (xorNat_eq a b)⟩
    · exact ⟨_, rfl, intOp_effect hi hrm (.shl h f) _ (shlNat_eq a b)⟩
    · exact ⟨_, rfl, intOp_effect hi hrm (.shr h f) _ (shrNat_eq a b)⟩
    · exact ⟨_, rfl, intOp_effect hi hrm (.sra h f) _ (sraNat_eq a b)⟩
    · exact ⟨_, rfl, intOp_effect hi hrm (.min h f) _ (minNat_eq a b)⟩
    · exact ⟨_, rfl, intOp_effect hi hrm (.max h f) _ (maxNat_eq a b)⟩
    · exact ⟨_, rfl, intOp_effect hi hrm (.minu h f) _ (minuNat_eq a b)⟩
    · exact ⟨_, rfl, intOp_effect hi hrm (.maxu h f) _ (maxuNat_eq a b)⟩
  all_goals exact congrArg _ (scalar_of_reserved (un := false) hi _ _ _ hrm)

theorem beq_three_toNat (v : BitVec 3) : (v.toNat == 3) = (v == 3) := by
  rw [Bool.eq_iff_iff, beq_iff_eq, beq_iff_eq, BitVec.toNat_eq]
  rfl

/-- Settles O12: each instruction is `State.scalar` with its operation, which draws under its RM. -/
theorem scalarDoublesCompute : Obligations.ScalarDoublesCompute := by
  intro s h f i un op hrm x rm hop hi d v y
  have hexec : exec i s = .next (s.scalar h f i un true op) := by
    rcases hop with ⟨rfl, rfl, rfl⟩ | ⟨rfl, rfl, rfl⟩ | ⟨rfl, rfl, rfl⟩ | ⟨rfl, rfl, rfl⟩ | ⟨rfl, rfl, rfl⟩ | ⟨rfl, rfl, rfl⟩ | ⟨rfl, rfl, rfl⟩
    · rw [beq_three_toNat]; rfl
    · rw [beq_three_toNat]; rfl
    all_goals rfl
  have heff := scalar_effect hi i true op hrm
  refine ⟨_, hexec, heff.1, fun m hm => ?_, ?_, ?_, fun e => onlySpout_reg heff .JET_NFLAG e⟩
  · rw [heff.2.1 m hm, State.setFlags_sp]
  · rw [onlySpout_mem heff, setFlags_mem]
  · rw [onlySpout_tiles heff, setFlags_tiles]

end Sys2Proof.Proofs

/-! Stack memory read back (01_architecture.md R23; 03_address_map.md R81, R83). -/
namespace Sys2Proof.Proofs
open Sys2Proof Sys2Proof.Machine

/-! ## Runs of bytes -/

/-- A byte inside a run that was put reads as the run's. -/
theorem memB_setRun_in (s : State) {k a : Nat} {l : Bytes} (hk : k ≤ a) (ha : a < k + l.length) : (s.setRun k l).memB a = l.getD (a - k) 0 := by
  have hput := putRun_get_in s.mem k (a - k) l (by omega)
  rw [Nat.add_sub_cancel' hk] at hput
  exact hput

/-- A byte outside a run that was put reads as before. -/
theorem memB_setRun_out (s : State) {k a : Nat} {l : Bytes} (ha : a < k ∨ k + l.length ≤ a) : (s.setRun k l).memB a = s.memB a :=
  putRun_get_out s.mem k a l ha

theorem memRun_length (s : State) (k n : Nat) : (s.memRun k n).length = n := by
  rw [State.memRun, List.length_map, List.length_range]

/-- A run that was put reads back. -/
theorem memRun_setRun_same (s : State) (k : Nat) (l : Bytes) : (s.setRun k l).memRun k l.length = l := by
  apply List.ext_getElem (memRun_length _ _ _)
  intro i _ hl
  simp only [State.memRun, List.getElem_map, List.getElem_range]
  rw [memB_setRun_in s (Nat.le_add_right k i) (by omega), Nat.add_sub_cancel_left, ← List.getElem_eq_getD (h := hl)]

/-- A run apart from one that was put reads as before. -/
theorem memRun_setRun_apart (s : State) {k j n : Nat} {l : Bytes} (hj : j + n ≤ k ∨ k + l.length ≤ j) :
    (s.setRun k l).memRun j n = s.memRun j n := by
  unfold State.memRun
  apply List.map_congr_left
  intro i hi
  rw [List.mem_range] at hi
  exact memB_setRun_out s (by omega)

/-- What is patched into a list, where it fits, is the slice at its place. -/
theorem sliceB_patchB (l m : Bytes) (k : Nat) (hk : k + m.length ≤ l.length) : sliceB (patchB l k m) k m.length = m := by
  have htake : (l.take k).length = k := by rw [List.length_take]; omega
  have hslice : ((patchB l k m).drop k).take m.length = m := by
    rw [patchB, List.drop_take, List.take_take, Nat.min_eq_left (by omega), List.append_assoc, List.drop_left' htake, List.take_left]
  rw [sliceB, hslice, Nat.sub_self, List.replicate_zero, List.append_nil]

/-! ## A granule and its check slot -/

/-- The data of a granule and its check slot stand at different keys of its page. -/
theorem memKey_data_lt_check (x : Loc) (hslot : x.slot < 15) : memKey x.pc x.page (64 * x.slot) + 64 ≤ memKey x.pc x.page (960 + 4 * x.slot) := by
  unfold memKey; omega

theorem bank_setBank_same (p : PcState) (b : Nat) (k : Bank) : (p.setBank b k).bank b = k :=
  Store.get_put_same ..

/-- The bank of a place. -/
def bankAt (s : State) (x : Loc) : Bank := (s.pc x.pc).bank x.bank

theorem checkOf_of_changed {s : State} {x : Loc} (hopen : (bankAt s x).showsPage x.page = true)
    (hbit : (bankAt s x).changed.testBit x.slot = true) : s.checkOf x = sliceB (bankAt s x).chk (4 * x.slot) 4 := by
  rw [bankAt] at hopen hbit ⊢
  simp only [State.checkOf, hopen, hbit, Bool.or_true, Bool.and_self, if_true]

theorem checkOf_of_closed {s : State} {x : Loc} (hclosed : (bankAt s x).showsPage x.page = false) :
    s.checkOf x = s.memRun (memKey x.pc x.page (960 + 4 * x.slot)) 4 := by
  rw [bankAt] at hclosed
  simp only [State.checkOf, hclosed, Bool.false_and, Bool.false_eq_true, if_false]

/-- A bank whose check buffer takes the check bytes c of a slot. -/
def bufferCheck (b : Bank) (slot : Nat) (c : Bytes) : Bank :=
  { b with chk := patchB (if b.chk.length = 64 then b.chk else bytesOf 64 0#8) (4 * slot) c, changed := b.changed ||| 2 ^ slot }

theorem setCheck_of_open {s : State} {x : Loc} (hopen : (bankAt s x).showsPage x.page = true) (c : Bytes) :
    s.setCheck x c = s.updPc x.pc fun p => p.setBank x.bank (bufferCheck (bankAt s x) x.slot c) := by
  rw [bankAt] at hopen
  simp only [State.setCheck, hopen, if_true]
  rfl

theorem setCheck_of_closed {s : State} {x : Loc} (hclosed : (bankAt s x).showsPage x.page = false) (c : Bytes) :
    s.setCheck x c = s.setRun (memKey x.pc x.page (960 + 4 * x.slot)) c := by
  rw [bankAt] at hclosed
  simp only [State.setCheck, hclosed, Bool.false_eq_true, if_false]

/-- R281: a check slot that was written reads back, from the check buffer of the open page or from memory. -/
theorem checkOf_setCheck (s : State) {x : Loc} {c : Bytes} (hslot : x.slot < 15) (hc : c.length = 4) : (s.setCheck x c).checkOf x = c := by
  cases hpage : (bankAt s x).showsPage x.page with
  | true =>
    rw [setCheck_of_open hpage]
    have hbank : bankAt (s.updPc x.pc fun p => p.setBank x.bank (bufferCheck (bankAt s x) x.slot c)) x = bufferCheck (bankAt s x) x.slot c := by
      rw [bankAt, State.pc_updPc_same, bank_setBank_same]
    have hbase : (if (bankAt s x).chk.length = 64 then (bankAt s x).chk else bytesOf 64 0#8).length = 64 := by
      split
      next hlen => exact hlen
      next => exact List.length_replicate
    rw [checkOf_of_changed (by rw [hbank]; exact hpage) (by rw [hbank, bufferCheck, Nat.testBit_or, Nat.testBit_two_pow_self, Bool.or_true]), hbank,
      bufferCheck]
    have hread := sliceB_patchB _ c (4 * x.slot) (show 4 * x.slot + c.length ≤ _ by rw [hbase]; omega)
    rw [hc] at hread
    exact hread
  | false =>
    rw [setCheck_of_closed hpage, checkOf_of_closed (s := s.setRun _ c) hpage]
    have hread := memRun_setRun_same s (memKey x.pc x.page (960 + 4 * x.slot)) c
    rw [hc] at hread
    exact hread

/-- The data of a granule keeps what stands in it when its check slot is written. -/
theorem memRun_setCheck (s : State) {x : Loc} {c : Bytes} (hslot : x.slot < 15) (n : Nat) (hn : n ≤ 64) :
    (s.setCheck x c).memRun (memKey x.pc x.page (64 * x.slot)) n = s.memRun (memKey x.pc x.page (64 * x.slot)) n := by
  have happart := memKey_data_lt_check x hslot
  cases hpage : (bankAt s x).showsPage x.page with
  | true => rw [setCheck_of_open hpage]; rfl
  | false => rw [setCheck_of_closed hpage]; exact memRun_setRun_apart s (.inl (by omega))

theorem setCheck_wf (s : State) (x : Loc) (c : Bytes) (h : Memory.wf s.mem = true) : Memory.wf (s.setCheck x c).mem = true := by
  cases hpage : (bankAt s x).showsPage x.page with
  | true => rw [setCheck_of_open hpage]; exact h
  | false => rw [setCheck_of_closed hpage]; exact State.setRun_wf s _ c h

/-- R83: a granule that was written raw reads back raw. -/
theorem rawGranule_setGranuleRaw (s : State) {x : Loc} {w : Bytes} (hslot : x.slot < 15) (hw : w.length = 68) :
    (s.setGranuleRaw x w).rawGranule x = w := by
  have hdata : (w.take 64).length = 64 := by rw [List.length_take]; omega
  have hback := memRun_setRun_same s (memKey x.pc x.page (64 * x.slot)) (w.take 64)
  rw [hdata] at hback
  rw [State.rawGranule, State.setGranuleRaw, memRun_setCheck _ hslot 64 (Nat.le_refl 64), hback,
    checkOf_setCheck _ hslot (by rw [List.length_drop]; omega), List.take_append_drop]

/-- Settles O57: the runs' laws, and a granule as a run of data and a check slot apart from it. -/
theorem memoryReadsBack : Obligations.MemoryReadsBack := by
  intro s k a l w x
  refine ⟨memB_setRun_in s, memB_setRun_out s, memRun_setRun_same s k l, rawGranule_setGranuleRaw s, fun hwf => ⟨State.setRun_wf s k l hwf, ?_⟩⟩
  exact setCheck_wf _ _ _ (State.setRun_wf s _ _ hwf)

end Sys2Proof.Proofs

/-! Registers and access codes (00_scope.md R15). -/
namespace Sys2Proof.Proofs
open Sys2Proof Sys2Proof.Machine

/-- W1C: what is left of a value without the bits it shares with another. -/
theorem ofNat_sub_and {w : Nat} (old new : BitVec w) : BitVec.ofNat w (old.toNat - (old.toNat &&& new.toNat)) = old &&& ~~~new := by
  have hapart : (old &&& ~~~new) &&& (old &&& new) = 0#w := by
    ext i hi
    simp only [BitVec.getElem_and, BitVec.getElem_not, BitVec.getElem_zero]
    cases old[i] <;> cases new[i] <;> rfl
  have hsum : (old &&& ~~~new) + (old &&& new) = old := by
    rw [BitVec.add_eq_or_of_and_eq_zero _ _ hapart]
    ext i hi
    simp only [BitVec.getElem_or, BitVec.getElem_and, BitVec.getElem_not]
    cases old[i] <;> cases new[i] <;> rfl
  have hle : old &&& new ≤ old := by
    rw [BitVec.le_def, BitVec.toNat_and]
    exact Nat.and_le_left
  rw [← BitVec.toNat_and, ← BitVec.toNat_sub_of_le hle, BitVec.ofNat_toNat, BitVec.setWidth_eq]
  exact (BitVec.eq_sub_iff_add_eq.mpr hsum).symm

/-- Settles O30: the register file's laws, and each access code's value as bit-vector operations. -/
theorem registersHoldWhatIsWritten : Obligations.RegistersHoldWhatIsWritten := by
  refine ⟨fun s r q i j v hv => ⟨s.reg_setReg_same r i v hv, s.reg_setReg_ne r q i j v, fun f hlo hhi => s.rd_wr_same f i v ⟨hlo, hhi⟩,
    fun f g hlo hhi hreg hapart => s.rd_wr_apart f g i v ⟨hlo, hhi⟩ hreg hapart⟩, fun w old new run => ?_⟩
  have hback : ∀ v : BitVec w, BitVec.ofNat w v.toNat = v := fun v => by rw [BitVec.ofNat_toNat, BitVec.setWidth_eq]
  refine ⟨hback old, hback old, hback new, ?_, ofNat_sub_and old new, ?_, rfl⟩
  · cases run
    · exact hback new
    · exact hback old
  · simp only [Acc.store, ← BitVec.toNat_or, hback]

end Sys2Proof.Proofs

/-! Transactions: their instructions, their logs, and the two-phase commit (09_transactions.md). -/
namespace Sys2Proof.Proofs
open Sys2Proof Sys2Proof.Machine

/-! ## Closing slots -/

/-- Reporting an abort word changes registers alone. -/
theorem reportAbort_slot (s : State) (w m : Nat) : (s.reportAbort w).slot m = s.slot m := by
  rw [State.reportAbort, State.bump, State.wr_slot, State.setReg_slot]

theorem reportAbort_mem (s : State) (w : Nat) : (s.reportAbort w).mem = s.mem := by
  rw [State.reportAbort, State.bump, State.wr_mem, State.setReg_mem]

/-- A slot that an abort has closed under a word. -/
def closedSlot (word : Nat) (y : TxSlot) : TxSlot :=
  { y with st := .closed, log := [], wset := [], reqs := [], reads := [], sig := 0, sigUsed := false, members := [], ready := [],
           word := word, indoubt := false, asked := false }

/-- R259: closing an ordinary slot without members. -/
theorem txClose_of_no_members {s : State} {k : Nat} (hmembers : (s.slot k).members = []) (hk : k < 56) (word : Nat) (stopped : List Nat)
    (tell : Bool) : s.txClose k word stopped tell = (s.updSlot k (closedSlot word)).reportAbort word := by
  have hlocal : (tell && decide (56 ≤ k) && (s.slot k).st == .active) = false := by
    rw [decide_eq_false (Nat.not_le.mpr hk), Bool.and_false, Bool.false_and]
  simp only [State.txClose, hmembers, hlocal, Bool.false_eq_true, if_false]
  rfl

/-- R267: the log of a slot that is applying it, of an ordinary one. -/
theorem applyLog_of_committing {s : State} {k : Nat} (hst : (s.slot k).st = .committing) (hk : k < 56) :
    s.applyLog k = (foldS (s.slot k).log s fun u e => u.logNow k e.1 e.2).updSlot k fun z => { z with st := .closed, log := [] } := by
  simp only [State.applyLog, hst, ne_eq, not_true_eq_false, if_false, if_pos hk]

theorem applyLog_of_not_committing {s : State} {k : Nat} (hst : (s.slot k).st ≠ .committing) : s.applyLog k = s := by
  rw [State.applyLog]
  exact if_pos hst

theorem addr_TXU_CSEQ_ne_TXU_CNT : Reg.TXU_CSEQ.addr 0 ≠ Reg.TXU_CNT.addr 0 := by
  simp [Reg.addr, Reg.place]

/-- R267: the commit point of a slot without members and with an empty log. -/
theorem commitPoint_of_empty {s : State} {k : Nat} (hmembers : (s.slot k).members = []) (hlog : (s.slot k).log = []) :
    s.commitPoint k = (((s.setReg .TXU_CSEQ 0 ((s.reg .TXU_CSEQ 0 + 1) % 2 ^ 64)).bump F.TXU_CNT_COMMITS 0 1).updSlot k fun y =>
      { y with st := .closed, log := [], wset := [], members := [], ready := [], indoubt := false }) := by
  simp only [State.commitPoint, hmembers, hlog, List.filter_nil, List.isEmpty_nil, if_true, List.map_nil]
  rfl

/-- Settles O21: the abort and the commit point of a slot without members, and the timers. -/
theorem transactionsCloseTheirLogs : Obligations.TransactionsCloseTheirLogs := by
  refine ⟨fun s k => ⟨fun code detail hmembers hk => ?_, fun hst => ?_, fun hst hmembers hasked => ?_⟩,
    fun s k hk => ⟨fun hst => ?_, fun hst => ?_, fun hmembers hlog => ?_⟩⟩
  · rw [State.txAbort, txClose_of_no_members hmembers hk]
    simp only [reportAbort_slot, reportAbort_mem, State.slot_updSlot_same, closedSlot, State.updSlot_mem, true_and]
    exact fun m hm => State.slot_updSlot_ne _ _ hm
  · change execTxLifetimeExpire k s = _
    rw [execTxLifetimeExpire, if_pos hst]
  · refine ⟨s.updSlot k.val fun _ => TxSlot.init, ?_, State.slot_updSlot_same _ _ _, fun m hm => State.slot_updSlot_ne _ _ hm, rfl, rfl⟩
    change execSlotFreeTimer k s = _
    rw [execSlotFreeTimer, if_pos ⟨hst, by rw [hmembers]; rfl, by rw [hasked]; rfl⟩]
  · exact ⟨_, congrArg Host.Outcome.next (applyLog_of_committing hst hk), rfl⟩
  · exact congrArg Host.Outcome.next (applyLog_of_not_committing hst)
  · rw [commitPoint_of_empty hmembers hlog]
    refine ⟨?_, by rw [State.slot_updSlot_same], rfl⟩
    rw [State.updSlot_reg, State.bump, State.reg_wr_ne _ F.TXU_CNT_COMMITS _ _ _ _ addr_TXU_CSEQ_ne_TXU_CNT,
      State.reg_setReg_same _ _ _ _ (Nat.mod_lt _ (by decide))]

/-! ## TBEGIN, TCOMMIT and TABORT -/

/-- Settles O18: TBEGIN's body, by its checks in their order. -/
theorem transactionsBegin : Obligations.TransactionsBegin := by
  intro s h gd xi off hi n x t handler v y
  have hexec : exec (.tbegin h gd xi off) s = execTbegin h gd xi off s := rfl
  rw [execTbegin, issue1_of_issues hi] at hexec
  simp only [begun_sp_of_issues hi, sx_toInt (show 0 < 16 by decide)] at hexec
  refine ⟨fun htx => ?_, fun htx hxi => ⟨fun k hk => ?_, fun hk => ?_⟩, fun htx hxi => ⟨fun hv => ?_, fun hv hst hlabel hroom => ?_, fun hv hbad => ?_⟩⟩
  · rw [hexec, if_pos htx]
  all_goals
    have hno : ¬ ((s.sp h.sp.val).tx.isSome = true) := by rw [show (s.sp h.sp.val).tx = none from htx]; exact Bool.false_ne_true
    subst hxi
    rw [if_neg hno] at hexec
    simp only [Bool.not_true, Bool.not_false, Bool.false_eq_true, if_true, if_false] at hexec
  · rw [hexec, show (s.begun h).freeSlot = some k from hk]
    rfl
  · rw [hexec, show (s.begun h).freeSlot = none from hk]
  · rw [hexec, if_pos hv]
    rfl
  all_goals
    have hbit : ¬ (v.testBit 63 = true) := by rw [Nat.testBit_lt_two_pow (Nat.lt_trans hv (by decide))]; exact Bool.false_ne_true
    rw [if_neg hbit, if_neg (Nat.not_le.mpr hv)] at hexec
  · have hok : ¬ (((s.begun h).slot (56 + v)).st ≠ .active ∨ ((s.begun h).slot (56 + v)).label ≠ (s.sp h.sp.val).cmd.label) :=
      fun hor => hor.elim (· hst) (· hlabel)
    rw [hexec, if_neg hok]
    exact congrArg _ (if_neg (Nat.not_le.mpr hroom))
  · rw [hexec]
    exact congrArg _ (if_pos hbad)

/-- The registers of block GLB and CAS stand at other offsets than a page's DBL_STAT. -/
theorem addr_GLB_ID_ne_DBL_STAT (n : Nat) : Reg.GLB_ID.addr 0 ≠ Reg.DBL_STAT.addr n := by
  simp only [Reg.addr, Reg.place]
  omega

theorem addr_CAS_STAT_ne_DBL_STAT (n : Nat) : Reg.CAS_STAT.addr 0 ≠ Reg.DBL_STAT.addr n := by
  simp only [Reg.addr, Reg.place]
  omega

@[simp] theorem setSpSt_me (s : State) (n v : Nat) : (s.setSpSt n v).me = s.me :=
  State.rd_wr_ne s F.DBL_STAT_STATE F.GLB_ID_INSTANCE n 0 v (addr_GLB_ID_ne_DBL_STAT n)

@[simp] theorem setSpSt_mgr (s : State) (n v : Nat) : (s.setSpSt n v).mgr = s.mgr :=
  State.rd_wr_ne s F.DBL_STAT_STATE F.CAS_STAT_MGR n 0 v (addr_CAS_STAT_ne_DBL_STAT n)

section Tcommit
variable {s : State} {h : Hdr} {gd : BitVec 4} (hi : s.issues h .txn { Use.none with names := [gd.toNat], all := true })
include hi

/-- s with the spout of a TCOMMIT waiting for its commit point. -/
def inCommit (s : State) (h : Hdr) (gd : BitVec 4) : State :=
  (s.begun h).updSp h.sp.val fun y => { y with waiting := .commit, waitPc := after h (s.sp h.sp.val).pc + gd.toNat * 2 ^ 48 }

/-- inCommit with the spout ready in its package slot. -/
def readyIn (s : State) (h : Hdr) (gd : BitVec 4) (k : Nat) : State :=
  ((inCommit s h gd).updSlot k fun y => { y with ready := y.ready ++ [h.sp.val] }).setSpSt h.sp.val 3

/-- R258: the transaction of the spout decides. -/
theorem execTcommit_of_issues : execTcommit h gd s = .next (match (s.sp h.sp.val).tx with
    | none => (s.begun h).fault h.sp.val 0x61 0 0
    | some k => if k < 56 then (inCommit s h gd).commitPoint k
      else (if (s.slot k).owner = s.me * 256 + h.sp.val then (readyIn s h gd k).send 0x14 false true s.mgr [k - 56] else readyIn s h gd k).tryVote
        (k - 56)) := by
  have hme : ∀ k, (readyIn s h gd k).me = s.me := fun k => setSpSt_me _ _ _
  have hmgr : ∀ k, (readyIn s h gd k).mgr = s.mgr := fun k => setSpSt_mgr _ _ _
  have howner : ∀ k, ((readyIn s h gd k).slot k).owner = (s.slot k).owner := fun k => by
    rw [readyIn, State.setSpSt_slot, State.slot_updSlot_same]
    rfl
  rw [execTcommit, issue1_of_issues hi, begun_sp_of_issues hi]
  dsimp only
  cases (s.sp h.sp.val).tx with
  | none => rfl
  | some k =>
    simp only [← hme k, ← hmgr k, ← howner k]
    rfl

end Tcommit

/-- Settles O19: TCOMMIT and TABORT by the spout's transaction. -/
theorem transactionsEnd : Obligations.TransactionsEnd := by
  intro s h gd code n x t w
  refine ⟨fun hi => ⟨fun k hk hlocal => ?_, fun k hk hpkg howner => ?_, fun k hk hpkg howner => ?_, fun hk => ?_⟩,
    fun hi => ⟨fun k hk => ?_, fun hk => ?_⟩⟩
  · refine (execTcommit_of_issues hi).trans ?_
    rw [show (s.sp h.sp.val).tx = some k from hk]
    exact congrArg _ (if_pos hlocal)
  · refine (execTcommit_of_issues hi).trans ?_
    rw [show (s.sp h.sp.val).tx = some k from hk]
    refine congrArg _ ((if_neg (Nat.not_lt.mpr hpkg)).trans ?_)
    rw [if_neg howner]
    rfl
  · refine (execTcommit_of_issues hi).trans ?_
    rw [show (s.sp h.sp.val).tx = some k from hk]
    refine congrArg _ ((if_neg (Nat.not_lt.mpr hpkg)).trans ?_)
    rw [if_pos howner]
    rfl
  · refine (execTcommit_of_issues hi).trans ?_
    rw [show (s.sp h.sp.val).tx = none from hk]
  · change execTabort h code s = _
    rw [execTabort, issue1_of_issues hi, begun_sp_of_issues hi, show (s.sp h.sp.val).tx = some k from hk]
  · change execTabort h code s = _
    rw [execTabort, issue1_of_issues hi, begun_sp_of_issues hi, show (s.sp h.sp.val).tx = none from hk]

/-! ## Messages of the two-phase commit -/

section Taken
variable {s t : State} {c : CasHdr} {typ : Nat} (ht : s.casTake c typ false = (t, true)) (f : State → State)
include ht

/-- A message that the instance acts on has its effect. -/
theorem onCas_of_taken : s.onCas c typ f = f t := by
  rw [State.onCas, ht]

/-- One for the manager has its effect there. -/
theorem onMgr_of_taken (hrole : t.role = 2) : s.onMgr c typ f = f t := by
  rw [State.onMgr, onCas_of_taken ht, if_pos hrole]

end Taken

theorem send_txu (s : State) (typ : Nat) (bc pri : Bool) (dst : Nat) (p : List Nat) : (s.send typ bc pri dst p).txu = s.txu := by
  rw [State.send]; split <;> rfl

theorem send_mem (s : State) (typ : Nat) (bc pri : Bool) (dst : Nat) (p : List Nat) : (s.send typ bc pri dst p).mem = s.mem := by
  rw [State.send]; split <;> rfl

theorem send_slot (s : State) (typ : Nat) (bc pri : Bool) (dst : Nat) (p : List Nat) (m : Nat) : (s.send typ bc pri dst p).slot m = s.slot m := by
  rw [State.slot, send_txu]; rfl

theorem send_pkt (s : State) (typ : Nat) (bc pri : Bool) (dst : Nat) (p : List Nat) (m : Nat) : (s.send typ bc pri dst p).pkt m = s.pkt m := by
  rw [State.pkt, send_txu]; rfl

theorem pkt_withDecisions (s : State) (d : List Nat) (m : Nat) :
    ({ s with txu := { s.txu with decisions := d } } : State).pkt m = s.pkt m := by
  rfl

/-- Settles O22: the messages of R271 step 1, taken. -/
theorem packageTransactionsOpen : Obligations.PackageTransactionsOpen := by
  intro s c t
  refine ⟨fun sp label ht hrole => ⟨fun x hloop hrec hx => ?_, fun hnone => ?_, ?_⟩, fun x owner sp label stamp ht hsrc => ?_,
    fun x handler gd ht => ?_, fun sp code handler gd ht hwait => ?_⟩
  · change execXtOpen c sp label true s = _
    simp only [execXtOpen, onMgr_of_taken ht _ hrole, hloop, hrec, hx, Bool.not_true, Bool.or_self, Bool.false_eq_true, if_false]
  · change execXtOpen c sp label true s = _
    simp only [execXtOpen, onMgr_of_taken ht _ hrole, hnone, Bool.not_true, Bool.false_eq_true, if_false, ite_self]
  · change execXtOpen c sp label false s = _
    simp only [execXtOpen, onMgr_of_taken ht _ hrole, Bool.not_false, if_true]
  · refine ⟨t.updSlot (56 + x.val) fun _ =>
      { TxSlot.init with st := .active, stamp := stamp.toNat, label := label.toNat, owner := owner.val * 256 + sp.val }, ?_,
      State.slot_updSlot_same _ _ _, fun m hm => State.slot_updSlot_ne _ _ hm, rfl, rfl⟩
    change execXtGrant c x owner sp label stamp s = _
    rw [execXtGrant, onCas_of_taken ht]
    exact congrArg _ (if_neg hsrc)
  · intro n howner hst hwait
    change execXtReady c x s = _
    rw [execXtReady, onCas_of_taken ht]
    simp only [show (t.sp ((t.slot (56 + x.val)).owner % 256)).waiting = _ from hwait, howner, hst, ne_eq, not_true_eq_false, if_false]
    rfl
  · change execXtDeny c sp code s = _
    rw [execXtDeny, onCas_of_taken ht]
    simp only [hwait]

/-- A set with a member of its own is not empty. -/
theorem or_two_pow_ne_zero (m k : Nat) : m ||| 2 ^ k ≠ 0 := by
  intro h0
  have hbit : (m ||| 2 ^ k).testBit k = true := by rw [Nat.testBit_or, Nat.testBit_two_pow_self, Bool.or_true]
  rw [h0, Nat.zero_testBit] at hbit
  exact Bool.false_ne_true hbit

/-- Settles O23: the messages of R271 steps 2 and 4 to 6 at the manager. -/
theorem packageTransactionsDecide : Obligations.PackageTransactionsDecide := by
  intro s c t x hrole r voted got
  refine ⟨fun ht hph => ?_, fun empty word ht hph => ?_, fun empty word ht hph hmore => ?_, fun word ht hph hlast => ?_, fun word ht hph => ?_,
    fun ht hph hall => ?_, fun hmgr hph => ?_⟩
  · change execXtCommitreq c x s = _
    rw [execXtCommitreq, onMgr_of_taken ht _ hrole]
    exact congrArg _ (if_pos hph)
  · change execXtVote c x false empty word s = _
    rw [execXtVote, onMgr_of_taken ht _ hrole]
    exact congrArg _ (if_neg (not_not_intro hph))
  · change execXtVote c x true empty word s = _
    rw [execXtVote, onMgr_of_taken ht _ hrole]
    refine congrArg _ ((if_neg (not_not_intro hph)).trans ?_)
    exact if_neg hmore
  · have hyes : (t.pkt x.val).yes ||| 2 ^ c.src.val ≠ 0 := or_two_pow_ne_zero _ _
    refine ⟨_, congrArg Host.Outcome.next (onMgr_of_taken ht _ hrole), ?_⟩
    simp only [if_neg (not_not_intro (show (t.pkt x.val).phase = 2 from hph)), Bool.not_true, Bool.false_eq_true, if_false,
      show (t.pkt x.val).voted ||| 2 ^ c.src.val = 0xFFFF from hlast, if_true, if_neg hyes]
    refine ⟨?_, ?_⟩
    · rw [send_pkt, pkt_withDecisions, State.pkt_updPkt_same]
    · rw [send_txu]
      rfl
  · change execXtAbortreq c x word s = _
    rw [execXtAbortreq, onMgr_of_taken ht _ hrole]
    exact congrArg _ (if_pos hph)
  · refine ⟨t.closePkt x.val, ?_, (pkt_withDecisions _ _ _).trans (State.pkt_updPkt_same _ _ _), rfl⟩
    change execXtDone c x s = _
    rw [execXtDone, onMgr_of_taken ht _ hrole]
    simp only [show (t.pkt x.val).phase = 3 from hph, show (t.pkt x.val).yes &&& ((t.pkt x.val).done ||| 2 ^ c.src.val) = (t.pkt x.val).yes from hall]
    rfl
  · change execVoteTimeout x s = _
    rw [execVoteTimeout, if_pos ⟨hmgr, hph⟩]

/-- A fold whose steps leave the state leaves it. -/
theorem foldS_eq_self {σ κ : Type} {l : List κ} {s : σ} {f : σ → κ → σ} (h : ∀ k ∈ l, f s k = s) : foldS l s f = s := by
  induction l with
  | nil => rfl
  | cons k l ih =>
    rw [foldS, List.foldl_cons, h k List.mem_cons_self]
    exact ih fun j hj => h j (List.mem_cons_of_mem k hj)

/-- R271 step 3: a slot that is made PREPARED and votes YES keeps its log, and nothing but the slot and the messages changes. -/
theorem prepared_vote_effect (s : State) (x : Nat) :
    let u := (s.updSlot (56 + x) fun z => { z with st := .prepared }).vote x true false 0
    (u.slot (56 + x)).st = .prepared ∧ (u.slot (56 + x)).log = (s.slot (56 + x)).log ∧ (∀ m, m ≠ 56 + x → u.slot m = s.slot m) ∧ u.mem = s.mem := by
  simp only [State.vote, State.castVote, send_slot, send_mem, State.slot_updSlot_same, State.updSlot_mem, true_and, and_true]
  intro m hm
  rw [State.slot_updSlot_ne _ _ hm, State.slot_updSlot_ne _ _ hm]

/-- Settles O24: the messages of R271 and R274, R275 at an instance, taken. -/
theorem packageTransactionsAtAnInstance : Obligations.PackageTransactionsAtAnInstance := by
  intro s c t x k got
  refine ⟨fun ht => ?_, fun hasked hst hlog hready hvalid => ?_, fun word ht hst => ?_, fun ht hst => ?_, fun hst => ?_, fun hst hin => ?_,
    fun st ht hbc => ?_, fun st ht hbc hrole hdec => ?_, fun ht hrole hfree => ?_⟩
  · exact congrArg Host.Outcome.next (onCas_of_taken ht _)
  · have hall : ((s.slot k).members.all fun m => (s.slot k).ready.contains m.1) = true := List.all_eq_true.mpr hready
    have hne : (s.slot k).log.isEmpty = false := by rw [List.isEmpty_eq_false_iff]; exact hlog
    have hgo : ((s.slot k).asked && (s.slot k).st == .active && !(s.slot k).log.isEmpty && ((s.slot k).members.all fun m => (s.slot k).ready.contains m.1)
        && s.flag F.TXU_RECBASE_VALID 0) = true := by
      rw [hasked, hst, hne, hall, hvalid]
      rfl
    refine ⟨_, if_pos hgo, ?_⟩
    exact prepared_vote_effect _ _
  · refine congrArg Host.Outcome.next ((onCas_of_taken ht _).trans ?_)
    exact if_pos (.inl hst)
  · intro u
    have hexec : exec (.xtCommit c x) s = .next (if (u.slot k).st = .closed then
        (({ u with txu := { u.txu with records := Store.erase u.txu.records x.val } } : State).send 0x1A false true u.mgr [x.val]) else u) :=
      congrArg Host.Outcome.next ((onCas_of_taken ht _).trans (if_pos hst))
    exact ⟨fun hopen => hexec.trans (congrArg _ (if_neg hopen)), fun hclosed => hexec.trans (congrArg _ (if_pos hclosed))⟩
  · exact if_pos hst
  · exact if_pos ⟨hst, by rw [hin]; rfl⟩
  · refine congrArg Host.Outcome.next ((onCas_of_taken ht _).trans ?_)
    exact if_pos hbc
  · refine congrArg Host.Outcome.next ((onCas_of_taken ht _).trans ?_)
    simp only [Bool.false_eq_true, if_false, hbc, hrole, ne_eq, not_true_eq_false, List.contains_iff_mem.mpr hdec, if_true]
  · refine congrArg Host.Outcome.next ((onMgr_of_taken ht _ hrole).trans ?_)
    refine congrArg (fun r : State => r.resendCfg c.src.val) (foldS_eq_self fun y hy => if_neg ?_)
    rw [hfree y (List.mem_range.mp hy)]
    decide

end Sys2Proof.Proofs

/-! Planned instructions that run to their end (07_jet_engines.md R186, R190, R197). -/
namespace Sys2Proof.Proofs
open Sys2Proof Sys2Proof.Machine

/-- A spout that has jet classes is a jet's: it is no channel's. -/
theorem jet_of_allowed {c : Cls} {n : Nat} (hc : c = .vec ∨ c = .cvt ∨ c = .mat ∨ c = .hsh) (ha : c.allowed (spKind n) = true) : 32 ≤ n := by
  have hkind : spKind n = 1 := by
    obtain rfl | rfl | rfl | rfl := hc
    all_goals exact beq_iff_eq.mp ha
  refine Nat.le_of_not_lt fun hn => ?_
  rw [spKind, if_pos hn] at hkind
  exact absurd hkind (by decide)

section Plan
variable {s t : State} {h : Hdr} {i : Instr} {c : Cls} {u : Use} {plan : Spout → Nat → Plan}

/-- A planned instruction that issues, with its units free and its data in hand. -/
theorem planExec_of_issues (hc : c = .vec ∨ c = .cvt ∨ c = .mat ∨ c = .hsh) (hi : s.issues h c u)
    (hck : (s.begun h).arChecks h.sp.val (plan (s.sp h.sp.val) h.sp.val).ck = none) {s1 : State}
    (hunits : (s.begun h).acquire h.sp.val (plan (s.sp h.sp.val) h.sp.val).units = some s1)
    (hwork : (s1.updSp h.sp.val fun y => { y with prog := some (s1.begin h i) }).workDone h.sp.val (plan (s.sp h.sp.val) h.sp.val).toWork
      (s1.begin h i) t)
    (hbulk : ((s1.sp h.sp.val).outs.any Out.isBulk) = false) :
    s.planExec h i c u plan = t := by
  obtain ⟨-, hprog, -⟩ := hi.1
  obtain ⟨-, -, -, hallowed, -⟩ := id hi
  simp only [State.planExec, State.dataExec, hprog, issue1_of_issues hi, begun_sp_of_issues hi, State.arStart, hck, State.startWork, hunits]
  exact State.contWork_done _ _ _ (s1.begin h i) t (jet_of_allowed hc hallowed) rfl rfl (by rw [State.sp_updSp_same]) rfl
    (by rw [State.sp_updSp_same]; exact hbulk) hwork

/-- One in progress: its data is in hand, or only its last write was still to be accepted. -/
theorem planExec_of_inHand (hn : 32 ≤ h.sp.val) {p : InProg} (hp : s.inHand h.sp.val i p)
    (hend : (p.closed = none ∧ ((s.sp h.sp.val).outs.any Out.isBulk) = false ∧
        s.workDone h.sp.val (plan (s.sp h.sp.val) h.sp.val).toWork p t) ∨
      (p.closed = some none ∧ s.landed h.sp.val ∧ t = s.ended h.sp.val p)) :
    s.planExec h i c u plan = t := by
  obtain ⟨hst, hprog, hinsn, hhalf, hfull⟩ := hp
  simp only [State.planExec, State.dataExec, hprog, hinsn, hst, decide_true, beq_self_eq_true, Bool.and_self, if_true]
  obtain ⟨hopen, hbulk, hwork⟩ | ⟨hclosed, hland, rfl⟩ := hend
  · exact State.contWork_done s _ _ p t hn hhalf hfull hprog hopen hbulk hwork
  · rw [State.contWork]
    simp only [hprog, hclosed, Option.isSome_some, if_true]
    exact State.endData_over s _ p hprog hclosed hhalf hfull hland

/-- A planned instruction that runs to its end leaves what its plan says. -/
theorem planExec_of_runsPlan (hc : c = .vec ∨ c = .cvt ∨ c = .mat ∨ c = .hsh) (hr : s.runsPlan h i c u plan t) :
    s.planExec h i c u plan = t := by
  obtain ⟨hi, hck, s1, hunits, hwork, hbulk⟩ | ⟨hn, p, hp, hend⟩ := hr
  · exact planExec_of_issues hc hi hck hunits hwork hbulk
  · exact planExec_of_inHand hn hp hend

end Plan

section Ends
variable {s t : State} {h : Hdr} {i : Instr} {u : Use} {plan : Spout → Nat → Plan}

theorem ends_vec (hexec : exec i s = .next (s.planExec h i .vec u plan)) (hr : s.runsPlan h i .vec u plan t) : exec i s = .next t :=
  hexec.trans (congrArg _ (planExec_of_runsPlan (.inl rfl) hr))

theorem ends_cvt (hexec : exec i s = .next (s.planExec h i .cvt u plan)) (hr : s.runsPlan h i .cvt u plan t) : exec i s = .next t :=
  hexec.trans (congrArg _ (planExec_of_runsPlan (.inr (.inl rfl)) hr))

theorem ends_mat (hexec : exec i s = .next (s.planExec h i .mat u plan)) (hr : s.runsPlan h i .mat u plan t) : exec i s = .next t :=
  hexec.trans (congrArg _ (planExec_of_runsPlan (.inr (.inr (.inl rfl))) hr))

theorem ends_hsh (hexec : exec i s = .next (s.planExec h i .hsh u plan)) (hr : s.runsPlan h i .hsh u plan t) : exec i s = .next t :=
  hexec.trans (congrArg _ (planExec_of_runsPlan (.inr (.inr (.inr rfl))) hr))

end Ends

/-- Settles O13: each instruction is `State.planExec` with its plan. -/
theorem elementwiseCompletes : Obligations.ElementwiseCompletes := by
  intro s h f t ends three two
  exact ⟨ends_vec rfl, ends_vec rfl, ends_vec rfl, ends_vec rfl, ends_vec rfl, ends_vec rfl, ends_vec rfl, ends_vec rfl, ends_vec rfl, ends_vec rfl,
    ends_vec rfl, ends_vec rfl, ends_vec rfl, ends_vec rfl, ends_cvt rfl, ends_cvt rfl⟩

/-- Settles O14: each instruction is `State.planExec` with its plan. -/
theorem reductionsAndProductsComplete : Obligations.ReductionsAndProductsComplete := by
  intro s h f t ends gs two three
  exact ⟨ends_vec rfl, ends_vec rfl, ends_vec rfl, ends_vec rfl, ends_vec rfl, ends_vec rfl, ends_vec rfl, ends_vec rfl, ends_mat rfl, ends_mat rfl,
    ends_mat rfl⟩

/-- Settles O15: each instruction is `State.planExec` with its plan. -/
theorem hashOperationsComplete : Obligations.HashOperationsComplete := by
  intro s h f t ends three
  exact ⟨ends_hsh rfl, ends_hsh rfl, ends_hsh rfl, ends_hsh rfl, ends_hsh rfl, ends_hsh rfl, ends_hsh rfl, ends_hsh rfl, ends_hsh rfl⟩

end Sys2Proof.Proofs

/-! Data movement that runs to its end (08_sluice_channels.md R220, R231, R563). -/
namespace Sys2Proof.Proofs
open Sys2Proof Sys2Proof.Machine

/-! ## The end of an instruction in progress -/

/-- Showing the progress of an instruction without MOV_HALF changes no spout. -/
theorem noteProgress_sp (s : State) {n : Nat} {q : InProg} (hprog : (s.sp n).prog = some q) (hhalf : q.half = false) (m : Nat) :
    (s.noteProgress n).sp m = s.sp m := by
  simp only [State.noteProgress, hprog]
  split
  · rfl
  · rw [State.noteHalf_calm _ n q (by simpa only [State.wr_sp] using hprog) hhalf]
    simp only [State.wr_sp]

/-- s with q the data instruction of spout n. -/
def withProg (s : State) (n : Nat) (q : InProg) : State := s.updSp n fun y => { y with prog := some q }

theorem withProg_prog (s : State) (n : Nat) (q : InProg) : ((withProg s n q).sp n).prog = some q := by
  rw [withProg, State.sp_updSp_same]

/-- An instruction without events of its own that meets no fault and whose writes have landed ends. -/
theorem stopData_of_landed (s : State) {n : Nat} {p : InProg} (hhalf : p.half = false) (hfull : p.full = false)
    (hland : (withProg s n { p with closed := some none }).landed n) :
    s.stopData n p none = ((withProg s n { p with closed := some none }).noteProgress n).ended n { p with closed := some none } := by
  have hsame := noteProgress_sp _ (withProg_prog s n { p with closed := some none }) hhalf n
  have hland' : ((withProg s n { p with closed := some none }).noteProgress n).landed n := by
    rw [State.landed, hsame]
    exact hland
  exact State.endData_over _ n _ ((congrArg Spout.prog hsame).trans (withProg_prog s n _)) rfl hhalf hfull hland'

/-- Elements that are all in hand, meet no fault and have landed end their instruction. -/
theorem movRun_of_movEnds {s t : State} {n : Nat} {m : Mov} {p : InProg} (hhalf : p.half = false) (hfull : p.full = false)
    (hend : s.movEnds n m p t) : s.movRun n m p = t := by
  obtain ⟨hstop, hall, hland, ht⟩ := hend
  have hover : ((s.movElems n m p).stop.isSome || (s.movElems n m p).found || decide (m.count ≤ (s.movElems n m p).elems)) = true := by
    rw [hstop, Option.isSome_none, Bool.false_or, Bool.or_eq_true, decide_eq_true_eq]
    exact hall
  have hrun : s.movRun n m p = ((s.movElems n m p).close.s.notePoison n ((s.movElems n m p).marked.length - p.marked.length)).stopData n
      (p.last m (s.movElems n m p).close) (s.movElems n m p).stop := if_pos hover
  have hlast := stopData_of_landed ((s.movElems n m p).close.s.notePoison n ((s.movElems n m p).marked.length - p.marked.length)) (n := n)
    (p := p.last m (s.movElems n m p).close) hhalf hfull hland
  rw [hrun, hstop, hlast, ht]
  rfl

section InHand
variable {s t : State} {n : Nat} {m : Mov} {p : InProg} (hhalf : p.half = false) (hfull : p.full = false)
include hhalf hfull

/-- A spout that is not paced, or whose burst reaches the end, runs its elements to the last. -/
theorem movGo_of_movEnds (hpace : s.paced n = false ∨ p.elems < p.limit ∧ p.limit = m.count) (hend : s.movEnds n m { p with limit := m.count } t)
    (sample : Bool) : s.movGo n m p sample = t := by
  have hrun := movRun_of_movEnds (p := { p with limit := m.count }) hhalf hfull hend
  rw [State.movGo]
  split
  · exact hrun
  next hpaced =>
    obtain hfree | ⟨hburst, hlimit⟩ := hpace
    · exact absurd (by rw [hfree]; rfl) hpaced
    · rw [if_pos hburst]
      have hself : p = { p with limit := m.count } := by rw [← hlimit]
      rw [hself]
      exact hrun

/-- An instruction in progress, staged where it stages, goes on to its end. -/
theorem contMov_of_movEnds (hprog : (s.sp n).prog = some p) (hopen : p.closed = none) {h : Hdr} (hmov : s.movOf p.insn = some (h, m))
    (hstage : m.stage = [] ∨ p.stagedAll = true) (hpace : s.paced n = false ∨ p.elems < p.limit ∧ p.limit = m.count)
    (hend : s.movEnds n m { p with limit := m.count } t) (sample : Bool) : s.contMov n sample = t := by
  have hstaged : (m.stage.isEmpty || p.stagedAll) = true := by
    obtain hnil | hdone := hstage
    · rw [hnil]; rfl
    · rw [hdone, Bool.or_true]
  simp only [State.contMov, hprog, hopen, Option.isSome_none, Bool.false_eq_true, if_false, hmov, hstaged, if_true]
  exact movGo_of_movEnds hhalf hfull hpace hend sample

end InHand

/-! ## The issue of an instruction -/

/-- Taking units changes no register. -/
theorem acquire_regs {s s1 : State} {n : Nat} {l : List Nat} (hacq : s.acquire n l = some s1) : s1.regs = s.regs := by
  unfold State.acquire at hacq
  split at hacq
  · rw [← Option.some.inj hacq]
  · dsimp only at hacq
    split at hacq
    · rw [← Option.some.inj hacq]
    · split at hacq
      · rw [← Option.some.inj hacq]; rfl
      · exact absurd hacq.symm (Option.some_ne_none _)

theorem addr_SLC_CFG_apart (n : Nat) :
    Reg.SLC_CFG.addr n ≠ Reg.SLC_IPC.addr n ∧ Reg.SLC_CFG.addr n ≠ Reg.SLC_ELEMS.addr n ∧ Reg.SLC_CFG.addr n ≠ Reg.SLC_BYTES.addr n := by
  simp [Reg.addr, Reg.place]

/-- The progress registers of a channel say nothing of its pacing. -/
theorem movClear_paced (s : State) (n : Nat) : (s.movClear n).paced n = s.paced n := by
  unfold State.movClear
  split
  · obtain ⟨hipc, helems, hbytes⟩ := addr_SLC_CFG_apart n
    rw [State.paced, State.flag, State.rd_wr_ne _ F.SLC_BYTES_BYTES F.SLC_CFG_PACED _ _ _ hbytes,
      State.rd_wr_ne _ F.SLC_ELEMS_ELEMS F.SLC_CFG_PACED _ _ _ helems, State.rd_wr_ne _ F.SLC_IPC_PC F.SLC_CFG_PACED _ _ _ hipc]
    rfl
  · rfl

theorem paced_of_regs {s t : State} (hregs : t.regs = s.regs) (n : Nat) : t.paced n = s.paced n := by
  rw [State.paced, State.flag, State.rd, State.reg, hregs]
  rfl

section Issue
variable {s t s1 : State} {h : Hdr} {i : Instr} {u : Use} {m m2 : Mov} (hi : s.issues h .mov u)
  (hcfg : h.sp.val < 32 → s.flag F.SLC_CFG_PACED h.sp.val = false ∧ s.flag F.SLC_CFG_HALFIE h.sp.val = false ∧ s.flag F.SLC_CFG_FULLIE h.sp.val = false)
include hcfg

theorem paced_of_cfg : s.paced h.sp.val = false := by
  rw [State.paced, Bool.and_eq_false_iff, decide_eq_false_iff_not]
  by_cases hn : h.sp.val < 32
  · exact .inr (hcfg hn).1
  · exact .inl hn

theorem movBegin_half : ((s.begun h).movBegin h i m).half = false := by
  change (decide (h.sp.val < 32) && s.flag F.SLC_CFG_HALFIE h.sp.val) = false
  rw [Bool.and_eq_false_iff, decide_eq_false_iff_not]
  by_cases hn : h.sp.val < 32
  · exact .inr (hcfg hn).2.1
  · exact .inl hn

theorem movBegin_full : ((s.begun h).movBegin h i m).full = false := by
  change (decide (h.sp.val < 32) && s.flag F.SLC_CFG_FULLIE h.sp.val) = false
  rw [Bool.and_eq_false_iff, decide_eq_false_iff_not]
  by_cases hn : h.sp.val < 32
  · exact .inr (hcfg hn).2.2
  · exact .inl hn

include hi

/-- R563, R233: an instruction that issues, stages nothing and has its unit and its elements in hand runs to its end. -/
theorem movExec_of_issues (hmov : (s.begun h).movOf i = some (h, m)) (hfault : m.fault = none) (hstage : m.stage = [])
    (htx : (s.sp h.sp.val).tx = none ∨ ∀ o ∈ m.mems, (o.isMem && s.isRemote o.base) = false)
    (hacq : (s.begun h).acquire h.sp.val [uMOV] = some s1)
    (hmov2 : ((s1.movClear h.sp.val).inProgress h.sp.val ((s.begun h).movBegin h i m)).movOf i = some (h, m2)) (hstage2 : m2.stage = [])
    (hend : ((s1.movClear h.sp.val).inProgress h.sp.val ((s.begun h).movBegin h i m)).movEnds h.sp.val m2
      { (s.begun h).movBegin h i m with limit := m2.count } t) :
    s.movExec h i u = t := by
  obtain ⟨-, hprog, -⟩ := hi.1
  have hno : ((s.sp h.sp.val).tx.isSome && m.mems.any fun o => o.isMem && (s.begun h).isRemote o.base) = false := by
    obtain hnone | hlocal := htx
    · rw [hnone]; rfl
    · rw [Bool.and_eq_false_iff, List.any_eq_false]
      exact .inr fun o ho => by rw [show (o.isMem && (s.begun h).isRemote o.base) = false from hlocal o ho]; decide
  have hpaced : ((s1.movClear h.sp.val).inProgress h.sp.val ((s.begun h).movBegin h i m)).paced h.sp.val = false :=
    (movClear_paced s1 h.sp.val).trans ((paced_of_regs (acquire_regs hacq) _).trans (paced_of_cfg hcfg))
  simp only [State.movExec, State.dataExec, hprog, issue1_of_issues hi, State.movIssue, hmov, hfault, begun_sp_of_issues hi, hno, Bool.false_eq_true,
    if_false, hacq, hstage, List.isEmpty_nil, Bool.true_or, if_true]
  exact contMov_of_movEnds (movBegin_half hcfg) (movBegin_full hcfg) (by rw [State.inProgress, State.sp_updSp_same]) rfl hmov2 (.inl hstage2)
    (.inl hpaced) hend true

end Issue

/-- A data movement that runs to its end leaves what `State.runsMov` says. -/
theorem movExec_of_runsMov {s t : State} {h : Hdr} {i : Instr} {u : Use} (hr : s.runsMov h i u t) : s.movExec h i u = t := by
  obtain ⟨hi, hcfg, m, s1, hmov, hfault, hstage, htx, hacq, m2, hmov2, hstage2, hend⟩ | ⟨p, ⟨hst, hprog, hinsn, hhalf, hfull⟩, hgo⟩ := hr
  · exact movExec_of_issues hi hcfg hmov hfault hstage htx hacq hmov2 hstage2 hend
  · simp only [State.movExec, State.dataExec, hprog, hinsn, hst, decide_true, beq_self_eq_true, Bool.and_self, if_true]
    obtain ⟨hopen, m, hmov, hstage, hpace, hend⟩ | ⟨hclosed, hland, rfl⟩ := hgo
    · exact contMov_of_movEnds hhalf hfull hprog hopen (by rw [hinsn]; exact hmov) hstage hpace hend false
    · simp only [State.contMov, hprog, hclosed, Option.isSome_some, if_true]
      exact State.endData_over s _ p hprog hclosed hhalf hfull hland

/-- Settles O16: each instruction is `State.movExec` with what it names. -/
theorem dataMovementCompletes : Obligations.DataMovementCompletes := by
  intro s h f i u t hform hr
  have hexec : exec i s = .next (s.movExec h i u) := by
    obtain ⟨rfl, rfl⟩ | ⟨rfl, rfl⟩ | ⟨rfl, rfl⟩ | ⟨rfl, rfl⟩ | ⟨rfl, rfl⟩ | ⟨rfl, rfl⟩ := hform
    all_goals rfl
  rw [hexec, movExec_of_runsMov hr]

end Sys2Proof.Proofs

/-! The state after reset, and the words of the spec's examples. -/
namespace Sys2Proof.Proofs
open Sys2Proof Sys2Proof.Machine

/-- Settles O58: at reset no register, byte or spout is listed, so that each has its reset value, and every list of the state is empty. -/
theorem resetStateHolds : Obligations.ResetStateHolds :=
  ⟨fun _ _ => rfl, fun _ => rfl, rfl, rfl, fun _ => rfl, by decide, by decide, by decide, by decide⟩

/-- Settles O59: each word is decoded field by field, whatever the spout. -/
theorem workedWordsDecode : Obligations.WorkedWordsDecode := by
  intro sp h d
  exact ⟨rfl, rfl, rfl, rfl, rfl, rfl, rfl, rfl, rfl, rfl, rfl, rfl, rfl, rfl⟩

end Sys2Proof.Proofs

/-! Hints at local memory (11_intake_and_basin.md R325 to R334). -/
namespace Sys2Proof.Proofs
open Sys2Proof Sys2Proof.Machine

section Hint
variable {s : State} {h : Hdr} {c : Cls} {u : Use} (hi : s.issues h c u)
include hi

/-- The start of an instruction changes nothing that a hint's checks look at. -/
theorem begun_hintFault (l n : Nat) (dead : Bool) : (s.begun h).hintFault h.sp.val l n dead = s.hintFault h.sp.val l n dead := by
  rw [State.hintFault, State.hintFault, begun_sp_of_issues hi]
  rfl

/-- A hint at local memory that no fault stops is carried out. -/
theorem begun_hint_of_resolves {aa gl l : Nat} {dead : Bool} (haddr : s.addrFault h.sp.val ((s.sp h.sp.val).av aa) 1 = none)
    (hlocal : s.decodeAddr ((s.sp h.sp.val).av aa) = .localMem l) (hfault : s.hintFault h.sp.val l ((s.sp h.sp.val).gv gl) dead = 0)
    (body : State → Nat → Nat → State) :
    (s.begun h).hint h.sp.val aa gl dead body = body (s.begun h) l ((s.sp h.sp.val).gv gl) := by
  have haddr' : (s.begun h).addrFault h.sp.val ((s.sp h.sp.val).av aa) 1 = none := haddr
  have hlocal' : (s.begun h).decodeAddr ((s.sp h.sp.val).av aa) = .localMem l := hlocal
  simp only [State.hint, begun_sp_of_issues hi, haddr', hlocal', begun_hintFault hi, hfault]

end Hint

/-- Settles O25: each hint's body on its range, and the end of a PIN's wait. -/
theorem hintsAct : Obligations.HintsAct := by
  constructor
  · intro s h aa gl l n x t len lo hi k span haddr hlocal
    refine ⟨fun hiss htx hfault => ⟨fun hempty => ?_, fun u hblocks hgo => ?_, fun u hblocks hhold => ?_⟩, fun hiss hfault => ⟨fun st hst => ?_, ?_, ?_⟩, ?_⟩
    · change execDead h aa gl s = _
      rw [execDead, issue1_of_issues hiss]
      dsimp only
      rw [begun_sp_of_issues hiss, htx, begun_hint_of_resolves hiss haddr hlocal hfault]
      exact congrArg _ (if_pos hempty)
    · change execDead h aa gl s = _
      rw [execDead, issue1_of_issues hiss]
      dsimp only
      rw [begun_sp_of_issues hiss, htx, begun_hint_of_resolves hiss haddr hlocal hfault]
      refine congrArg _ ((if_neg (Nat.not_le.mpr hblocks)).trans ?_)
      rw [hgo]
    · change execDead h aa gl s = _
      rw [execDead, issue1_of_issues hiss]
      dsimp only
      rw [begun_sp_of_issues hiss, htx, begun_hint_of_resolves hiss haddr hlocal hfault]
      refine congrArg _ ((if_neg (Nat.not_le.mpr hblocks)).trans ?_)
      rw [hhold]
    · change execPin h aa gl s = _
      rw [execPin, issue1_of_issues hiss]
      dsimp only
      rw [begun_hint_of_resolves hiss haddr hlocal hfault, begun_sp_of_issues hiss, show (s.begun h).pinStatus _ l _ = st + 1 from hst]
      exact rfl
    · intro hst p missing
      change execPin h aa gl s = _
      rw [execPin, issue1_of_issues hiss]
      dsimp only
      rw [begun_hint_of_resolves hiss haddr hlocal hfault, begun_sp_of_issues hiss, show (s.begun h).pinStatus _ l _ = 0 from hst]
      rfl
    · intro dst
      change execPrefetch h aa gl dst s = _
      rw [execPrefetch, issue1_of_issues hiss]
      dsimp only
      rw [begun_hint_of_resolves hiss haddr hlocal hfault, begun_sp_of_issues hiss]
    · intro hiss hfault free
      change execUnpin h aa gl s = _
      rw [execUnpin, issue1_of_issues hiss]
      dsimp only
      exact congrArg _ (begun_hint_of_resolves hiss haddr hlocal hfault _)
  · intro s page gl count c0 k n hst hwait hback
    change execPinFillDone page s = _
    simp only [execPinFillDone, show s.spSt page.val = 3 from hst, if_true, show (s.sp page.val).waiting = _ from hwait,
      show (s.sp page.val).outs.any Out.pinning = false from hback, Bool.false_eq_true, if_false]
    rfl

/-! ## Service calls (19_cascade_and_services.md R516 to R518) -/

/-- A function that the font does not offer faults whatever else holds. -/
theorem svcFault_of_unknown (s : State) {func : Nat} (hf : svcFuncs.contains func = false) (label : Nat) (post : Bool) :
    s.svcFault func label post = 0x78 := by
  rw [State.svcFault, hf]
  rfl

/-- Settles O26: a call past its fault checks joins the queue; an answer goes to the call at its head. -/
theorem serviceCallsAreAnswered : Obligations.ServiceCallsAreAnswered := by
  intro s h func ga gd n x t f
  refine ⟨fun hi htx => ⟨fun hok => ?_, fun hunknown => ?_⟩, fun hi htx hok => ?_, fun c l st v w hcalls hans => ?_⟩
  · change execSvcCall h func ga gd s = _
    rw [execSvcCall, issue1_of_issues hi]
    dsimp only
    rw [begun_sp_of_issues hi, htx, show (s.begun h).svcFault func.toNat (s.sp h.sp.val).cmd.label false = 0 from hok]
    exact rfl
  · change execSvcCall h func ga gd s = _
    rw [execSvcCall, issue1_of_issues hi]
    dsimp only
    rw [begun_sp_of_issues hi, htx, svcFault_of_unknown _ hunknown]
    exact rfl
  · change execSvcPost h func ga s = _
    rw [execSvcPost, issue1_of_issues hi]
    dsimp only
    rw [begun_sp_of_issues hi, htx, show (s.begun h).svcFault func.toNat (s.sp h.sp.val).cmd.label true = 0 from hok]
    exact rfl
  · intro u
    have hexec : exec .svcAnswer s = .next (if c.call && (s.sp c.sp).waiting == .service then
        ((u.updSp c.sp fun y => { (y.setG c.gd (st * 2 ^ 56 + v % 2 ^ 32)).setG ((c.gd + 1) % 16) w with waiting := .none }).wakeSp c.sp).goto c.sp
          (s.sp c.sp).waitPc else u) := by
      change execSvcAnswer s = _
      rw [execSvcAnswer, hcalls, hans]
      exact (apply_ite Host.Outcome.next _ _ _).symm
    refine ⟨fun hpost => ?_, fun hcall hwait => ?_⟩
    · rw [hexec, hpost]
      exact rfl
    · rw [hexec, hcall, hwait]
      exact rfl

/-! ## RDREG and WRREG (06_zynsa_encoding.md R184) -/

section FontReg
variable {s : State} {a : Nat}

theorem fontOff_of_misaligned (ha : a % 8 ≠ 0) : s.fontOff a = .error 0x06 :=
  if_pos ha

theorem fontOff_of_regWin (ha : a % 8 = 0) {off : Nat} (hdec : s.decodeAddr a = .regWin off) : s.fontOff a = .ok off := by
  rw [State.fontOff, if_neg (not_not_intro ha), hdec]

end FontReg

/-- Settles O27: the address names an offset of the window, whose access answers or faults. -/
theorem fontReadsAndWritesRegisters : Obligations.FontReadsAndWritesRegisters := by
  intro s h g aa off n x a t hi
  have hread : exec (.rdreg h g aa) s = execRdreg h g aa s := rfl
  have hwrite : exec (.wrreg h g aa) s = execWrreg h g aa s := rfl
  rw [execRdreg, issue1_of_issues hi] at hread
  rw [execWrreg, issue1_of_issues hi] at hwrite
  dsimp only at hread hwrite
  rw [begun_sp_of_issues hi] at hread hwrite
  refine ⟨fun ha => ?_, fun ha hdec => ⟨fun v u hv => ?_, fun hnone => ?_, fun htx => ?_⟩⟩
  · rw [hread, show (s.begun h).fontOff _ = _ from fontOff_of_misaligned ha]
  · rw [hread, show (s.begun h).fontOff _ = _ from fontOff_of_regWin ha hdec]
    exact congrArg Host.Outcome.next (by dsimp only; rw [show (s.begun h).winRead off 8 = _ from hv])
  · rw [hread, show (s.begun h).fontOff _ = _ from fontOff_of_regWin ha hdec]
    exact congrArg Host.Outcome.next (by dsimp only; rw [show (s.begun h).winRead off 8 = _ from hnone])
  · intro u
    rw [show (s.begun h).fontOff ((s.sp h.sp.val).av aa.toNat) = .ok off from fontOff_of_regWin ha hdec,
      show (s.sp h.sp.val).tx = none from htx] at hwrite
    refine ⟨fun hok => ?_, fun hbad => ?_⟩
    · refine hwrite.trans (congrArg Host.Outcome.next ?_)
      exact if_neg fun hbad => Bool.false_ne_true (hok.symm.trans hbad)
    · refine hwrite.trans (congrArg Host.Outcome.next ?_)
      exact if_pos hbad

/-! ## The control port (00_scope.md R11; 04_zynsa_model.md R110) -/

/-- A host's write of a whole register that answers is stored by the register's rule. -/
theorem regWrite_of_answers {s : State} {off v i : Nat} {r : Reg} (halign : off % 8 = 0) (hreg : regAt off = some (r, i)) (hptr : r ≠ .DBL_PTR)
    (hans : s.answers off = true) (hup : s.pageDown off = false) : s.regWrite off 8 v true = (s.hostReg r i v).ok := by
  have hsize : sizeOk off 8 (r.halves i) = true := by rw [sizeOk, halign]; rfl
  rw [State.regWrite, halign, Nat.sub_zero, hreg]
  split
  next hno => exact absurd hno Bool.false_ne_true
  next =>
    split
    next heq => exact absurd (Prod.mk.inj (Option.some.inj heq)).1 hptr
    next heq =>
      obtain ⟨rfl, rfl⟩ := Prod.mk.inj (Option.some.inj heq)
      rw [hans, hup, hsize]
      rfl
    next heq _ => exact absurd heq (Option.some_ne_none _)
    next heq _ => exact absurd heq (Option.some_ne_none _)

/-- Settles O28: the read by what the window answers, the write by the register's rule, and a task by the page that it owns. -/
theorem controlPortAnswers : Obligations.ControlPortAnswers := by
  intro s off bytes v
  refine ⟨fun x t hread => ?_, fun hnone => ?_, rfl, fun htask => ⟨?_, ?_⟩, fun r i halign hbytes hreg hptr hans hup => ?_⟩
  · rw [exec_registerRead, execRegisterRead, hread]
    rfl
  · rw [exec_registerRead, execRegisterRead_of_winRead_eq_none true hnone]
  · rw [exec_registerRead, execRegisterRead, htask]
    rfl
  · rw [exec_registerWrite, State.regWrite, htask]
    rfl
  · rw [exec_registerWrite, hbytes, regWrite_of_answers halign hreg hptr hans hup]

end Sys2Proof.Proofs

/-! Doorbell pages (04_zynsa_model.md R101, R110, R113, R126). -/
namespace Sys2Proof.Proofs
open Sys2Proof Sys2Proof.Machine

/-- A host write of a register that answers has its effect. -/
theorem hostWrite_of_answers {s : State} {r : Reg} {i : Nat} (f : State → State) (hans : s.answers (r.addr i) = true) : s.hostWrite r i f = (f s).ok :=
  if_pos hans

/-- An instance that is not IDLE stays as it is. -/
theorem leaveIdle_of_awake {s : State} (cause : Nat) (hawake : s.rd F.GLB_PSTATE_CUR 0 ≠ 1) : s.leaveIdle cause = s := if_neg hawake

section Ring
variable {s : State} {n w : Nat}

/-- A ring size of 4 to 16 is stored. -/
theorem wDblRing_of_size (hlo : 4 ≤ F.DBL_RING_LOG2N.of (s.proposed .DBL_RING n w (!s.pageStopped n)))
    (hhi : F.DBL_RING_LOG2N.of (s.proposed .DBL_RING n w (!s.pageStopped n)) ≤ 16) :
    s.wDblRing n w = s.storeReg .DBL_RING n w (!s.pageStopped n) := by
  have hcode : firstCode [(F.DBL_RING_LOG2N.of (s.proposed .DBL_RING n w (!s.pageStopped n)) == 0, 1),
      (decide (F.DBL_RING_LOG2N.of (s.proposed .DBL_RING n w (!s.pageStopped n)) < 4 ∨
        16 < F.DBL_RING_LOG2N.of (s.proposed .DBL_RING n w (!s.pageStopped n))), 2)] = 0 := by
    rw [beq_eq_false_iff_ne.mpr (by omega), decide_eq_false (by omega)]
    rfl
  rw [State.wDblRing, hcode]
  rfl

/-- A ring size of 0 is refused. -/
theorem wDblRing_of_zero (hzero : F.DBL_RING_LOG2N.of (s.proposed .DBL_RING n w (!s.pageStopped n)) = 0) :
    s.wDblRing n w = s.spEvent n 0x83 1 0 := by
  rw [State.wDblRing, hzero]
  rfl

/-- A ring size out of range is refused. -/
theorem wDblRing_of_out (hpos : 1 ≤ F.DBL_RING_LOG2N.of (s.proposed .DBL_RING n w (!s.pageStopped n)))
    (hout : F.DBL_RING_LOG2N.of (s.proposed .DBL_RING n w (!s.pageStopped n)) ≤ 3 ∨ 16 < F.DBL_RING_LOG2N.of (s.proposed .DBL_RING n w (!s.pageStopped n))) :
    s.wDblRing n w = s.spEvent n 0x83 2 0 := by
  have hcode : firstCode [(F.DBL_RING_LOG2N.of (s.proposed .DBL_RING n w (!s.pageStopped n)) == 0, 1),
      (decide (F.DBL_RING_LOG2N.of (s.proposed .DBL_RING n w (!s.pageStopped n)) < 4 ∨
        16 < F.DBL_RING_LOG2N.of (s.proposed .DBL_RING n w (!s.pageStopped n))), 2)] = 2 := by
    rw [beq_eq_false_iff_ne.mpr (by omega), decide_eq_true (by omega)]
    rfl
  rw [State.wDblRing, hcode]
  rfl

end Ring

section Page
variable {s : State} {page : Sp} {v : Word} (hreset : s.unitResetting page.val = false)
include hreset

/-- A host's TAIL is stored while the domain is ON. -/
theorem execTailWrite_of_on (hawake : s.rd F.GLB_PSTATE_CUR 0 ≠ 1) (hon : s.domSt (domOfSpout page.val) = 2) {bytes : Nat}
    (hbytes : (bytes != 4 && bytes != 8) = false) : execTailWrite page v bytes true s = .next (s.storeTail page.val v.toNat).ok := by
  simp [execTailWrite, hreset, hon, leaveIdle_of_awake 2 hawake, hbytes]

/-- A host's TAIL is held while the domain is neither ON nor DARK. -/
theorem execTailWrite_of_gated (hawake : s.rd F.GLB_PSTATE_CUR 0 ≠ 1) (hoff : s.domSt (domOfSpout page.val) ≠ 2)
    (hdark : s.domSt (domOfSpout page.val) ≠ 4) :
    execTailWrite page v 8 true s = .next (s.updSp page.val fun x => { x with tailHeld := some (v.toNat % 2 ^ 32) }).ok := by
  simp [execTailWrite, hreset, hoff, hdark, leaveIdle_of_awake 2 hawake]

/-- DBL_RING is written by its rule. -/
theorem exec_dblRingWrite_of_answers (hans : s.answers (Reg.DBL_RING.addr page.val) = true) :
    exec (.dblRingWrite page v) s = .next (s.wDblRing page.val v.toNat).ok := by
  change execDblRingWrite page v s = _
  rw [execDblRingWrite, hreset, hostWrite_of_answers _ hans]
  rfl

end Page

/-- Settles O31: the page's unit is not being reset and its block answers, so each write takes its register's rule. -/
theorem doorbellsAreWritten : Obligations.DoorbellsAreWritten := by
  intro s page v hreset hawake n d
  refine ⟨fun hon => ⟨execTailWrite_of_on hreset hawake hon rfl, execTailWrite_of_on hreset hawake hon rfl⟩,
    fun hoff hdark => execTailWrite_of_gated hreset hawake hoff hdark, fun howner => ?_,
    ?_, fun hans => ⟨?_, ?_, ?_⟩⟩
  · change execTailWrite page v 8 false s = _
    have howner' : s.flag F.DBL_CTL_OWNER page.val = false := howner
    simp [execTailWrite, howner']
  · intro hans size
    rw [exec_dblRingWrite_of_answers hreset hans]
    exact ⟨fun hlo hhi => by rw [wDblRing_of_size hlo hhi], fun hzero => by rw [wDblRing_of_zero hzero],
      fun hpos hout => by rw [wDblRing_of_out hpos hout]⟩
  · change execSpoutEnable page v s = _
    rw [execSpoutEnable, hreset, hostWrite_of_answers _ hans]
    rfl
  · change execSpoutStop page s = _
    rw [execSpoutStop, hreset, hostWrite_of_answers _ hans]
    rfl
  · change execSpoutResume page s = _
    rw [execSpoutResume, hreset, hostWrite_of_answers _ hans]
    rfl

/-! ## Commands (04_zynsa_model.md R114) -/

/-- A spout in FETCH that may fetch stays there. -/
theorem kickSp_of_fetching {s : State} {n : Nat} (hst : s.spSt n = 1) (hmay : s.mayFetch n = true) : s.kickSp n = s := by
  have hrun : s.nothingToRun n = false := by
    simp only [State.mayFetch, State.hasCommand, Bool.and_eq_true, bne_iff_ne, ne_eq] at hmay
    simp [State.nothingToRun, hmay]
  simp [State.kickSp, hst, hrun]

/-- A spout that is not enabled stays IDLE. -/
theorem kickSp_of_disabled {s : State} {n : Nat} (hst : s.spSt n = 0) (hoff : s.flag F.DBL_CTL_EN n = false) : s.kickSp n = s := by
  simp [State.kickSp, hst, State.mayFetch, State.hasCommand, hoff]

/-- A HEAD written reads as its value's 32 bits. -/
theorem head_wr_head (s : State) (n v : Nat) : (s.wr F.DBL_PTR_HEAD n v).head n = v % 2 ^ 32 :=
  State.rd_wr_same _ F.DBL_PTR_HEAD _ _ (by decide)

/-- The next state of a spout is not in its DBL_PTR. -/
@[simp] theorem setSpSt_head (s : State) (n v : Nat) : (s.setSpSt n v).head n = s.head n :=
  State.rd_wr_ne _ F.DBL_STAT_STATE F.DBL_PTR_HEAD _ _ _ (addr_DBL_PTR_ne_DBL_STAT n)

/-- The next state of a spout is not in its DBL_PTR. -/
@[simp] theorem setSpSt_tail (s : State) (n v : Nat) : (s.setSpSt n v).tail n = s.tail n :=
  State.rd_wr_ne _ F.DBL_STAT_STATE F.DBL_PTR_TAIL _ _ _ (addr_DBL_PTR_ne_DBL_STAT n)

/-- EN is not in DBL_STAT. -/
theorem addr_DBL_CTL_ne_DBL_STAT (n : Nat) : Reg.DBL_CTL.addr n ≠ Reg.DBL_STAT.addr n := by
  simp [Reg.addr, Reg.place]

/-- EN is not in DBL_PTR. -/
theorem addr_DBL_CTL_ne_DBL_PTR (n : Nat) : Reg.DBL_CTL.addr n ≠ Reg.DBL_PTR.addr n := by
  simp [Reg.addr, Reg.place]

section Complete
variable (s : State) (n code : Nat)

/-- s with HEAD moved on and the command's event sent, the first part of its end. -/
def finished : State :=
  let s2 := s.wr F.DBL_PTR_HEAD n ((s.head n + 1) % 2 ^ 32)
  if code ≠ 0 then (s2.wr F.DBL_STAT_FAULT n code).spEvent n 0x81 ((s.sp n).cmd.cmdId * 2 ^ 16 + code) (s2.rd F.DBL_FPC_PC n)
  else if (s.sp n).cmd.evt then s2.spEvent n 0x80 (s.sp n).cmd.cmdId (s2.head n) else s2

/-- A spout whose command is given up. -/
def clearCmd (y : Spout) : Spout := { y with finish := none, cmd := CmdInfo.none, lines := [], outs := y.outs.filter fun o => o.need != .record }

@[simp] theorem finished_mem : (finished s n code).mem = s.mem := by
  unfold finished
  dsimp only
  (repeat' split) <;> simp [State.spEvent]

@[simp] theorem finished_sp : (finished s n code).sp n = s.sp n := by
  unfold finished
  dsimp only
  (repeat' split) <;> simp [State.spEvent]

/-- `finished` leaves a field outside DBL_PTR and DBL_STAT. -/
theorem finished_rd (f : Field) (hptr : f.reg.addr n ≠ Reg.DBL_PTR.addr n) (hstat : f.reg.addr n ≠ Reg.DBL_STAT.addr n) :
    (finished s n code).rd f n = s.rd f n := by
  have hhead : ∀ v, (s.wr F.DBL_PTR_HEAD n v).rd f n = s.rd f n := fun v => State.rd_wr_ne _ F.DBL_PTR_HEAD f _ _ v hptr
  have hfault : ∀ (t : State) v, (t.wr F.DBL_STAT_FAULT n v).rd f n = t.rd f n := fun t v => State.rd_wr_ne _ F.DBL_STAT_FAULT f _ _ v hstat
  unfold finished
  dsimp only
  (repeat' split) <;> simp [State.spEvent, hhead, hfault]

/-- FAULT is not in DBL_PTR. -/
theorem rd_ptr_wr_fault (t : State) (f : Field) (v : Nat) (hf : f.reg = .DBL_PTR) : (t.wr F.DBL_STAT_FAULT n v).rd f n = t.rd f n :=
  State.rd_wr_ne _ F.DBL_STAT_FAULT f _ _ v (by rw [hf]; exact addr_DBL_PTR_ne_DBL_STAT n)

theorem finished_head : (finished s n code).head n = (s.head n + 1) % 2 ^ 32 := by
  have hfault : ∀ (t : State) v, (t.wr F.DBL_STAT_FAULT n v).rd F.DBL_PTR_HEAD n = t.rd F.DBL_PTR_HEAD n := fun t v => rd_ptr_wr_fault n t _ v rfl
  have hhead : ∀ v, (s.wr F.DBL_PTR_HEAD n v).rd F.DBL_PTR_HEAD n = v % 2 ^ 32 := fun v => head_wr_head s n v
  unfold finished
  dsimp only
  (repeat' split) <;> simp [State.spEvent, State.head, hfault, hhead]

theorem finished_tail : (finished s n code).tail n = s.tail n := by
  have hfault : ∀ (t : State) v, (t.wr F.DBL_STAT_FAULT n v).rd F.DBL_PTR_TAIL n = t.rd F.DBL_PTR_TAIL n := fun t v => rd_ptr_wr_fault n t _ v rfl
  have hhead : ∀ v, (s.wr F.DBL_PTR_HEAD n v).rd F.DBL_PTR_TAIL n = s.rd F.DBL_PTR_TAIL n := fun v =>
    State.rd_wr_apart _ F.DBL_PTR_HEAD F.DBL_PTR_TAIL _ _ (by decide) rfl (by decide)
  unfold finished
  dsimp only
  (repeat' split) <;> simp [State.spEvent, State.tail, hfault, hhead]

variable {s n code}

/-- A command outside a transaction that is finished on a page other than a channel's: HEAD, the event, the command given up, the spout's next state. -/
theorem completeCmd_eq (htx : (s.sp n).tx = none) (hn : 32 ≤ n) :
    s.completeCmd n code =
      if code = 0 then (((finished s n code).updSp n clearCmd).setSpSt n 0).kickSp n
      else if code = 0xF0 then (((finished s n code).updSp n clearCmd).wr F.DBL_PTR_HEAD n (((finished s n code).updSp n clearCmd).tail n)).setSpSt n 6
      else ((finished s n code).updSp n clearCmd).setSpSt n 5 := by
  have hleave : (finished s n code).leaveTx n = finished s n code := by rw [State.leaveTx, finished_sp, htx]
  have hsolo : ∀ t : State, t.endSolo n = t := fun t => if_neg (by simp [Nat.not_lt.mpr hn])
  change (if code = 0 then ((((finished s n code).leaveTx n).updSp n clearCmd).endSolo n |>.setSpSt n 0).kickSp n
      else if code = 0xF0 then
        (((((finished s n code).leaveTx n).updSp n clearCmd).endSolo n).wr F.DBL_PTR_HEAD n
          (((((finished s n code).leaveTx n).updSp n clearCmd).endSolo n).tail n)).setSpSt n 6
      else ((((finished s n code).leaveTx n).updSp n clearCmd).endSolo n).setSpSt n 5) = _
  rw [hleave, hsolo]

/-- The state after the end of a command on a page that is not enabled. -/
theorem completeCmd_shape (htx : (s.sp n).tx = none) (hn : 32 ≤ n) (hoff : s.flag F.DBL_CTL_EN n = false) :
    ((s.completeCmd n code).sp n).finish = none ∧ (code ≠ 0xF0 → (s.completeCmd n code).head n = (s.head n + 1) % 2 ^ 32) ∧
      (code = 0xF0 → (s.completeCmd n code).head n = s.tail n) ∧
      (s.completeCmd n code).spSt n = (if code = 0 then 0 else if code = 0xF0 then 6 else 5) ∧ (s.completeCmd n code).mem = s.mem := by
  rw [completeCmd_eq htx hn]
  split
  next hzero =>
    have hdis : (((finished s n code).updSp n clearCmd).setSpSt n 0).flag F.DBL_CTL_EN n = false := by
      refine Eq.trans ?_ hoff
      exact congrArg (fun v => v == 1) ((State.rd_wr_ne _ F.DBL_STAT_STATE F.DBL_CTL_EN _ _ _ (addr_DBL_CTL_ne_DBL_STAT n)).trans
        (finished_rd s n code F.DBL_CTL_EN (addr_DBL_CTL_ne_DBL_PTR n) (addr_DBL_CTL_ne_DBL_STAT n)))
    rw [kickSp_of_disabled (spSt_setSpSt _ _ _) hdis]
    refine ⟨?_, fun _ => ?_, fun h => ?_, spSt_setSpSt _ _ _, ?_⟩
    · simp [clearCmd]
    · exact (setSpSt_head _ _ _).trans (finished_head s n code)
    · omega
    · simp
  next hcode =>
    split
    next hreset =>
      refine ⟨?_, fun h => absurd hreset h, fun _ => ?_, spSt_setSpSt _ _ _, ?_⟩
      · simp [clearCmd]
      · refine (setSpSt_head _ _ _).trans ((head_wr_head _ _ _).trans ?_)
        have htail : ((finished s n code).updSp n clearCmd).tail n = s.tail n := finished_tail s n code
        rw [htail]
        exact Nat.mod_eq_of_lt (bits_lt _ F.DBL_PTR_TAIL.hi F.DBL_PTR_TAIL.lo)
      · simp
    next hother =>
      refine ⟨?_, fun _ => ?_, fun h => absurd h hother, spSt_setSpSt _ _ _, ?_⟩
      · simp [clearCmd]
      · exact (setSpSt_head _ _ _).trans (finished_head s n code)
      · simp

end Complete

/-- Settles O33: the fetch of the entry at HEAD, what its return starts, and the end of the command. -/
theorem commandsRunThroughTheRing : Obligations.CommandsRunThroughTheRing := by
  intro s page n
  refine ⟨?_, ?_, ?_⟩
  · intro hst hfin hon hmay hdrain hnew owner a s1
    have hfetch : exec (.commandFetch page) s = execCommandFetch page s := rfl
    rw [execCommandFetch] at hfetch
    dsimp only at hfetch
    rw [kickSp_of_fetching hst hmay, if_neg (by simp [n, hst, hfin, hon, hmay, hnew]; exact hdrain)] at hfetch
    exact ⟨fun hlocal => hfetch.trans (if_pos hlocal), fun haway => hfetch.trans (if_neg fun h => Bool.false_ne_true (haway.symm.trans h))⟩
  · intro o code d hfind hresp hst s1 stops
    have hret : exec (.commandEntryReturn page) s = execCommandEntryReturn page s := rfl
    rw [execCommandEntryReturn] at hret
    dsimp only at hret
    rw [hfind] at hret
    dsimp only at hret
    rw [hresp] at hret
    have hret := hret.trans (if_neg (not_not_intro hst))
    refine ⟨fun hok => ?_, fun hbad hgo => ?_, fun hgo => hret.trans (if_pos hgo)⟩
    · subst hok
      exact hret.trans ((if_neg (by simp)).trans (if_neg (by simp)))
    · exact hret.trans ((if_neg hgo).trans (if_pos hbad))
  · intro code hfin hopen hfailed hfull hstop
    have hdone : exec (.commandComplete page) s = execCommandComplete page s := rfl
    rw [execCommandComplete] at hdone
    dsimp only at hdone
    rw [hfin] at hdone
    dsimp only at hdone
    have hmay : ((s.sp page.val).writesOpen || (code == 0 && (s.sp page.val).writeFailed) || (s.evFull && (code != 0 || (s.sp page.val).cmd.evt)) ||
        (decide (page.val < 32) && (s.rd F.SLC_GSTOP_STOPMASK 0).testBit page.val)) = false := by
      have hfail : (code == 0 && (s.sp page.val).writeFailed) = false := by
        rw [Bool.and_eq_false_iff, beq_eq_false_iff_ne]
        exact (Classical.em (code = 0)).symm.imp id hfailed
      have hheld : (decide (page.val < 32) && (s.rd F.SLC_GSTOP_STOPMASK 0).testBit page.val) = false := by
        rw [Bool.and_eq_false_iff, decide_eq_false_iff_not]
        exact (Classical.em (page.val < 32)).symm.imp id hstop
      rw [show (s.sp page.val).writesOpen = false from hopen, hfail, hfull, hheld]
      rfl
    rw [hmay, if_neg Bool.false_ne_true] at hdone
    refine ⟨fun hno => ?_, fun o hout => ?_, ?_, fun htx hn hoff => completeCmd_shape htx hn hoff⟩
    · refine hdone.trans (if_neg ?_)
      rw [show s.wantsRecord page.val = false from hno]
      simp
    · refine hdone.trans (if_neg ?_)
      rw [show (s.sp page.val).recordOut = some o from hout]
      simp
    · intro o hwant hnew u hout
      refine hdone.trans ((if_pos ?_).trans ?_)
      · rw [show s.wantsRecord page.val = true from hwant, show (s.sp page.val).recordOut = none from hnew]
        rfl
      · rw [show ((s.ask page.val Need.record (s.sp page.val).cmd.craddr 16 .wr (s.recordBytes page.val code)).sp page.val).recordOut = some o from hout]
        exact congrArg Host.Outcome.next (ite_congr (propext (by simp)) (fun _ => rfl) fun _ => rfl)

end Sys2Proof.Proofs

/-! Responses and grants (04_zynsa_model.md R122, R123; 07_jet_engines.md R186; 08_sluice_channels.md R234). -/
namespace Sys2Proof.Proofs
open Sys2Proof Sys2Proof.Machine

/-- A read of a spout that is not a stopped channel, in a command that is not ending, goes by its code. -/
theorem stopped_eq_false {s : State} {n : Nat} (hstop : n < 32 → (s.rd F.SLC_GSTOP_STOPMASK 0).testBit n = false) :
    (decide (n < 32) && (s.rd F.SLC_GSTOP_STOPMASK 0).testBit n) = false := by
  rw [Bool.and_eq_false_iff, decide_eq_false_iff_not]
  exact (Classical.em (n < 32)).symm.imp id hstop

section Response
variable {s : State} {page : Sp} {o : Out} {code : Nat} {d : Bytes} (hresp : o.resp = some (code, d)) (hcmd : s.inCommand page.val = true)
  (hfin : (s.sp page.val).finish = none) (hstop : page.val < 32 → (s.rd F.SLC_GSTOP_STOPMASK 0).testBit page.val = false)
include hresp hcmd hfin hstop

/-- A program line that has returned goes by its code. -/
theorem execProgramLineReturn_of_returned {addr : PkgAddr}
    (hfind : ((s.sp page.val).outs.find? fun o => o.need == .line (addr.toNat / 256 * 256)) = some o) :
    execProgramLineReturn page addr s =
      if code = 0 then .next (((s.updSp page.val fun y => y.drop o).updSp page.val fun y => y.hold (addr.toNat / 256 * 256) d).goOn page.val)
      else if (code = 1 || code = 2) && s.notAlone page.val then .next (s.busRead page.val o)
      else .next ((s.updSp page.val fun y => y.drop o).fault page.val 0x0B (addr.toNat / 256 * 256) 0) := by
  have hnone : (!s.inCommand page.val || (s.sp page.val).finish.isSome) = false := by rw [hcmd, hfin]; rfl
  rw [execProgramLineReturn]
  dsimp only
  rw [hfind]
  dsimp only
  rw [hresp]
  dsimp only
  rw [stopped_eq_false hstop, if_neg Bool.false_ne_true, hnone, if_neg Bool.false_ne_true]

end Response

/-- A read of data that has returned well is delivered, a poll compared. -/
theorem execMemoryResponse_of_returned {s : State} {page : Sp} {o : Out} {d : Bytes} {idx : Nat}
    (hfind : ((s.sp page.val).outs.find? fun o => decide (o.idx = idx) && o.isData && o.need != .record) = some o) (hresp : o.resp = some (0, d))
    (hcmd : s.inCommand page.val = true) (hfin : (s.sp page.val).finish = none)
    (hstop : page.val < 32 → (s.rd F.SLC_GSTOP_STOPMASK 0).testBit page.val = false) :
    execMemoryResponse page idx s = if o.need = .poll then .next ((s.updSp page.val fun y => y.drop o).polled page.val d)
      else .next ((s.updSp page.val fun y => (y.drop o).deliver o 0 d).goOn page.val) := by
  have hheld : (decide (page.val < 32) && (s.rd F.SLC_GSTOP_STOPMASK 0).testBit page.val && !o.write) = false := by rw [stopped_eq_false hstop]; rfl
  have hnone : (!s.inCommand page.val || !([none, some 0].contains (s.sp page.val).finish)) = false := by rw [hcmd, hfin]; rfl
  rw [execMemoryResponse]
  simp only [hfind, hresp]
  rw [hheld, if_neg Bool.false_ne_true, hnone, if_neg Bool.false_ne_true]
  simp

/-- Settles O34: what has returned goes by its code and what asked for it, and a grant takes what is free. -/
theorem responsesAndGrantsLetSpoutsGoOn : Obligations.ResponsesAndGrantsLetSpoutsGoOn := by
  intro s page n
  refine ⟨?_, ?_, ?_, ?_, fun hfree => ?_⟩
  · intro addr o code d hfind hresp hcmd hfin hstop u stops
    have hret := execProgramLineReturn_of_returned hresp hcmd hfin hstop hfind
    refine ⟨fun hok => hret.trans (if_pos hok), fun hbad hgo => ?_, fun hgo => ?_⟩
    · refine hret.trans ((if_neg hbad).trans (if_neg fun h => hgo ?_))
      simpa using h
    · have hbad : code ≠ 0 := by rcases hgo.1 with h | h <;> rw [h] <;> decide
      exact hret.trans ((if_neg hbad).trans (if_pos (by simpa using hgo)))
  · intro idx o d hfind hresp hcmd hfin hstop
    have hret := execMemoryResponse_of_returned hfind hresp hcmd hfin hstop
    exact ⟨fun hneed => hret.trans (if_neg hneed), fun hneed => hret.trans (if_pos hneed)⟩
  · intro e unit w rest j us hwait hall hfree s1 hissue
    change execResourceGrant e unit s = _
    rw [execResourceGrant]
    dsimp only
    rw [show Store.get [] (s.jet e.val).waiting unit.val = w :: rest from hwait]
    exact if_pos (by rw [show List.all _ _ = true from hall, show JetState.freeFor _ _ _ = true from hfree]; exact hissue)
  · intro m rest k hwait hfree
    change execStagingSlotGrant s = _
    rw [execStagingSlotGrant, hwait, hfree]
  · change execStagingSlotGrant s = _
    rw [execStagingSlotGrant, hfree]
    cases s.sluice.waiters <;> rfl

/-! ## Engine resets and the bus-error stop (08_sluice_channels.md R244 to R248; 07_jet_engines.md R216) -/

/-- What every step of a fold keeps, the fold keeps. -/
theorem foldS_keeps {σ κ β : Type} {g : σ → β} {f : σ → κ → σ} (hf : ∀ t k, g (f t k) = g t) (l : List κ) (s : σ) : g (foldS l s f) = g s := by
  induction l generalizing s with
  | nil => rfl
  | cons k l ih => exact (ih (f s k)).trans (hf s k)

/-! ### What the end of a spout's command leaves of the channels -/

@[simp] theorem releaseUnits_chans (s : State) (n : Nat) : (s.releaseUnits n).chans = s.chans := by
  unfold State.releaseUnits
  dsimp only
  (repeat' split) <;> simp

@[simp] theorem resetRegs_chans (s : State) (l : List Reg) (i : Nat) : (s.resetRegs l i).chans = s.chans :=
  foldS_keeps (fun _ _ => State.setReg_chans ..) l s

@[simp] theorem send_chans (s : State) (typ : Nat) (bc pri : Bool) (dst : Nat) (payload : List Nat) : (s.send typ bc pri dst payload).chans = s.chans := by
  unfold State.send
  split <;> rfl

@[simp] theorem memberAborts_chans (s : State) (m : Nat × Nat × Nat × Nat) (w : Nat) : (s.memberAborts m w).chans = s.chans := by
  unfold State.memberAborts
  dsimp only
  (repeat' split) <;> simp

@[simp] theorem txClose_chans (s : State) (t w : Nat) (l : List Nat) (tell : Bool) : (s.txClose t w l tell).chans = s.chans := by
  have hmembers : ∀ (ms : List (Nat × Nat × Nat × Nat)) (u : State), (foldS ms u fun u m =>
      if m.1 ∈ l then u.updSp m.1 fun y => { y with tx := none, txAbort := none, signals := [] } else u.memberAborts m w).chans = u.chans :=
    foldS_keeps fun u m => by (repeat' split) <;> simp
  unfold State.txClose
  dsimp only
  (repeat' split) <;> simp [State.castVote, hmembers, State.reportAbort]

@[simp] theorem txStop_chans (s : State) (n c d : Nat) : (s.txStop n c d).chans = s.chans := by
  unfold State.txStop
  split
  · rfl
  · split <;> simp

@[simp] theorem leaveTx_chans (s : State) (n : Nat) : (s.leaveTx n).chans = s.chans := by
  unfold State.leaveTx
  split <;> simp

@[simp] theorem recordFault_chans (s : State) (n c p a g : Nat) (b : Bool) : (s.recordFault n c p a g b).chans = s.chans := by
  simp [State.recordFault]

@[simp] theorem engineStop_chans (s : State) (n : Nat) : (s.engineStop n).chans = s.chans := by
  simp [State.engineStop, State.dropCalls, State.spEvent]

@[simp] theorem clearSpout_chans (s : State) (n : Nat) : (s.clearSpout n).chans = s.chans := by
  unfold State.clearSpout
  dsimp only
  split <;> simp

@[simp] theorem clearStop_chans (s : State) : s.clearStop.chans = s.chans := by
  unfold State.clearStop
  split <;> simp

/-- A channel out of the stop keeps what it saw of REQ. -/
theorem leaveStop_seenReq (s : State) (n : Nat) : ((s.leaveStop n).chan n).seenReq = (s.chan n).seenReq := by
  unfold State.leaveStop
  split
  · rw [show ∀ t : State, (State.clearStop t).chan n = t.chan n from fun t => congrArg (Store.get _ · n) (clearStop_chans t)]
    simp
  · rfl

/-- A channel after its engine reset is as at reset, but for what it saw of REQ. -/
theorem slcCleared_chan (s : State) (n : Nat) : (s.slcCleared n).chan n = { ChanState.init with seenReq := (s.chan n).seenReq } := by
  have hseen : ((((s.clearSpout n).leaveStop n).resetRegs [.SLC_CTL, .SLC_STAT, .SLC_ELEMS, .SLC_BYTES, .SLC_IPC] n).chan n).seenReq = (s.chan n).seenReq := by
    have hreset : ∀ t l, (State.resetRegs t l n).chan n = t.chan n := fun t l => congrArg (Store.get _ · n) (resetRegs_chans t l n)
    have hclear : (s.clearSpout n).chan n = s.chan n := congrArg (Store.get _ · n) (clearSpout_chans s n)
    rw [hreset, leaveStop_seenReq, hclear]
  rw [State.slcCleared]
  dsimp only
  rw [State.chan_updChan_same, hseen]

/-- A register of a jet that its engine reset names is at its reset value after it. -/
theorem jetCleared_nflag (s : State) (e : Nat) : (s.jetCleared e).reg .JET_NFLAG e = Reg.resetVal .JET_NFLAG e := by
  rw [State.jetCleared, State.updJet_reg]
  change ((State.setReg _ .JET_NFLAG e _).setReg .JET_STAT e _ |>.setReg .JET_MACCNT e _).reg .JET_NFLAG e = _
  rw [State.reg_setReg_ne _ _ _ _ _ _ (by simp [Reg.addr, Reg.place]), State.reg_setReg_ne _ _ _ _ _ _ (by simp [Reg.addr, Reg.place]),
    State.reg_setReg_same _ _ _ _ (Reg.resetVal_lt _ _)]

/-- A bus error while not exactly one channel is active begins the stop. -/
theorem busError_of_not_one {s : State} {a code : Nat} (hdrain : s.sluice.draining = false) (hone : s.slcActive.length ≠ 1) :
    s.busError a code = s.busStop a code := by
  rw [State.busError, hdrain, if_neg Bool.false_ne_true]
  split
  next hact => exact absurd (congrArg List.length hact) hone
  next => rfl

/-- A bus error outside the drain records its address and its code and begins it. -/
theorem busStop_of_not_draining {s : State} {a code : Nat} (hdrain : s.sluice.draining = false) :
    s.busStop a code = { ((s.wr F.SLC_GERR_ADDR 0 a).wr F.SLC_GERR_CODE 0 code) with sluice := { s.sluice with draining := true } } := by
  rw [State.busStop, hdrain, if_neg Bool.false_ne_true]
  dsimp only
  rw [State.wr_sluice, State.wr_sluice]

/-- A bus error in the drain is one more failing response of the stop. -/
theorem busError_of_draining {s : State} {a code : Nat} (hdrain : s.sluice.draining = true) : s.busError a code = s.bump F.SLC_GSTOP_LATE 0 1 := by
  rw [State.busError, hdrain]
  exact if_pos hdrain

theorem clearStop_draining (s : State) : s.clearStop.sluice = s.sluice := by
  unfold State.clearStop
  split <;> simp

@[simp] theorem clearStop_mem (s : State) : s.clearStop.mem = s.mem := by
  unfold State.clearStop
  split <;> simp

/-- STOPPED is apart from STOPMASK. -/
theorem stopmask_wrB_stopped (s : State) (b : Bool) : (s.wrB F.SLC_GERR_STOPPED 0 b).rd F.SLC_GSTOP_STOPMASK 0 = s.rd F.SLC_GSTOP_STOPMASK 0 :=
  State.rd_wr_ne _ F.SLC_GERR_STOPPED F.SLC_GSTOP_STOPMASK _ _ _ (by decide)

theorem clearStop_stopmask (s : State) : s.clearStop.rd F.SLC_GSTOP_STOPMASK 0 = s.rd F.SLC_GSTOP_STOPMASK 0 := by
  unfold State.clearStop
  split
  · exact stopmask_wrB_stopped s false
  · rfl

/-- s as the drain of no channel leaves it, before STOPPED is looked at. -/
def noneStopped (s : State) : State :=
  let u : State := { s with sluice := { s.sluice with draining := false } }
  let t := ((u.wr F.SLC_GSTOP_STOPMASK 0 (maskOf [])).wrB F.SLC_GERR_STOPPED 0 true).bump F.SLC_GSTOP_STOPS 0 1
  t.emit 0x0903 Un.inst (t.rd F.SLC_GERR_ADDR 0) (t.rd F.SLC_GERR_CODE 0)

theorem noneStopped_stopmask (s : State) : (noneStopped s).rd F.SLC_GSTOP_STOPMASK 0 = 0 := by
  rw [noneStopped]
  dsimp only
  rw [State.emit_rd, State.bump, State.rd_wr_apart _ F.SLC_GSTOP_STOPS F.SLC_GSTOP_STOPMASK _ _ (by decide) rfl (by decide), stopmask_wrB_stopped,
    State.rd_wr_same _ F.SLC_GSTOP_STOPMASK _ _ (by decide)]
  rfl

/-- Settles O35: a reset clears what its unit held, and a bus error stops the channels once their writes have been accepted. -/
theorem enginesAndTheSluiceStop : Obligations.EnginesAndTheSluiceStop := by
  refine ⟨fun s e c => ⟨fun hans hrun => ?_, fun hres => ⟨s.jetCleared e.val, ?_, ?_, jetCleared_nflag s e.val⟩, fun hans => ?_,
    fun hres => ⟨s.slcCleared c.val, ?_, slcCleared_chan s c.val⟩⟩, ?_⟩
  · change Host.Outcome.next (s.hostWrite .JET_CTL e.val fun t => t.wJetCtl e.val 1) = _
    rw [hostWrite_of_answers _ hans, State.wJetCtl, hrun]
    rfl
  · exact congrArg Host.Outcome.next (if_pos hres)
  · exact State.jet_updJet_same _ _ _
  · exact congrArg Host.Outcome.next (hostWrite_of_answers _ hans)
  · exact congrArg Host.Outcome.next (if_pos hres)
  · intro s a c
    have hdone : exec .busStopDrainDone s = execBusStopDrainDone s := rfl
    rw [execBusStopDrainDone] at hdone
    refine ⟨?_, fun hdrain => ⟨congrArg Host.Outcome.next (busError_of_draining hdrain), congrArg Host.Outcome.next (busError_of_draining hdrain)⟩,
      fun hdrain => hdone.trans (if_pos (by rw [hdrain]; rfl)), ?_, fun hdrain hact => ?_, fun hans => ⟨?_, ?_⟩⟩
    · intro hdrain hone t
      have hstop : ∀ code, s.busError a.toNat code = _ := fun code => (busError_of_not_one hdrain hone).trans (busStop_of_not_draining hdrain)
      exact ⟨congrArg Host.Outcome.next (hstop 1), congrArg Host.Outcome.next (hstop 3)⟩
    · intro hdrain u
      have hdone := hdone.trans (if_neg (by rw [hdrain]; exact Bool.false_ne_true))
      exact ⟨fun hopen => hdone.trans (if_pos hopen), fun hopen => hdone.trans (if_neg fun h => Bool.false_ne_true (hopen.symm.trans h))⟩
    · refine ⟨(noneStopped s).clearStop, ?_, ?_, ?_, ?_⟩
      · have hdone := hdone.trans (if_neg (by rw [hdrain]; exact Bool.false_ne_true))
        rw [hact] at hdone
        dsimp only [foldS, List.foldl_nil] at hdone
        rw [hact] at hdone
        exact hdone
      · rw [clearStop_draining, noneStopped, State.emit_sluice, State.bump_sluice, State.wrB_sluice, State.wr_sluice]
      · exact (clearStop_stopmask _).trans (noneStopped_stopmask s)
      · rw [clearStop_mem, noneStopped, State.emit_mem, State.bump_mem, State.wrB_mem, State.wr_mem]
    · exact congrArg Host.Outcome.next (hostWrite_of_answers _ hans)
    · exact congrArg Host.Outcome.next (hostWrite_of_answers _ hans)

end Sys2Proof.Proofs

/-! Pauses and bursts of the sluice channels (08_sluice_channels.md R238 to R242). -/
namespace Sys2Proof.Proofs
open Sys2Proof Sys2Proof.Machine

/-! ### A channel's settings stay as they are while its instruction goes on

SLC_CFG is written by the host alone: no request, write, fault, abort or end of an instruction touches it. -/

/-- The settings of channel n. -/
def slcCfg (s : State) (n : Nat) : Nat := s.reg .SLC_CFG n

/-- A channel is paced by its settings alone. -/
theorem paced_of_slcCfg {s t : State} {n : Nat} (h : slcCfg t n = slcCfg s n) : t.paced n = s.paced n := by
  have hreg : t.reg .SLC_CFG n = s.reg .SLC_CFG n := h
  rw [State.paced, State.paced, State.flag, State.flag, State.rd, State.rd, show F.SLC_CFG_PACED.reg = .SLC_CFG from rfl, hreg]

/-- The registers that a spout's instruction writes as it goes on and ends. -/
def spoutRegs : List Reg := [.DBL_STAT, .DBL_FPC, .DBL_FADDR, .JET_NFLAG, .SLC_STAT, .SLC_ELEMS, .SLC_BYTES, .SLC_IPC, .TXU_CNT, .TXU_LAST]

section Settings
variable {n : Nat}

/-- No copy of a register that an instruction writes is a channel's SLC_CFG. -/
theorem slcCfg_addr_ne {r : Reg} (hr : r ∈ spoutRegs) (i : Nat) : Reg.SLC_CFG.addr n ≠ r.addr i := by
  simp only [spoutRegs, List.mem_cons, List.not_mem_nil, or_false] at hr
  rcases hr with rfl | rfl | rfl | rfl | rfl | rfl | rfl | rfl | rfl | rfl <;> simp only [Reg.addr, Reg.place] <;> omega

theorem slcCfg_setReg (s : State) (r : Reg) (i v : Nat) (hr : r ∈ spoutRegs) : slcCfg (s.setReg r i v) n = slcCfg s n :=
  State.reg_setReg_ne _ _ _ _ _ _ (slcCfg_addr_ne hr i)

theorem slcCfg_wr (s : State) (f : Field) (i v : Nat) (hr : f.reg ∈ spoutRegs) : slcCfg (s.wr f i v) n = slcCfg s n :=
  State.reg_wr_ne _ _ _ _ _ _ (slcCfg_addr_ne hr i)

theorem slcCfg_wrB (s : State) (f : Field) (i : Nat) (b : Bool) (hr : f.reg ∈ spoutRegs) : slcCfg (s.wrB f i b) n = slcCfg s n :=
  slcCfg_wr s f i _ hr

theorem slcCfg_bump (s : State) (f : Field) (i k : Nat) (hr : f.reg ∈ spoutRegs) : slcCfg (s.bump f i k) n = slcCfg s n :=
  slcCfg_wr s f i _ hr

theorem slcCfg_setSpSt (s : State) (m v : Nat) : slcCfg (s.setSpSt m v) n = slcCfg s n :=
  slcCfg_wr s F.DBL_STAT_STATE m v (by decide)

/-- A part of the state other than its registers holds no settings. -/
theorem slcCfg_of_regs {s t : State} (h : t.regs = s.regs) : slcCfg t n = slcCfg s n := by
  rw [slcCfg, State.reg, h]
  rfl

/-! #### The end of an instruction -/

theorem slcCfg_recordFault (s : State) (m c p a g : Nat) (b : Bool) : slcCfg (s.recordFault m c p a g b) n = slcCfg s n := by
  simp (disch := decide) only [State.recordFault, slcCfg_wr, slcCfg_wrB]

theorem slcCfg_releaseUnits (s : State) (m : Nat) : slcCfg (s.releaseUnits m) n = slcCfg s n := by
  have hstage : ∀ t : State, slcCfg (((t.wr F.SLC_STAT_STAGEWAIT m 0).wr F.SLC_STAT_STAGED m 0).wr F.SLC_STAT_SLOT m 0) n = slcCfg t n := fun t => by
    simp (disch := decide) only [slcCfg_wr]
  unfold State.releaseUnits
  dsimp only
  repeat' split
  · exact hstage _
  · exact hstage _
  · rfl
  · rfl

theorem slcCfg_memberAborts (s : State) (m : Nat × Nat × Nat × Nat) (w : Nat) : slcCfg (s.memberAborts m w) n = slcCfg s n := by
  unfold State.memberAborts
  dsimp only
  split
  · exact (slcCfg_setSpSt _ _ _).trans (slcCfg_releaseUnits s _)
  · split
    · exact slcCfg_releaseUnits s _
    · rfl

theorem slcCfg_send (s : State) (typ : Nat) (bc pri : Bool) (dst : Nat) (payload : List Nat) :
    slcCfg (s.send typ bc pri dst payload) n = slcCfg s n := by
  unfold State.send
  split <;> rfl

theorem slcCfg_txClose (s : State) (t w : Nat) (l : List Nat) (tell : Bool) : slcCfg (s.txClose t w l tell) n = slcCfg s n := by
  have hmembers : ∀ (ms : List (Nat × Nat × Nat × Nat)) (u : State), slcCfg (foldS ms u fun u m =>
      if l.contains m.1 then u.updSp m.1 fun y => { y with tx := none, txAbort := none, signals := [] } else u.memberAborts m w) n = slcCfg u n :=
    foldS_keeps (g := fun t => slcCfg t n) fun u m => by
      repeat' split
      · rfl
      · exact slcCfg_memberAborts u m w
  have hreport : ∀ u : State, slcCfg (u.reportAbort w) n = slcCfg u n := fun u =>
    (slcCfg_bump _ F.TXU_CNT_ABORTS _ _ (by decide)).trans (slcCfg_setReg _ .TXU_LAST _ _ (by decide))
  unfold State.txClose
  dsimp only
  (repeat' split) <;> simp only [State.castVote, slcCfg_send, hmembers, hreport] <;> rfl

theorem slcCfg_txStop (s : State) (m c d : Nat) : slcCfg (s.txStop m c d) n = slcCfg s n := by
  unfold State.txStop
  split
  · rfl
  · split
    · exact slcCfg_txClose s _ _ _ _
    · rfl

theorem slcCfg_txBars (s : State) (m c : Nat) : slcCfg (s.txBars m c) n = slcCfg s n := by
  unfold State.txBars
  split
  · exact slcCfg_txClose s _ _ _ _
  · rfl

theorem slcCfg_leaveTx (s : State) (m : Nat) : slcCfg (s.leaveTx m) n = slcCfg s n := by
  unfold State.leaveTx
  split <;> rfl

theorem slcCfg_ending (s : State) (m c : Nat) : slcCfg (s.ending m c) n = slcCfg s n :=
  slcCfg_releaseUnits (s.dropCalls m) m

theorem slcCfg_fault (s : State) (m c a g : Nat) : slcCfg (s.fault m c a g) n = slcCfg s n :=
  (slcCfg_ending _ m c).trans ((slcCfg_txStop _ m _ _).trans (slcCfg_recordFault s _ _ _ _ _ _))

theorem slcCfg_stopCmd (s : State) (m c a : Nat) : slcCfg (s.stopCmd m c a) n = slcCfg s n :=
  (slcCfg_ending _ m c).trans ((slcCfg_txStop _ m _ _).trans (slcCfg_recordFault s _ _ _ _ _ _))

theorem slcCfg_engineStop (s : State) (m : Nat) : slcCfg (s.engineStop m) n = slcCfg s n :=
  (slcCfg_setSpSt _ _ _).trans ((slcCfg_leaveTx _ m).trans ((slcCfg_releaseUnits _ m).trans ((slcCfg_txStop _ m _ _).trans
    (slcCfg_recordFault s _ _ _ _ _ _))))

theorem slcCfg_boundary (s : State) (m : Nat) : slcCfg (s.boundary m) n = slcCfg s n := by
  unfold State.boundary
  dsimp only
  split
  · split
    · exact slcCfg_engineStop s m
    all_goals exact slcCfg_stopCmd s m _ _
  · rfl

theorem slcCfg_goto (s : State) (m a : Nat) : slcCfg (s.goto m a) n = slcCfg s n := slcCfg_boundary _ m

theorem slcCfg_setFlags (s : State) (m f : Nat) : slcCfg (s.setFlags m f) n = slcCfg s n := by
  unfold State.setFlags
  split
  · rfl
  · exact slcCfg_setReg s .JET_NFLAG _ _ (by decide)

theorem slcCfg_noteHalf (s : State) (m : Nat) : slcCfg (s.noteHalf m) n = slcCfg s n := by
  unfold State.noteHalf
  split
  · rfl
  · dsimp only
    split <;> rfl

theorem slcCfg_noteProgress (s : State) (m : Nat) : slcCfg (s.noteProgress m) n = slcCfg s n := by
  unfold State.noteProgress
  dsimp only
  split
  · rfl
  · split
    · rfl
    · exact (slcCfg_noteHalf _ m).trans ((slcCfg_wr _ F.SLC_BYTES_BYTES _ _ (by decide)).trans (slcCfg_wr _ F.SLC_ELEMS_ELEMS _ _ (by decide)))

theorem slcCfg_endData (s : State) (m : Nat) : slcCfg (s.endData m) n = slcCfg s n := by
  unfold State.endData
  dsimp only
  split
  · rfl
  · split
    · rfl
    · split
      · rfl
      · split
        · exact (slcCfg_fault _ m _ _ _).trans (slcCfg_setFlags _ m _)
        · have hhalf : ∀ f c, slcCfg ((State.setFlags (s.updSp m f) m c).noteHalf m) n = slcCfg s n := fun f c =>
            (slcCfg_noteHalf _ m).trans (slcCfg_setFlags _ m c)
          split
          · exact (slcCfg_goto _ m _).trans ((slcCfg_releaseUnits _ m).trans (hhalf _ _))
          · exact (slcCfg_goto _ m _).trans ((slcCfg_releaseUnits _ m).trans (hhalf _ _))

theorem slcCfg_landedAt (s : State) (m : Nat) : slcCfg (s.landedAt m) n = slcCfg s n :=
  (slcCfg_endData _ m).trans (slcCfg_noteProgress s m)

theorem slcCfg_stopData (s : State) (m : Nat) (p : InProg) (stop : Option (Nat × Nat)) : slcCfg (s.stopData m p stop) n = slcCfg s n := by
  unfold State.stopData
  split
  · exact (slcCfg_txBars _ m _).trans (slcCfg_releaseUnits _ m)
  · exact slcCfg_landedAt _ m

/-! #### Requests -/

theorem slcCfg_markTaken (s : State) (tag : Nat) : slcCfg (s.markTaken tag) n = slcCfg s n := by
  unfold State.markTaken
  split
  · rfl
  · dsimp only
    split
    · exact slcCfg_landedAt _ _
    · rfl

theorem slcCfg_weirLocal (s : State) (p : Nat) (f : Frame) : slcCfg (s.weirLocal p f) n = slcCfg s n := by
  unfold State.weirLocal
  dsimp only
  repeat' split
  · rfl
  · exact slcCfg_markTaken _ _
  · rfl

theorem slcCfg_sendRemote (s : State) (o : Origin) (node : Nat) (f : Frame) (size : Nat) (reads : Bool) :
    slcCfg (s.sendRemote o node f size reads) n = slcCfg s n := by
  unfold State.sendRemote
  dsimp only
  split
  · rfl
  · exact slcCfg_weirLocal _ _ _

theorem slcCfg_admitNow {s t : State} {r : Req} (h : s.admitNow r = some t) : slcCfg t n = slcCfg s n := by
  unfold State.admitNow at h
  split at h
  · cases h
  · split at h
    · cases h
    · cases h
      rfl

theorem slcCfg_admitHead (s : State) (src : Nat) : slcCfg (s.admitHead src) n = slcCfg s n := by
  unfold State.admitHead
  split
  · rfl
  · split
    next h => exact (slcCfg_admitNow (n := n) h :)
    · rfl

theorem slcCfg_offer (s : State) (src : Nat) (r : Req) : slcCfg (s.offer src r) n = slcCfg s n := by
  unfold State.offer
  dsimp only
  split
  · exact slcCfg_admitHead _ src
  · rfl

theorem slcCfg_askMask (s : State) (m : Nat) (need : Need) (a size mask : Nat) (kind : ReqKind) (data : Bytes) :
    slcCfg (s.askMask m need a size mask kind data) n = slcCfg s n := by
  unfold State.askMask
  dsimp only
  split
  · split
    · rfl
    · exact slcCfg_offer _ _ _
  · split
    · rfl
    · exact slcCfg_sendRemote _ _ _ _ _ _
  · rfl

theorem slcCfg_askGrans (s : State) (m : Nat) (l : List Nat) : slcCfg (s.askGrans m l) n = slcCfg s n :=
  foldS_keeps (g := fun t => slcCfg t n) (fun t _ => slcCfg_askMask t m _ _ _ _ _ _) _ s

/-! #### Elements of a data movement -/

theorem gran_s (b : Bk) (pg : Nat) (pf : Bool) : (b.gran pg pf).1.s = b.s := by
  unfold Bk.gran
  split
  · rfl
  · split
    · rfl
    · split
      · (repeat' split) <;> rfl
      · rfl

theorem src_s (b : Bk) (pg : Nat) (pf : Bool) : (b.src pg pf).1.s = b.s := by
  unfold Bk.src
  split
  · rfl
  · dsimp only
    split <;> rfl
  · exact gran_s b pg pf

/-- What every step of a fold over a context and a value keeps of the state, the fold keeps. -/
theorem foldl_s {κ β : Type} {f : Bk × β → κ → Bk × β} (hf : ∀ r k, (f r k).1.s = r.1.s) (l : List κ) (r : Bk × β) : (l.foldl f r).1.s = r.1.s :=
  foldS_keeps (g := fun r => r.1.s) hf l r

theorem memBits_s (b : Bk) (A w : Nat) (pf : Bool) : (b.memBits A w pf).1.s = b.s := by
  refine foldl_s (fun r p => ?_) _ _
  have hsrc := src_s r.1 p.1 pf
  split
  next heq => rw [heq] at hsrc; exact hsrc
  next heq => rw [heq] at hsrc; exact hsrc

theorem read_s (b : Bk) (o : Opnd) (x : Int) (w : Nat) (pf : Bool) : (b.read o x w pf).1.s = b.s := by
  unfold Bk.read
  split
  · rfl
  · exact memBits_s b _ w pf

theorem stream_s (b : Bk) (o : Opnd) (k m : Nat) : (b.stream o k m).1.s = b.s := by
  refine foldl_s (fun r q => ?_) _ _
  dsimp only
  split
  next heq => exact (congrArg (fun c : Bk × Option Nat => c.1.s) heq).symm.trans (read_s _ _ _ _ _)
  next heq => exact (congrArg (fun c : Bk × Option Nat => c.1.s) heq).symm.trans (read_s _ _ _ _ _)

theorem index_s (b : Bk) (t o : Opnd) (f k : Nat) : (b.index t o f k).1.s = b.s := by
  unfold Bk.index
  have hread := read_s b t (t.lin k) t.w true
  split
  next heq =>
    rw [heq] at hread
    repeat' split
    · exact hread
    · exact hread
    all_goals
      dsimp only
      split <;> exact hread
  next heq => rw [heq] at hread; exact hread

theorem emptyRows_s (b : Bk) (t d : Opnd) (f : Nat) : (b.emptyRows t d f).s = b.s := by
  have hloop : ∀ (l : List Nat) (c : Bk), (l.foldl (fun (c : Bk) k =>
      if c.stop.isSome then c
      else
        match c.index t d f k with
        | (c1, .at _) => c1.halt 0x23 0
        | (c1, _) => c1) c).s = c.s := by
    refine foldS_keeps (g := Bk.s) fun c k => ?_
    have hindex := index_s c t d f k
    split
    · rfl
    · split
      next heq => rw [heq] at hindex; exact hindex
      next heq => rw [heq] at hindex; exact hindex
  unfold Bk.emptyRows
  dsimp only
  split
  · exact hloop _ _
  · exact hloop _ _

theorem slcCfg_askPut (b : Bk) (pg mark mask : Nat) (kind : ReqKind) (d : Bytes) : slcCfg (b.askPut pg mark mask kind d).s n = slcCfg b.s n :=
  slcCfg_askMask _ _ _ _ _ _ _ _

theorem slcCfg_flush (b : Bk) : slcCfg b.flush.s n = slcCfg b.s n := by
  unfold Bk.flush
  split
  · rfl
  · exact slcCfg_askPut _ _ _ _ _ _

theorem fresh_s (b : Bk) (pg : Nat) : (b.fresh pg).s = b.s := by
  unfold Bk.fresh
  split <;> rfl

theorem slcCfg_begin (b : Bk) (pg : Nat) : slcCfg (b.begin pg).s n = slcCfg b.s n := by
  unfold Bk.begin
  split
  · split
    · rfl
    · rw [fresh_s]
      exact slcCfg_flush b
  · rw [fresh_s]

theorem setBuf_s (b : Bk) (off w v : Nat) : (b.setBuf off w v).s = b.s := by
  unfold Bk.setBuf
  split <;> rfl

theorem slcCfg_putBits (b : Bk) (pg off w v : Nat) : slcCfg (b.putBits pg off w v).s n = slcCfg b.s n := by
  unfold Bk.putBits
  dsimp only
  split
  · rfl
  · split
    · exact slcCfg_begin b pg
    · split
      · rw [setBuf_s]
        exact slcCfg_begin b pg
      · split
        · exact slcCfg_begin b pg
        · split
          · rw [setBuf_s]
            exact slcCfg_begin b pg
          · have hgran := gran_s (b.begin pg) pg true
            split
            next heq =>
              rw [heq] at hgran
              split
              · rw [setBuf_s, show Bk.s _ = _ from hgran]
                exact slcCfg_begin b pg
              · rw [show Bk.s _ = _ from hgran]
                exact slcCfg_begin b pg
            next heq =>
              rw [heq] at hgran
              rw [show Bk.s _ = _ from hgran]
              exact slcCfg_begin b pg

theorem slcCfg_poison (b : Bk) (pg : Nat) : slcCfg (b.poison pg).s n = slcCfg b.s n := by
  have hput : ∀ (c : Bk) (from_ : Nat), slcCfg c.s n = slcCfg b.s n → slcCfg (match c.s.granFault b.sp pg with
      | some x => c.halt x (64 * pg)
      | none => { c.askPut pg from_ (2 ^ 64 - 1) .mark [] with marked := b.marked ++ [pg] }).s n = slcCfg b.s n := fun c from_ hc => by
    split
    · exact hc
    · exact (slcCfg_askPut c _ _ _ _ _).trans hc
  unfold Bk.poison
  split
  · rfl
  · cases b.wbuf with
    | none => exact hput b b.elems rfl
    | some w =>
      obtain ⟨q, m, v⟩ := w
      by_cases hq : q = pg
      · simp only [hq, if_true]
        exact hput ({ b with wbuf := none } : Bk) b.wstart rfl
      · simp only [hq, if_false]
        exact hput b.flush b.elems (slcCfg_flush b)

theorem slcCfg_close (b : Bk) : slcCfg b.close.s n = slcCfg b.s n := slcCfg_flush ({ b with stop := none } : Bk)

theorem slcCfg_atom (b : Bk) (a w op new : Nat) : slcCfg (b.atom a w op new).s n = slcCfg b.s n := by
  unfold Bk.atom
  split
  · rfl
  · split
    · rfl
    · exact slcCfg_askMask _ _ _ _ _ _ _ _

theorem slcCfg_write (b : Bk) (o : Opnd) (x : Int) (w v : Nat) : slcCfg (b.write o x w v).s n = slcCfg b.s n := by
  unfold Bk.write
  dsimp only
  repeat' split
  · rfl
  · rfl
  · exact foldS_keeps (g := fun c : Bk => slcCfg c.s n) (fun c p => slcCfg_putBits c _ _ _ _) (pieces (o.at x) w) b

theorem slcCfg_spoil (b : Bk) (o : Opnd) (x : Int) (w a : Nat) : slcCfg (b.spoil o x w a).s n = slcCfg b.s n := by
  unfold Bk.spoil
  repeat' split
  · rfl
  · rfl
  · exact foldS_keeps (g := fun c : Bk => slcCfg c.s n) (fun c (p : Nat × Nat × Nat × Nat) => slcCfg_poison c p.1) (pieces (o.at x) w) b

theorem slcCfg_place (b : Bk) (d : Opnd) (x : Int) (v : Option Nat) (src : Nat) : slcCfg (b.place d x v src).s n = slcCfg b.s n := by
  have hcount : ∀ c : Bk, (if c.good then { c with elems := c.elems + 1 } else c).s = c.s := fun c => by split <;> rfl
  unfold Bk.place
  dsimp only
  rw [hcount]
  split
  · exact slcCfg_write b d x _ _
  · exact slcCfg_spoil b d x _ _

theorem slcCfg_accum (b : Bk) (d : Opnd) (p : Int) (mode v : Nat) : slcCfg (b.accum d p mode v).s n = slcCfg b.s n := by
  unfold Bk.accum
  dsimp only
  repeat' split
  · rfl
  · exact slcCfg_write b d p _ _
  · exact slcCfg_atom b _ _ _ _
  · exact slcCfg_atom b _ _ _ _

theorem slcCfg_movMove (s : State) (m : Nat) (f : FormD) (b : Bk) (k : Nat) : slcCfg ((s.movMove m f).step b k).s n = slcCfg b.s n := by
  unfold State.movMove
  dsimp only
  split
  · exact (slcCfg_place _ _ _ _ _).trans (congrArg (slcCfg · n) (stream_s _ _ _ _))
  · exact (slcCfg_place _ _ _ _ _).trans (congrArg (slcCfg · n) (stream_s _ _ _ _))

theorem slcCfg_movPack (s : State) (m : Nat) (f : FormD) (b : Bk) (k : Nat) : slcCfg ((s.movPack m f).step b k).s n = slcCfg b.s n := by
  unfold State.movPack
  dsimp only
  exact (slcCfg_place _ _ _ _ _).trans (congrArg (slcCfg · n) (read_s _ _ _ _ _))

theorem slcCfg_movFill (s : State) (m : Nat) (f : FormD) (b : Bk) (k : Nat) : slcCfg ((s.movFill m f).step b k).s n = slcCfg b.s n :=
  slcCfg_place b _ _ _ _

theorem slcCfg_movCmp (s : State) (m : Nat) (f : FormD) (b : Bk) (k : Nat) : slcCfg ((s.movCmp m f).step b k).s n = slcCfg b.s n := by
  unfold State.movCmp
  dsimp only
  split
  · rfl
  · have hread : (((b.read ((s.sp m).opnd m f.oa f.da) (((s.sp m).opnd m f.oa f.da).lin k) ((s.sp m).opnd m f.oa f.da).w true).1.read
        ((s.sp m).opnd m f.ob f.db) (((s.sp m).opnd m f.ob f.db).lin k) ((s.sp m).opnd m f.ob f.db).w true).1).s = b.s :=
      (read_s _ _ _ _ _).trans (read_s _ _ _ _ _)
    (repeat' split) <;> exact congrArg (slcCfg · n) hread

theorem slcCfg_movGather (s : State) (m : Nat) (f : FormD) (b : Bk) (k : Nat) : slcCfg ((s.movGather m f).step b k).s n = slcCfg b.s n := by
  unfold State.movGather
  dsimp only
  split
  · rfl
  · split
    next heq =>
      have hindex := congrArg (slcCfg · n) ((congrArg (fun c : Bk × Named => c.1.s) heq).symm.trans (index_s _ _ _ _ _))
      split
      · exact (slcCfg_place _ _ _ _ _).trans hindex
      · exact hindex
    next heq =>
      have hindex := congrArg (slcCfg · n) ((congrArg (fun c : Bk × Named => c.1.s) heq).symm.trans (index_s _ _ _ _ _))
      exact (slcCfg_place _ _ _ _ _).trans ((congrArg (slcCfg · n) (read_s _ _ _ _ _)).trans hindex)
    next heq => exact congrArg (slcCfg · n) ((congrArg (fun c : Bk × Named => c.1.s) heq).symm.trans (index_s _ _ _ _ _))

theorem slcCfg_movScatter (s : State) (m : Nat) (f : FormD) (b : Bk) (k : Nat) : slcCfg ((s.movScatter m f).step b k).s n = slcCfg b.s n := by
  unfold State.movScatter
  dsimp only
  generalize (if (f.imm.toNat / 4).testBit 2 then ((s.sp m).opnd m f.od f.dd).n0 else 1) = per
  split
  · rfl
  · split
    · exact congrArg (slcCfg · n) (emptyRows_s _ _ _ _)
    · split
      next heq => exact congrArg (slcCfg · n) ((congrArg (fun c : Bk × Named => c.1.s) heq).symm.trans (index_s _ _ _ _ _))
      next heq =>
        have hindex := congrArg (slcCfg · n) ((congrArg (fun c : Bk × Named => c.1.s) heq).symm.trans (index_s _ _ _ _ _))
        split
        · exact (slcCfg_place _ _ _ _ _).trans ((congrArg (slcCfg · n) (read_s _ _ _ _ _)).trans hindex)
        · exact (slcCfg_accum _ _ _ _ _).trans ((congrArg (slcCfg · n) (read_s _ _ _ _ _)).trans hindex)
      next heq => exact congrArg (slcCfg · n) ((congrArg (fun c : Bk × Named => c.1.s) heq).symm.trans (index_s _ _ _ _ _))

/-- An element of a data movement leaves every channel's settings. -/
theorem slcCfg_step {s : State} {i : Instr} {h : Hdr} {m : Mov} (hmov : s.movOf i = some (h, m)) (b : Bk) (k : Nat) :
    slcCfg (m.step b k).s n = slcCfg b.s n := by
  unfold State.movOf at hmov
  split at hmov <;> cases hmov
  · exact slcCfg_movMove s _ _ b k
  · exact slcCfg_movGather s _ _ b k
  · exact slcCfg_movScatter s _ _ b k
  · exact slcCfg_movFill s _ _ b k
  · exact slcCfg_movCmp s _ _ b k
  · exact slcCfg_movPack s _ _ b k

section Mov
variable {m : Mov} (hstep : ∀ b k, slcCfg (m.step b k).s n = slcCfg b.s n)
include hstep

theorem slcCfg_element (b : Bk) (k : Nat) : slcCfg (b.element m k).s n = slcCfg b.s n := by
  unfold Bk.element
  dsimp only
  repeat' split
  · rfl
  · exact hstep b k
  · rfl

theorem slcCfg_movElems (s : State) (c : Nat) (p : InProg) : slcCfg (s.movElems c m p).s n = slcCfg s n :=
  foldS_keeps (g := fun b : Bk => slcCfg b.s n) (fun b k => slcCfg_element hstep b (p.elems + k)) (List.range (p.limit - p.elems)) (s.bk c p)

omit hstep in
theorem slcCfg_notePoison (s : State) (c k : Nat) : slcCfg (s.notePoison c k) n = slcCfg s n := by
  unfold State.notePoison
  split
  · exact slcCfg_bump s F.SLC_STAT_POISONED c k (by decide)
  · rfl

theorem slcCfg_movRun (s : State) (c : Nat) (p : InProg) : slcCfg (s.movRun c m p) n = slcCfg s n := by
  have helems := slcCfg_movElems hstep s c p
  unfold State.movRun
  dsimp only
  split
  · exact (slcCfg_stopData _ c _ _).trans ((slcCfg_notePoison _ _ _).trans ((slcCfg_close _).trans helems))
  · split
    · exact (slcCfg_landedAt _ c).trans ((slcCfg_notePoison _ _ _).trans ((slcCfg_close _).trans helems))
    · exact (slcCfg_askGrans _ c _).trans ((slcCfg_landedAt _ c).trans ((slcCfg_notePoison _ _ _).trans helems))

theorem slcCfg_movGo (s : State) (c : Nat) (p : InProg) (sample : Bool) : slcCfg (s.movGo c m p sample) n = slcCfg s n := by
  unfold State.movGo
  repeat' split
  · exact slcCfg_movRun hstep s c _
  · exact slcCfg_movRun hstep s c _
  · rfl
  · exact slcCfg_movRun hstep s c _
  · exact (slcCfg_setSpSt _ _ _).trans (slcCfg_wr s F.SLC_STAT_PCAUSE _ _ (by decide))

end Mov

theorem slcCfg_stageMov (s : State) (c : Nat) (m : Mov) (p : InProg) : slcCfg (s.stageMov c m p).2 n = slcCfg s n := by
  unfold State.stageMov
  extract_lets tiles here staged q rest bad t
  clear_value bad
  cases bad with
  | some f => exact slcCfg_stopData s c q (some f)
  | none =>
    dsimp only
    split
    · rfl
    · dsimp only
      split
      · rfl
      · exact slcCfg_askGrans t c rest

/-- A data movement that goes on leaves every channel's settings. -/
theorem slcCfg_contMov (s : State) (c : Nat) (sample : Bool) : slcCfg (s.contMov c sample) n = slcCfg s n := by
  unfold State.contMov
  split
  · rfl
  · split
    · exact slcCfg_endData s c
    · split
      · rfl
      next p _ _ _ h m hmov =>
        have hstep := fun b k => slcCfg_step (n := n) hmov b k
        split
        · exact slcCfg_movGo hstep s c _ sample
        · have hstage := slcCfg_stageMov (n := n) s c m p
          split
          next heq =>
            rw [heq] at hstage
            exact (slcCfg_movGo hstep _ c _ true).trans hstage
          next heq =>
            rw [heq] at hstage
            exact hstage

end Settings

/-! ### The registers of a channel (R240, R251) -/

section Cfg
variable {s : State} {c v : Nat}

/-- A burst length from 1 to 8 is stored. -/
theorem wSlcCfg_of_burst (hlo : 1 ≤ F.SLC_CFG_BURST.of (s.proposed .SLC_CFG c v (!s.slcStopped c)))
    (hhi : F.SLC_CFG_BURST.of (s.proposed .SLC_CFG c v (!s.slcStopped c)) ≤ 8) : s.wSlcCfg c v = s.storeReg .SLC_CFG c v (!s.slcStopped c) := by
  have hcode : firstCode [(F.SLC_CFG_BURST.of (s.proposed .SLC_CFG c v (!s.slcStopped c)) == 0, 1),
      (decide (8 < F.SLC_CFG_BURST.of (s.proposed .SLC_CFG c v (!s.slcStopped c))), 2)] = 0 := by
    rw [beq_eq_false_iff_ne.mpr (by omega), decide_eq_false (by omega)]
    rfl
  rw [State.wSlcCfg, hcode]
  rfl

/-- A burst length of 0 is refused. -/
theorem wSlcCfg_of_zero (hzero : F.SLC_CFG_BURST.of (s.proposed .SLC_CFG c v (!s.slcStopped c)) = 0) : s.wSlcCfg c v = s.spEvent c 0x04 1 0 := by
  rw [State.wSlcCfg, hzero]
  rfl

/-- A burst length above 8 is refused. -/
theorem wSlcCfg_of_out (hout : 8 < F.SLC_CFG_BURST.of (s.proposed .SLC_CFG c v (!s.slcStopped c))) : s.wSlcCfg c v = s.spEvent c 0x04 2 0 := by
  have hcode : firstCode [(F.SLC_CFG_BURST.of (s.proposed .SLC_CFG c v (!s.slcStopped c)) == 0, 1),
      (decide (8 < F.SLC_CFG_BURST.of (s.proposed .SLC_CFG c v (!s.slcStopped c))), 2)] = 2 := by
    rw [beq_eq_false_iff_ne.mpr (by omega), decide_eq_true hout]
    rfl
  rw [State.wSlcCfg, hcode]
  rfl

end Cfg

/-- A write of another register than its page's leaves a spout's state. -/
theorem storeReg_spSt (s : State) {r : Reg} {i m : Nat} (v : Nat) (run : Bool) (hr : Reg.DBL_STAT.addr m ≠ r.addr i) :
    (s.storeReg r i v run).spSt m = s.spSt m := by
  have hset : (s.setReg r i (s.proposed r i v run)).rd F.DBL_STAT_STATE m = s.rd F.DBL_STAT_STATE m :=
    congrArg (bits · F.DBL_STAT_STATE.hi F.DBL_STAT_STATE.lo) (State.reg_setReg_ne s r .DBL_STAT i m _ hr)
  unfold State.storeReg
  dsimp only
  split <;> exact hset

/-- SLC_PREQ lies apart from the doorbell pages. -/
theorem addr_DBL_STAT_ne_SLC_PREQ {n : Nat} : Reg.DBL_STAT.addr n ≠ Reg.SLC_PREQ.addr n := by
  simp only [Reg.addr, Reg.place]
  omega

/-- A channel that is not PAUSED sees the REQ written. -/
theorem wSlcPreq_of_running {s : State} {n : Nat} (req : Bool) (hst : s.spSt n ≠ 4) :
    ((s.wSlcPreq n (b2n req)).chan n).seenReq = req ∧ (s.wSlcPreq n (b2n req)).spSt n = s.spSt n := by
  have hkeep : ((s.storeReg .SLC_PREQ n (b2n req) false).updChan n fun k => { k with seenReq := F.SLC_PREQ_REQ.of (b2n req) == 1 }).spSt n = s.spSt n :=
    storeReg_spSt s _ _ addr_DBL_STAT_ne_SLC_PREQ
  have hsame : s.wSlcPreq n (b2n req) =
      (s.storeReg .SLC_PREQ n (b2n req) false).updChan n fun k => { k with seenReq := F.SLC_PREQ_REQ.of (b2n req) == 1 } := by
    refine if_neg ?_
    rw [show State.spSt _ n = s.spSt n from hkeep, decide_eq_false hst]
    exact Bool.false_ne_true
  rw [hsame, State.chan_updChan_same]
  exact ⟨by cases req <;> rfl, hkeep⟩

/-! ### The pause itself (R238, R239, R241) -/

/-- A channel set to pause, whose instruction may pause once it has gone on, enters PAUSED by PAUSE alone. -/
theorem execPauseComplete_of_canPause {s : State} {c : Chan} (hpause : s.flag F.SLC_CTL_PAUSE c.val = true) (hcan : s.canPause c.val = true)
    (hgone : (s.contMov c.val false).canPause c.val = true) (hpaced : s.paced c.val = false) :
    execPauseComplete c s = .next ((((s.contMov c.val false).updSp c.val fun x => { x with prog := x.prog.map fun p => { p with fetched := [] } }).wr
      F.SLC_STAT_PCAUSE c.val 1).setSpSt c.val 4) := by
  rw [execPauseComplete]
  dsimp only
  rw [hpause, hcan, hgone, paced_of_slcCfg (slcCfg_contMov s c.val false), hpaced]
  rfl

/-- PCAUSE is not in a doorbell page. -/
theorem addr_SLC_STAT_ne_DBL_STAT (n : Nat) : Reg.SLC_STAT.addr n ≠ Reg.DBL_STAT.addr n := by
  simp only [Reg.addr, Reg.place]
  omega

/-- Settles O36: the writes by their rules, and the pause, whose cause is PAUSE alone as no step of an instruction changes SLC_CFG. -/
theorem channelsPause : Obligations.ChannelsPause := by
  intro s c v n
  refine ⟨fun hans => congrArg Host.Outcome.next (hostWrite_of_answers _ hans), ?_, fun req hans hst => ?_, fun hpause hcan hgone hpaced => ?_,
    fun hst hpause hreq habort => ?_, fun p hprog hst hpaced hpause hdrain hwait hfin hopen hlim hset hbulk => ?_⟩
  · intro hans burst
    have hwrite : exec (.slcCfgWrite c v) s = .next (s.wSlcCfg n v.toNat).ok := congrArg Host.Outcome.next (hostWrite_of_answers _ hans)
    exact ⟨fun hlo hhi => by rw [hwrite, wSlcCfg_of_burst hlo hhi], fun hzero => by rw [hwrite, wSlcCfg_of_zero hzero],
      fun hout => by rw [hwrite, wSlcCfg_of_out hout]⟩
  · exact ⟨_, congrArg Host.Outcome.next (hostWrite_of_answers _ hans), wSlcPreq_of_running req hst⟩
  · refine ⟨_, execPauseComplete_of_canPause hpause hcan hgone hpaced, spSt_setSpSt _ _ _, ?_, ?_⟩
    · exact (State.rd_wr_ne _ F.DBL_STAT_STATE F.SLC_STAT_PCAUSE _ _ _ (addr_SLC_STAT_ne_DBL_STAT _)).trans
        (State.rd_wr_same _ F.SLC_STAT_PCAUSE _ _ (by decide))
    · rw [State.setSpSt_mem, State.wr_mem, State.updSp_mem]
  · intro u
    have hgo : (s.paced n && !(s.chan n).seenReq) = false := by
      rcases hreq with h | h <;> simp [h]
    have hrel : exec (.pauseRelease c) s = execPauseRelease c s := rfl
    rw [execPauseRelease] at hrel
    dsimp only at hrel
    rw [show s.spSt c.val = 4 from hst, show s.flag F.SLC_CTL_PAUSE c.val = false from hpause, show (s.paced c.val && _) = false from hgo,
      if_neg (by decide), show (s.sp c.val).txAbort = none from habort, if_neg (by decide)] at hrel
    refine ⟨fun i hwait => ?_, fun hwait hprog => ?_, fun hwait hprog => ?_⟩
    · rw [hrel, show (s.sp c.val).waiting = .grant i from hwait]
    · rw [hrel, show (s.sp c.val).waiting = .none from hwait, show (s.sp c.val).prog = none from hprog]
    · obtain ⟨p, hp⟩ := Option.isSome_iff_exists.mp hprog
      rw [hrel, show (s.sp c.val).waiting = .none from hwait, show (s.sp c.val).prog = some p from hp]
  · change execBurstSample c s = _
    rw [execBurstSample]
    rw [show (s.sp c.val).prog = some p from hprog]
    refine if_pos ?_
    rw [show s.spSt c.val = 2 from hst, show s.paced c.val = true from hpaced, show s.flag F.SLC_CTL_PAUSE c.val = false from hpause, hdrain,
      show (s.sp c.val).waiting = .none from hwait, show (s.sp c.val).finish = none from hfin, hopen, hlim, show (s.sp c.val).settled = true from hset,
      show List.any _ _ = false from hbulk]
    simp

end Sys2Proof.Proofs

/-! Fabric ports and the intake (02_ports.md R41 to R50; 11_intake_and_basin.md R314 to R319; 01_architecture.md R24). -/
namespace Sys2Proof.Proofs
open Sys2Proof Sys2Proof.Machine

section Beat
variable {s : State} {n : Nat} {host : Bool} {b : Beat}

/-- A beat waits while READY is low. -/
theorem takeTagWait_of_readyLow (hlow : s.readyLow n = true) : s.takeTagWait n [(host, b)] = s.setWaiting n [(host, b)] := by
  rw [State.takeTagWait, if_pos hlow]

/-- A beat waits for an earlier response under its tag. -/
theorem takeTagWait_of_tagBusy (hready : s.readyLow n = false) (hbusy : s.tagBusy n b.tag.toNat = true) :
    s.takeTagWait n [(host, b)] = (s.setWaiting n [(host, b)]).wrB F.ITK_FPSTAT_TAGWAIT n true := by
  rw [State.takeTagWait, hready, if_neg Bool.false_ne_true, if_pos hbusy]

/-- A beat at a port that is not OPEN is not ready. -/
theorem takeTagWait_of_not_open (hready : s.readyLow n = false) (hfree : s.tagBusy n b.tag.toNat = false) (hport : s.fpSt n ≠ 2) :
    s.takeTagWait n [(host, b)] = (s.notReady n b).setWaiting n [] := by
  rw [State.takeTagWait, hready, if_neg Bool.false_ne_true, hfree, if_neg Bool.false_ne_true, if_pos hport]
  rfl

/-- A beat at an OPEN port is checked. -/
theorem takeTagWait_of_open (hready : s.readyLow n = false) (hfree : s.tagBusy n b.tag.toNat = false) (hport : s.fpSt n = 2) :
    s.takeTagWait n [(host, b)] = (s.fabricChecked n host b).setWaiting n [] := by
  rw [State.takeTagWait, hready, if_neg Bool.false_ne_true, hfree, if_neg Bool.false_ne_true, if_neg (not_not_intro hport)]
  rfl

end Beat

/-- Settles O37: a beat waits behind those that wait, and the first of a port goes by its READY, its tag and its state. -/
theorem fabricBeatsAreTaken : Obligations.FabricBeatsAreTaken := by
  intro s p host b hawake n w
  have hreq : exec (.fabricRequest p host b) s = execFabricRequest p host b s := rfl
  rw [execFabricRequest, leaveIdle_of_awake 1 hawake] at hreq
  have hfirst : w = [] → exec (.fabricRequest p host b) s = .next (s.takeTagWait n [(host, b)]) := fun hw =>
    hreq.trans (congrArg Host.Outcome.next (if_pos (by rw [show Store.get [] s.intake.tagWait p.val = [] from hw]; rfl)))
  have hbeat : exec (.responseBeatTransfer p) s = execResponseBeatTransfer p s := rfl
  rw [execResponseBeatTransfer] at hbeat
  refine ⟨fun hw => ?_, fun hw hlow => ?_, fun hw hready => ⟨fun hbusy => ?_, fun hfree hport => ?_, fun hfree hport => ?_⟩, fun hbad => ?_,
    fun r rest hresp => ?_, fun hresp => ?_⟩
  · exact hreq.trans (congrArg Host.Outcome.next (if_neg (by rwa [List.isEmpty_iff])))
  · rw [hfirst hw, takeTagWait_of_readyLow hlow]
  · rw [hfirst hw, takeTagWait_of_tagBusy hready hbusy]
  · rw [hfirst hw, takeTagWait_of_not_open hready hfree hport]
  · rw [hfirst hw, takeTagWait_of_open hready hfree hport]
  · rw [State.fabricChecked]
    exact if_pos hbad
  · rw [hbeat]
    dsimp only
    rw [show Store.get [] s.intake.resp p.val = r :: rest from hresp]
    rfl
  · rw [hbeat]
    dsimp only
    rw [show Store.get [] s.intake.resp p.val = [] from hresp]

/-! ## Negotiation (R48 to R50) -/

/-- A negotiated port opens in phase 8 under a map that is not being filled. -/
theorem releasePort_of_ready {s : State} {n : Nat} (hphase : s.phase = 8) (hst : s.fpSt n = 1) (hneg : Store.get false s.intake.negDone n = true)
    (hmap : s.map.mode ≠ 0) (hbusy : s.flag F.GLB_MAPSTAT_BUSY 0 = false) : s.releasePort n = s.wr F.ITK_FPSTAT_STATE n 2 := by
  refine if_pos ?_
  rw [hphase, hst, hneg, hbusy, bne_iff_ne.mpr hmap]
  rfl

/-- The states of two of the eight ports lie apart. -/
theorem fpSt_wr_ne {s : State} {n m : Nat} (v : Nat) (hn : n < 8) (hm : m < 8) (hne : m ≠ n) : (s.wr F.ITK_FPSTAT_STATE n v).fpSt m = s.fpSt m :=
  State.rd_wr_ne _ F.ITK_FPSTAT_STATE F.ITK_FPSTAT_STATE _ _ _ (by
    change Reg.ITK_FPSTAT.addr m ≠ Reg.ITK_FPSTAT.addr n
    simp only [Reg.addr, Reg.place]
    omega)

/-- The state that is written to a port stands in it. -/
theorem fpSt_wr_same (s : State) (n v : Nat) : (s.wr F.ITK_FPSTAT_STATE n v).fpSt n = v % 8 :=
  State.rd_wr_same _ F.ITK_FPSTAT_STATE _ _ (by decide)

/-- A port taken to DOWN is DOWN. -/
theorem fpSt_portDown (s : State) (n : Nat) : (s.portDown n).fpSt n = 0 := fpSt_wr_same s n 0

/-- A port taken to NEGOTIATE is in NEGOTIATE. -/
theorem fpSt_toNegotiate (s : State) (n : Nat) : (s.toNegotiate n).fpSt n = 1 := fpSt_wr_same s n 1

/-- Settles O38: by the port's state and what is in flight. -/
theorem portsNegotiateAndQuiesce : Obligations.PortsNegotiateAndQuiesce := by
  intro s p n
  refine ⟨fun hst hphase hmap hbusy => ?_, ?_, fun hst hidle => ⟨fun hheld => ⟨?_, fpSt_portDown s n⟩, ?_⟩⟩
  · let t : State := { s with intake := { s.intake with negDone := Store.put false s.intake.negDone n true, negFail := Store.put 0 s.intake.negFail n 0 } }
    have hneg : Store.get false t.intake.negDone n = true := Store.get_put_same false s.intake.negDone n true
    have hopen : t.releasePort n = t.wr F.ITK_FPSTAT_STATE n 2 := releasePort_of_ready hphase hst hneg hmap hbusy
    refine ⟨t.wr F.ITK_FPSTAT_STATE n 2, ?_, fpSt_wr_same t n 2, State.wr_mem .., fun m hm hne => fpSt_wr_ne 2 p.isLt hm hne⟩
    exact (if_pos hst).trans (congrArg Host.Outcome.next hopen)
  · intro hst hneg k t
    refine if_pos ?_
    rw [show s.fpSt p.val = 1 from hst, show Store.get false s.intake.negDone p.val = false from hneg]
    rfl
  · refine (if_pos (by rw [show s.fpSt p.val = 3 from hst, show s.portBusy p.val = false from hidle]; rfl)).trans ?_
    exact congrArg Host.Outcome.next (if_pos hheld)
  · intro hheld t
    refine ⟨?_, fpSt_toNegotiate _ n⟩
    refine (if_pos (by rw [show s.fpSt p.val = 3 from hst, show s.portBusy p.val = false from hidle]; rfl)).trans ?_
    exact congrArg Host.Outcome.next (if_neg fun h => Bool.false_ne_true (hheld.symm.trans h))

/-! ## Admission and the refill (R313 to R319) -/

/-- The head of a source is admitted as its accounts say, or waits. -/
theorem admitHead_of_head {s : State} {src : Nat} {r : Req} {rest : List Req} (hhead : s.heldAt src = r :: rest) (hroom : s.winFull r = false) :
    s.admitHead src =
      if s.admission r.reqNo (classOf r.label) (s.gloc (r.addr / 64)).pc = .held then s
      else (s.admitAs r (s.admission r.reqNo (classOf r.label) (s.gloc (r.addr / 64)).pc)).setHeld src rest := by
  rw [State.admitHead, hhead]
  dsimp only
  rw [State.admitNow, hroom, if_neg Bool.false_ne_true]
  cases s.admission r.reqNo (classOf r.label) (s.gloc (r.addr / 64)).pc <;> rfl

/-- s with the accounts of requester j refilled. -/
def refillOne (effs wts : Nat) (deliv : Nat) (t : State) (j : Nat) : State :=
  let cap : Int := t.rd F.ITK_REQ_BURST j * 1024
  let c := Store.get 0 t.intake.c j
  let h := Store.get 0 t.intake.h j
  let share : Int := if wts = 0 then 0 else ((deliv - effs) * t.rd F.ITK_REQ_WT j / wts : Nat)
  let c1 := min cap (c + (t.rd F.ITK_EFF_EFF j : Int))
  let h1 := min cap (h + share)
  { t with intake := { t.intake with c := Store.put 0 t.intake.c j c1, h := Store.put 0 t.intake.h j h1 } }


/-- A fold over one more number. -/
theorem foldS_range_succ {σ : Type} (k : Nat) (s : σ) (f : σ → Nat → σ) : foldS (List.range (k + 1)) s f = f (foldS (List.range k) s f) k := by
  rw [foldS, List.range_succ, List.foldl_append]
  rfl

/-- s with the effective guarantees of the first k requesters written. -/
def effsWritten (s : State) (k : Nat) : State := foldS (List.range k) s fun t j => t.wr F.ITK_EFF_EFF j (s.effOf j)

/-- Two copies of ITK_EFF lie apart. -/
theorem addr_ITK_EFF_ne {i j : Nat} (hi : i < 64) (hj : j < 64) (hne : i ≠ j) : F.ITK_EFF_EFF.reg.addr i ≠ F.ITK_EFF_EFF.reg.addr j := by
  change Reg.ITK_EFF.addr i ≠ Reg.ITK_EFF.addr j
  simp only [Reg.addr, Reg.place]
  omega

theorem effsWritten_rd (s : State) {k : Nat} (hk : k ≤ 64) {j : Nat} (hj : j < k) : (effsWritten s k).rd F.ITK_EFF_EFF j = s.effOf j % 2 ^ 32 := by
  induction k with
  | zero => exact absurd hj (Nat.not_lt_zero j)
  | succ k ih =>
    rw [effsWritten, foldS_range_succ]
    by_cases hjk : j = k
    · subst hjk
      exact State.rd_wr_same _ F.ITK_EFF_EFF _ _ (by decide)
    · rw [State.rd_wr_ne _ F.ITK_EFF_EFF F.ITK_EFF_EFF _ _ _ (addr_ITK_EFF_ne (by omega) (by omega) hjk)]
      exact ih (by omega) (by omega)

/-- The refill's guarantees leave the requesters' settings. -/
theorem effsWritten_rd_req (s : State) {k : Nat} (hk : k ≤ 64) (f : Field) (hf : f.reg = .ITK_REQ) (j : Nat) :
    (effsWritten s k).rd f j = s.rd f j := by
  induction k with
  | zero => rfl
  | succ k ih =>
    rw [effsWritten, foldS_range_succ, State.rd_wr_ne _ F.ITK_EFF_EFF f _ _ _ (by
      rw [hf]
      change Reg.ITK_REQ.addr j ≠ Reg.ITK_EFF.addr k
      simp only [Reg.addr, Reg.place]
      omega)]
    exact ih (by omega)

theorem effsWritten_intake (s : State) (k : Nat) : (effsWritten s k).intake = s.intake :=
  foldS_keeps (g := State.intake) (fun _ _ => State.wr_intake ..) _ s

theorem effsWritten_mem (s : State) (k : Nat) : (effsWritten s k).mem = s.mem :=
  foldS_keeps (g := State.mem) (fun _ _ => State.wr_mem ..) _ s

/-- s with the accounts of the first k requesters refilled. -/
def refilled (effs wts deliv : Nat) (s : State) (k : Nat) : State := foldS (List.range k) s (refillOne effs wts deliv)

section Refill
variable (effs wts deliv : Nat) (s : State)

theorem refilled_regs (k : Nat) : (refilled effs wts deliv s k).regs = s.regs :=
  foldS_keeps (g := State.regs) (f := refillOne effs wts deliv) (fun _ _ => rfl) _ s

theorem refilled_mem (k : Nat) : (refilled effs wts deliv s k).mem = s.mem :=
  foldS_keeps (g := State.mem) (f := refillOne effs wts deliv) (fun _ _ => rfl) _ s

theorem refilled_rd (k : Nat) (f : Field) (j : Nat) : (refilled effs wts deliv s k).rd f j = s.rd f j := by
  rw [State.rd, State.reg, refilled_regs]
  rfl

/-- A requester's account that has not been reached stands as before. -/
theorem refilled_c_later {k j : Nat} (hj : k ≤ j) : Store.get 0 (refilled effs wts deliv s k).intake.c j = Store.get 0 s.intake.c j := by
  induction k with
  | zero => rfl
  | succ k ih =>
    rw [refilled, foldS_range_succ]
    exact (Store.get_put_ne _ _ _ _ (by omega)).trans (ih (by omega))

/-- A requester's guaranteed account after the refill. -/
theorem refilled_c {k j : Nat} (hj : j < k) : Store.get 0 (refilled effs wts deliv s k).intake.c j =
    min ((s.rd F.ITK_REQ_BURST j * 1024 : Nat) : Int) (Store.get 0 s.intake.c j + (s.rd F.ITK_EFF_EFF j : Int)) := by
  induction k with
  | zero => exact absurd hj (Nat.not_lt_zero j)
  | succ k ih =>
    rw [refilled, foldS_range_succ]
    by_cases hjk : j = k
    · subst hjk
      refine (Store.get_put_same ..).trans ?_
      rw [← refilled_rd effs wts deliv s j F.ITK_REQ_BURST j, ← refilled_rd effs wts deliv s j F.ITK_EFF_EFF j,
        ← refilled_c_later effs wts deliv s (Nat.le_refl j), Int.natCast_mul]
      rfl
    · exact (Store.get_put_ne _ _ _ _ hjk).trans (ih (by omega))

/-- A requester's share is bounded by its burst. -/
theorem refilled_h_le {k j : Nat} (hj : j < k) : Store.get 0 (refilled effs wts deliv s k).intake.h j ≤ ((s.rd F.ITK_REQ_BURST j * 1024 : Nat) : Int) := by
  induction k with
  | zero => exact absurd hj (Nat.not_lt_zero j)
  | succ k ih =>
    rw [refilled, foldS_range_succ]
    by_cases hjk : j = k
    · subst hjk
      refine Int.le_trans (Int.le_of_eq (Store.get_put_same ..)) (Int.le_trans (Int.min_le_left _ _) (Int.le_of_eq ?_))
      rw [← refilled_rd effs wts deliv s j F.ITK_REQ_BURST j, Int.natCast_mul]
      rfl
    · exact Int.le_trans (Int.le_of_eq (Store.get_put_ne _ _ _ _ hjk)) (ih (by omega))

end Refill

/-- A pseudo-channel's ordering point passes over a source that presents nothing. -/
theorem rotate_of_none {s : State} {n k : Nat} {ks : List Nat} (h : s.presented n k = []) : s.rotate n (k :: ks) = s.rotate n ks := by
  rw [State.rotate, h]
  rfl

/-- A pseudo-channel's ordering point takes the first request that it can accept of the source it stands at. -/
theorem rotate_of_accepted {s t : State} {n k : Nat} {ks : List Nat} {r : Req} {rs : List Req} (h : s.presented n k = r :: rs)
    (hr : (s.takeWaiting n r).acceptReq n r = some t) : s.rotate n (k :: ks) = some (k, t) := by
  rw [State.rotate, h, State.firstAccept, hr]

/-- s with every effective guarantee written where they fit the limit. -/
def refillBase (s : State) : State := (effsWritten s 64).wrB F.ITK_ERR_SCALED 0 false

/-- An effective guarantee that fits is the guarantee. -/
theorem refillBase_eff {s : State} (hfit : s.minSum ≤ s.limit) {j : Nat} (hj : j < 64) : (refillBase s).rd F.ITK_EFF_EFF j = s.rd F.ITK_REQ_MINBW j := by
  rw [refillBase, State.wrB, State.rd_wr_ne _ F.ITK_ERR_SCALED F.ITK_EFF_EFF _ _ _ (by
      change Reg.ITK_EFF.addr j ≠ Reg.ITK_ERR.addr 0
      simp only [Reg.addr, Reg.place]
      omega),
    effsWritten_rd s (Nat.le_refl 64) hj, State.effOf, if_pos hfit]
  exact Nat.mod_eq_of_lt (bits_lt _ F.ITK_REQ_MINBW.hi F.ITK_REQ_MINBW.lo)

theorem refillBase_burst (s : State) (j : Nat) : (refillBase s).rd F.ITK_REQ_BURST j = s.rd F.ITK_REQ_BURST j := by
  rw [refillBase, State.wrB, State.rd_wr_ne _ F.ITK_ERR_SCALED F.ITK_REQ_BURST _ _ _ (by
      change Reg.ITK_REQ.addr j ≠ Reg.ITK_ERR.addr 0
      simp only [Reg.addr, Reg.place]
      omega),
    effsWritten_rd_req s (Nat.le_refl 64) F.ITK_REQ_BURST rfl]

theorem refillBase_intake (s : State) : (refillBase s).intake = s.intake := by
  rw [refillBase, State.wrB_intake, effsWritten_intake]

theorem refillBase_mem (s : State) : (refillBase s).mem = s.mem := by
  rw [refillBase, State.wrB_mem, effsWritten_mem]

/-- The refill where the guarantees fit the limit. -/
theorem execIntakeRefill_of_fit {s : State} (hfit : s.minSum ≤ s.limit) (hscaled : s.flag F.ITK_ERR_SCALED 0 = false) :
    ∃ effs wts, execIntakeRefill s = .next (refilled effs wts (refillBase s).deliv (refillBase s) 64) := by
  refine ⟨(List.range 64).foldl (fun a j => a + (refillBase s).rd F.ITK_EFF_EFF j) 0, (List.range 64).foldl (fun a j => a + (refillBase s).rd F.ITK_REQ_WT j) 0, ?_⟩
  rw [execIntakeRefill]
  dsimp only
  rw [decide_eq_false (Nat.not_lt.mpr hfit), hscaled]
  rfl

/-- Settles O39: the head by its accounts, the refill requester by requester, and the ordering point by its rotation. -/
theorem requestsAreAdmittedAndAccepted : Obligations.RequestsAreAdmittedAndAccepted := by
  intro s src pc beats
  have hadmit : exec (.intakeAdmit src) s = .next (beats (s.admitHead src.val)) := rfl
  have haccept : exec (.orderingPointAccept pc) s = execOrderingPointAccept pc s := rfl
  rw [execOrderingPointAccept] at haccept
  refine ⟨fun hnone => ?_, ?_, fun r rest hhead hfull => ?_, fun hfit hscaled => ?_, fun hno => ?_, ?_, fun k ks r rs t hpres hacc => rotate_of_accepted hpres hacc,
    fun k ks hpres => rotate_of_none hpres⟩
  · rw [hadmit, State.admitHead, hnone]
  · intro r rest hhead hroom how
    rw [hadmit, admitHead_of_head hhead hroom]
    exact ⟨fun hgo => by rw [if_neg hgo], fun hheld => by rw [if_pos hheld]⟩
  · rw [hadmit, State.admitHead, hhead]
    dsimp only
    rw [State.admitNow, if_pos hfull]
  · obtain ⟨effs, wts, hrefill⟩ := execIntakeRefill_of_fit hfit hscaled
    refine ⟨_, hrefill, fun j hj => ⟨?_, ?_, ?_⟩, ?_⟩
    · rw [refilled_rd, refillBase_eff hfit hj]
    · rw [← refillBase_burst s j]
      exact refilled_h_le _ _ _ _ hj
    · rw [refilled_c _ _ _ _ hj, refillBase_burst, refillBase_intake, refillBase_eff hfit hj]
    · rw [refilled_mem, refillBase_mem]
  · exact haccept.trans (if_neg fun h => Bool.false_ne_true (hno.symm.trans h))
  · intro htakes order
    have haccept := haccept.trans (if_pos htakes)
    dsimp only at haccept
    refine ⟨fun k t hrot => ?_, fun hrot => ?_⟩
    · rw [haccept, show s.rotate pc.val _ = some (k, t) from hrot]
      rfl
    · rw [haccept, show s.rotate pc.val _ = none from hrot]

end Sys2Proof.Proofs

/-! A pseudo-channel and its queue (10_rills.md R287 to R293; 12_data_integrity.md R341, R354, R355). -/
namespace Sys2Proof.Proofs
open Sys2Proof Sys2Proof.Machine

/-! ## The command that issues (R287, R288) -/

/-- Where one element of a list alone has a result, the search finds it. -/
theorem findSome?_of_unique {α β : Type} {f : α → Option β} {l : List α} {k : α} {x : β} (hk : k ∈ l) (hf : f k = some x)
    (hother : ∀ j ∈ l, j ≠ k → f j = none) : l.findSome? f = some x := by
  induction l with
  | nil => exact absurd hk List.not_mem_nil
  | cons j l ih =>
    by_cases hjk : j = k
    · rw [List.findSome?_cons, hjk, hf]
    · rw [List.findSome?_cons, hother j List.mem_cons_self hjk]
      exact ih ((List.mem_cons.mp hk).resolve_left (Ne.symm hjk)) fun i hi => hother i (List.mem_cons_of_mem _ hi)

/-- A command clock of a rill that runs. -/
theorem exec_rillCommandIssue_of_runs {s : State} {pc : Pc} {ready : Ready} (hrun : s.rillRuns pc.val = true) {u : State}
    (hu : u = (s.updPc pc.val fun p => { p with clocks := (p.clocks + 1) % 64 }).wrB F.PC_STAT_DRAIN pc.val (s.drainNow pc.val)) :
    exec (.rillCommandIssue pc ready) s =
      .next ((((s.pc pc.val).tiers s.sched.scrubPrec).findSome? fun t => u.chooseTier pc.val ready t).getD u) := by
  have hissue : exec (.rillCommandIssue pc ready) s = execRillCommandIssue pc ready s := rfl
  rw [execRillCommandIssue] at hissue
  dsimp only at hissue
  rw [hissue, if_pos hrun, ← hu]
  cases ((s.pc pc.val).tiers s.sched.scrubPrec).findSome? fun t => u.chooseTier pc.val ready t <;> rfl

/-- Tier 1 is looked at first. -/
theorem tiers_head (p : PcState) (opened : Bool) : ∃ l, p.tiers opened = 1 :: l := by
  unfold PcState.tiers
  split
  · exact ⟨_, rfl⟩
  · exact ⟨_, rfl⟩

/-- The tiers of the queue's requests and the tiers of refreshes are all looked at. -/
theorem mem_tiers {p : PcState} {opened : Bool} {t : Nat} (h : t ∈ [1, 2, 3, 4, 5, 6, 7, 8, 10]) : t ∈ p.tiers opened := by
  unfold PcState.tiers
  split
  · simp only [List.mem_cons, List.not_mem_nil, or_false] at h ⊢
    omega
  · exact h

/-- The tier of a request is one of the tiers of requests. -/
theorem tierOf_mem (s : State) (e : Entry) : s.tierOf e ∈ [2, 3, 4, 5, 6, 8, 10] := by
  unfold State.tierOf
  split
  · decide
  · decide
  · decide
  · decide
  · split
    · decide
    · split <;> decide

section Choose
variable {s : State} {n : Nat} {ready : Ready}

/-- A closed bank with eight refreshes owed is refreshed where no bank before it has a refresh that cannot wait. -/
theorem chooseTier_one_of_due {b : Nat} (hb : b < 80) (hfirst : ∀ c < b, ((s.pc n).bank c).rfm = false ∧ ((s.pc n).bank c).owed ≠ 8)
    (hrow : ((s.pc n).bank b).row = none) (hrfm : ((s.pc n).bank b).rfm = false) (howed : ((s.pc n).bank b).owed = 8)
    (hready : ready.ref.getLsbD b = true) : s.chooseTier n ready 1 = some (s.issueRef n b) := by
  have hfind : ((List.range 80).find? fun b =>
      (((s.pc n).bank b).rfm || ((s.pc n).bank b).owed == 8) &&
        (if ((s.pc n).bank b).row.isNone then ready.ref.getLsbD b else !([] : List Nat).contains b && s.mayClose n ready b)) = some b := by
    rw [List.find?_range_eq_some]
    refine ⟨by rw [hrow, howed, hready]; simp, List.mem_range.mpr hb, fun c hc => ?_⟩
    obtain ⟨hc1, hc2⟩ := hfirst c hc
    simp [hc1, hc2]
  rw [State.chooseTier, if_pos rfl, State.chooseRef]
  rw [hfind]
  simp [hrow, hrfm]

/-- No refresh issues where no bank wants one. -/
theorem chooseRef_of_none {want : Bank → Bool} {keep : List Nat} (h : ∀ b < 80, want ((s.pc n).bank b) = false) :
    s.chooseRef n ready want keep = none := by
  have hfind : ((List.range 80).find? fun b =>
      want ((s.pc n).bank b) && (if ((s.pc n).bank b).row.isNone then ready.ref.getLsbD b else !keep.contains b && s.mayClose n ready b)) = none := by
    rw [List.find?_eq_none]
    intro b hb
    rw [h b (List.mem_range.mp hb)]
    exact Bool.false_ne_true
  rw [State.chooseRef, hfind]

/-- No request, no command. -/
theorem chooseReq_nil {keep : List Nat} : s.chooseReq n ready keep [] = none := rfl

/-- A request alone at an open row gets its column command. -/
theorem chooseReq_of_open {keep : List Nat} {e : Entry} {g : Nat} (hremap : s.remapOf (s.gloc g) = none) (hopen : s.openFor n g = true)
    (hready : readyCol ready e (s.bankG g) = true) : s.chooseReq n ready keep [(0, e, g)] = some (s.column n 0 g e) := by
  rw [State.chooseReq]
  simp [hremap, hopen, hready]

/-- A request's tier, where its request is alone in the queue, is that of its column command. -/
theorem chooseTier_of_alone {e : Entry} {g : Nat} (halone : (s.pc n).candidates = [(0, e, g)]) (hremap : s.remapOf (s.gloc g) = none)
    (hopen : s.openFor n g = true) (hready : readyCol ready e (s.bankG g) = true) :
    s.chooseTier n ready (s.tierOf e) = some (s.column n 0 g e) := by
  have hne : s.tierOf e ≠ 1 ∧ s.tierOf e ≠ 7 := by
    have h := tierOf_mem s e
    constructor <;> intro heq <;> rw [heq] at h <;> exact absurd h (by decide)
  rw [State.chooseTier, if_neg hne.1, if_neg hne.2, halone]
  cases hkind : e.req.kind == .rd <;> cases hdrain : s.flag F.PC_STAT_DRAIN n <;>
    simp [hkind, bne, chooseReq_nil, chooseReq_of_open hremap hopen hready]

/-- Every other tier has no command for it. -/
theorem chooseTier_of_other {e : Entry} {g t : Nat} (halone : (s.pc n).candidates = [(0, e, g)])
    (hquiet : ∀ b < 80, ((s.pc n).bank b).rfm = false ∧ ((s.pc n).bank b).owed = 0) (ht : t ≠ s.tierOf e) : s.chooseTier n ready t = none := by
  have hreq : ∀ keep, s.chooseReq n ready keep [] = none := fun _ => chooseReq_nil
  by_cases h1 : t = 1
  · rw [State.chooseTier, if_pos h1]
    exact chooseRef_of_none fun b hb => by simp [hquiet b hb]
  · by_cases h7 : t = 7
    · rw [State.chooseTier, if_neg h1, if_pos h7]
      split
      · rfl
      · exact chooseRef_of_none fun b hb => by simp [hquiet b hb]
    · rw [State.chooseTier, if_neg h1, if_neg h7, halone]
      cases s.flag F.PC_STAT_DRAIN n <;> simp [Ne.symm ht, hreq]

end Choose

/-! ## What returns (R341, R347, R354) -/

/-- A verify read that comes back goes by what it decodes to. -/
theorem execVerifyReadReturn_of_flight {s : State} {pc : Pc} {fl : List (Nat × Byte)} {f : Flight} {g : Nat} {w : Bytes} {rest : List (Nat × Bytes)}
    (hfind : (s.pc pc.val).flights.find? (fun f => f.req.origin == .verify) = some f) (hraws : f.raws = (g, w) :: rest) {u : State}
    (hu : u = s.updPc pc.val fun q => { q with flights := dropFirst (fun f => f.req.origin == .verify) q.flights }) :
    execVerifyReadReturn pc fl s =
      if f.newer.contains g then .next u
      else
        let t := (u.decode g (2 ^ 64 - 1) (flipBytes w fl) 3 0 (if u.freeRemap.isSome then .none else .all)).1
        match u.decodeBytes g (2 ^ 64 - 1) (flipBytes w fl) with
        | .corrected d _ _ _ => .next (t.hardError g (some d))
        | .uncorrectable _ => .next (t.hardError g none)
        | _ => .next t := by
  rw [execVerifyReadReturn, State.takeFlight, hfind, ← hu]
  dsimp only
  rw [hraws] <;> rfl

/-- A read that comes back, verify reads apart, goes by what it was for. -/
theorem execReadDataReturn_of_flight {s : State} {pc : Pc} {fl : List (Nat × Byte)} {f : Flight}
    (hfind : (s.pc pc.val).flights.find? (fun f => f.req.origin != .verify) = some f) {u : State}
    (hu : u = s.updPc pc.val fun q => { q with flights := dropFirst (fun f => f.req.origin != .verify) q.flights }) :
    execReadDataReturn pc fl s =
      match f.req.origin with
      | .scrub => .next (u.decodeRuns f.req f.newer 1 fl 0 (f.raws.map fun e => (e.1, xorBytes e.2 f.req.data))).1
      | .census _ _ =>
        .next ((u.decodeRuns { f.req with label := 0 } f.newer 4 fl 0 f.raws).1.finishRead f.req
          (f.got ++ (u.decodeRuns { f.req with label := 0 } f.newer 4 fl 0 f.raws).2) false).censusDone
      | _ => .next ((u.decodeRuns f.req f.newer 0 fl 0 f.raws).1.finishRead f.req (f.got ++ (u.decodeRuns f.req f.newer 0 fl 0 f.raws).2) true) := by
  rw [execReadDataReturn, State.takeFlight, hfind, ← hu] <;> rfl

/-- A change of a pseudo-channel is what it does to the pseudo-channel as it is. -/
theorem updPc_congr {s : State} {n : Nat} {f g : PcState → PcState} (h : f (s.pc n) = g (s.pc n)) : s.updPc n f = s.updPc n g := by
  rw [State.updPc, h]
  rfl

/-- A closed deferral window shows closed. -/
theorem setDefer_flag (s : State) : (s.setDefer false).flag F.SCH_STAT_DEFER 0 = false := by
  change ((s.wrB F.SCH_STAT_DEFER 0 false).rd F.SCH_STAT_DEFER 0 == 1) = false
  rw [State.wrB, State.rd_wr_same _ F.SCH_STAT_DEFER _ _ (by decide)]
  rfl

/-- A refresh that falls due on a bank of a rill that runs is owed, up to eight, and nothing else changes. -/
theorem execRefreshAccrual_of_runs {s : State} {pc : Pc} {b : Fin 80} (hrun : s.rillRuns pc.val = true) :
    execRefreshAccrual pc b s = .next (s.updPc pc.val fun p =>
      p.setBank b.val { (p.bank b.val) with owed := Nat.min 8 ((p.bank b.val).owed + 1) }) := by
  have hst : s.pcSt pc.val ≠ 2 := by
    intro h
    rw [State.rillRuns, h] at hrun
    exact Bool.false_ne_true hrun
  rw [execRefreshAccrual]
  simp [hrun, hst]

/-- Settles O40: the tiers in their order, what returns by what it was for, and the scrub page by page. -/
theorem rillsServeTheirQueues : Obligations.RillsServeTheirQueues := by
  refine ⟨?_, ?_⟩
  · intro s pc n
    refine ⟨fun ready hno => if_neg fun h => Bool.false_ne_true (hno.symm.trans h), ?_, fun k e hk hbg => ?_, ?_, fun fl hnone => ?_,
      fun m rest fl hm hroom => ?_, ?_, fun b hrun => ?_⟩
    · intro ready hrun u
      have hissue := exec_rillCommandIssue_of_runs (ready := ready) hrun (u := u) rfl
      refine ⟨fun t ht => by rw [hissue, ht]; rfl, fun hnone => by rw [hissue, hnone]; rfl, fun b hfirst hrow hrfm howed href => ?_,
        fun e g halone hquiet hremap hopen hcol => ?_⟩
      · obtain ⟨l, hl⟩ := tiers_head (s.pc pc.val) s.sched.scrubPrec
        rw [hissue, hl, List.findSome?_cons, show u.chooseTier pc.val ready 1 = _ from chooseTier_one_of_due b.isLt hfirst hrow hrfm howed href]
        rfl
      · have htier : u.tierOf e ∈ (s.pc pc.val).tiers s.sched.scrubPrec := by
          have h := tierOf_mem u e
          refine mem_tiers ?_
          simp only [List.mem_cons, List.not_mem_nil, or_false] at h ⊢
          omega
        rw [hissue, findSome?_of_unique htier (chooseTier_of_alone halone hremap hopen hcol) fun t _ ht => chooseTier_of_other halone hquiet ht]
        rfl
    · refine congrArg Host.Outcome.next (updPc_congr ?_)
      simp only [n] at hk
      rw [hk]
      dsimp only
      rw [hbg]
      rfl
    · intro f fl hfind u data known
      have hret : exec (.readDataReturn pc fl) s = _ := execReadDataReturn_of_flight (fl := fl) hfind (u := u) rfl
      refine ⟨fun horigin => by rw [hret, horigin], fun i k horigin => by rw [hret, horigin], fun hscrub hcensus => ?_⟩
      rw [hret]
      split
      next h => exact absurd h hscrub
      next h => exact absurd h (hcensus _ _)
      next => rfl
    · change execReadDataReturn pc fl s = _
      rw [execReadDataReturn, State.takeFlight, hnone]
    · change execMergeReadReturn pc fl s = _
      rw [execMergeReadReturn, show (s.pc pc.val).merges = m :: rest from hm]
      exact if_pos hroom
    · intro f g w rest fl hfind hraws u x d t
      have hret : exec (.verifyReadReturn pc fl) s = _ := execVerifyReadReturn_of_flight (fl := fl) hfind hraws (u := u) rfl
      refine ⟨fun hnew => hret.trans (if_pos hnew), fun hold => ?_⟩
      have hret := hret.trans (if_neg fun h => Bool.false_ne_true (hold.symm.trans h))
      refine ⟨fun y hd => ?_, fun y a b c hd => ?_, fun a hd => ?_⟩
      · rw [hret]
        dsimp only
        rw [show u.decodeBytes g (2 ^ 64 - 1) (flipBytes w fl) = .clean y from hd]
      · rw [hret]
        dsimp only
        rw [show u.decodeBytes g (2 ^ 64 - 1) (flipBytes w fl) = .corrected y a b c from hd]
      · rw [hret]
        dsimp only
        rw [show u.decodeBytes g (2 ^ 64 - 1) (flipBytes w fl) = .uncorrectable a from hd]
    · refine ⟨_, execRefreshAccrual_of_runs hrun, ?_, fun c hc => ?_, fun m hm => State.pc_updPc_ne s _ hm, rfl, rfl⟩
      · rw [State.pc_updPc_same, PcState.setBank, PcState.bank, Store.get_put_same]
      · rw [State.pc_updPc_same, PcState.setBank, PcState.bank, Store.get_put_ne _ _ _ _ hc]
        rfl
  · intro s pc n
    refine ⟨fun fl hper => ?_, ?_, rfl, fun hdefer => ⟨congrArg Host.Outcome.next (if_pos hdefer), ?_⟩,
      fun hdefer => congrArg Host.Outcome.next (if_neg fun h => Bool.false_ne_true (hdefer.symm.trans h))⟩
    · change execScrubPage pc fl s = _
      rw [execScrubPage]
      simp [hper]
    · intro fl hst hfence hper hmap hq page u
      have hscrub : exec (.scrubPage pc fl) s = execScrubPage pc fl s := rfl
      rw [execScrubPage] at hscrub
      dsimp only at hscrub
      rw [if_pos (by simp [n, hst, hfence, hper, hmap, hq])] at hscrub
      exact ⟨fun hmore => hscrub.trans (if_pos hmore), fun hlast => hscrub.trans (if_neg (Nat.not_lt.mpr hlast))⟩
    · exact setDefer_flag s

end Sys2Proof.Proofs

/-! States of a pseudo-channel (03_address_map.md R84; 10_rills.md R300 to R306). -/
namespace Sys2Proof.Proofs
open Sys2Proof Sys2Proof.Machine

section SelfRefresh
variable {s : State} {pc : Pc} (hwant : s.wantsRefresh = true) (hst : s.pcSt pc.val = 1 ∨ s.pcSt pc.val = 2)
include hwant hst

/-- Self-refresh is entered where it is wanted, the entry into a power state begun first. -/
theorem execSelfRefreshEnter_of_wanted : execSelfRefreshEnter pc s = .next ((match s.boot.entry with
    | some k => if s.boot.entering || s.phase == 9 || s.power.shut == 1 then s else s.beginEntry k
    | none => s).intoSelfRefresh pc.val).refreshed := by
  refine if_pos ?_
  rw [hwant]
  rcases hst with h | h <;> rw [h] <;> rfl

end SelfRefresh

/-- Self-refresh is left where nothing keeps it. -/
theorem execSelfRefreshExit_of_free {s : State} {pc : Pc} {a b : Bool} (hst : s.pcSt pc.val = 3 ∨ s.pcSt pc.val = 4) (hphase : s.phase = 8)
    (hshut : s.power.shut = 0) (hentry : s.boot.entry = none) (hcur : s.cur < 3) (hswitch : s.flag F.CAL_STAT_SWITCH 0 = false) {t u : State}
    (ht : t = s.outOfSelfRefresh pc.val a b) (hu : u = if t.pcSt pc.val = 3 ∨ t.pcSt pc.val = 4 then t.wr F.PC_STAT_STATE pc.val 0 else t) :
    execSelfRefreshExit pc a b s = .next (if s.pcSt pc.val = 4 then u.emit Ev.CRESET_DONE (Un.pc pc.val) 0 0 else u).tryReady.serveWaits := by
  subst hu ht
  refine if_pos ⟨hst, ?_⟩
  rw [hphase, hshut, hentry, hswitch, decide_eq_false (Nat.not_le.mpr hcur)]
  rfl

/-- CRESET as PC_CTL takes it. -/
theorem wPcCtl_creset (s : State) (n : Nat) : s.wPcCtl n 1 =
    if s.pcSt n = 1 then
      (((s.intoSelfRefresh n).resetRegs [.PC_CTL, .PC_STAT, .PC_REFSTAT] n).wr F.PC_STAT_SPARE n ((s.intoSelfRefresh n).rd F.PC_STAT_SPARE n)).wr
        F.PC_STAT_STATE n 4
    else s.schRefuse 12 := if_neg (by decide)

/-- Settles O41: each command by the state that the pseudo-channel shows. -/
theorem rillsChangeState : Obligations.RillsChangeState := by
  intro s pc n
  refine ⟨rfl, rfl, fun hfence => if_pos hfence, fun hst hps hq => ?_, fun hans => ⟨fun hst => ?_, fun hst => ?_⟩,
    fun hwant hst => ⟨fun hentry => ?_, fun k hentry hent hphase hshut => ?_⟩, fun a b h3 h4 => if_neg fun h => ?_,
    fun a b hst hphase hshut hentry hcur hswitch => ?_, fun m hnone => ?_, fun m a hgrant => ⟨fun huse => ?_, fun huse => ?_⟩⟩
  · refine if_pos ?_
    rw [show s.pcSt pc.val = 1 from hst, hps, show (s.pc pc.val).queue = [] from hq]
    rfl
  · change execCreset pc s = _
    rw [execCreset, hostWrite_of_answers _ hans, wPcCtl_creset, if_pos hst]
  · change execCreset pc s = _
    rw [execCreset, hostWrite_of_answers _ hans, wPcCtl_creset, if_neg hst]
  · refine (execSelfRefreshEnter_of_wanted hwant hst).trans ?_
    rw [hentry]
  · refine (execSelfRefreshEnter_of_wanted hwant hst).trans ?_
    rw [hentry]
    dsimp only
    rw [hent, beq_eq_false_iff_ne.mpr hphase, beq_eq_false_iff_ne.mpr hshut, Bool.or_self, Bool.or_self, if_neg Bool.false_ne_true]
  · exact h.1.elim h3 h4
  · exact execSelfRefreshExit_of_free hst hphase hshut hentry hcur hswitch rfl rfl
  · change execSpareHandover m s = _
    rw [execSpareHandover, hnone]
  · change execSpareHandover m s = _
    rw [execSpareHandover, hgrant]
    exact congrArg (fun t : State => Host.Outcome.next ((t.setSpare m.val a.use (a.leg / 2)).startAct a)) (if_neg (not_not_intro huse))
  · change execSpareHandover m s = _
    rw [execSpareHandover, hgrant]
    exact congrArg (fun t : State => Host.Outcome.next ((t.setSpare m.val a.use (a.leg / 2)).startAct a)) (if_pos huse)

/-! ## Settings (00_scope.md R16; 03_address_map.md R90; 10_rills.md R307; 11_intake_and_basin.md R336) -/

/-- The fields of a register lie apart. -/
theorem fields_apart (r : Reg) : r.fields.Pairwise fun f g => g.hi < f.lo ∨ f.hi < g.lo := by cases r <;> decide

/-- A list of fields written one after the other leaves a field that lies apart from them. -/
theorem of_foldl_setBits_apart {l : List Field} (x : Field → Nat) {f : Field} (hin : ∀ g ∈ l, g.lo ≤ g.hi)
    (hf : ∀ g ∈ l, f.hi < g.lo ∨ g.hi < f.lo) (a : Nat) : f.of (l.foldl (fun a g => setBits a g.hi g.lo (x g)) a) = f.of a := by
  induction l generalizing a with
  | nil => rfl
  | cons g l ih =>
    rw [List.foldl_cons, ih (fun k hk => hin k (List.mem_cons_of_mem _ hk)) fun k hk => hf k (List.mem_cons_of_mem _ hk)]
    exact bits_setBits_apart _ _ _ _ _ _ (hin g List.mem_cons_self) (hf g List.mem_cons_self)

/-- Of fields written one after the other, each holds what was written to it. -/
theorem of_foldl_setBits {l : List Field} (x : Field → Nat) {f : Field} (hin : ∀ g ∈ l, g.lo ≤ g.hi)
    (hl : l.Pairwise fun f g => g.hi < f.lo ∨ f.hi < g.lo) (hf : f ∈ l) (a : Nat) :
    f.of (l.foldl (fun a g => setBits a g.hi g.lo (x g)) a) = x f % 2 ^ (f.hi + 1 - f.lo) := by
  induction l generalizing a with
  | nil => exact absurd hf List.not_mem_nil
  | cons g l ih =>
    obtain ⟨hg, hl⟩ := List.pairwise_cons.mp hl
    have hin' : ∀ k ∈ l, k.lo ≤ k.hi := fun k hk => hin k (List.mem_cons_of_mem _ hk)
    rw [List.foldl_cons]
    rcases List.mem_cons.mp hf with rfl | hf
    · rw [of_foldl_setBits_apart x hin' fun k hk => (hg k hk).symm]
      exact bits_setBits_same _ _ _ _ (hin f List.mem_cons_self)
    · exact ih hin' hl hf _

/-- The value that a register would hold after a write, field by field. -/
theorem of_proposed (s : State) {r : Reg} {f : Field} (hf : f ∈ r.fields) (i v : Nat) (run : Bool) :
    f.of (s.proposed r i v run) = (f.accAt i).store run (f.of (s.reg r i)) (f.of v) % 2 ^ (f.hi + 1 - f.lo) :=
  of_foldl_setBits (fun f => (f.accAt i).store run (bits (s.reg r i) f.hi f.lo) (bits v f.hi f.lo)) (fun g hg => (Reg.fields_within r g hg).1)
    (fields_apart r) hf (s.reg r i)

/-- A field that software writes freely would hold what is written. -/
theorem of_proposed_rw (s : State) {r : Reg} {f : Field} (hf : f ∈ r.fields) (i v : Nat) (run : Bool) (hrw : f.accAt i = .RW) :
    f.of (s.proposed r i v run) = f.of v := by
  rw [of_proposed s hf, hrw]
  exact Nat.mod_eq_of_lt (bits_lt v f.hi f.lo)

/-- DEADCLR with the other fields as they are is a write that BAS_CFG takes. -/
theorem wBasCfg_deadclr {s : State} (hpin : s.rd F.BAS_CFG_PINCAP 0 ≤ 75) (hfloor : s.rd F.BAS_CFG_FLOOR 0 ≤ 100) (hguard : 1 ≤ s.rd F.BAS_CFG_GUARD 0)
    (hguard' : s.rd F.BAS_CFG_GUARD 0 ≤ 75) : s.wBasCfg (setBits (s.reg .BAS_CFG 0) 7 7 1) =
      let t := s.storeReg .BAS_CFG 0 (setBits (s.reg .BAS_CFG 0) 7 7 1) false
      { t with basin := { t.basin with dead := [], deadWas := false } } := by
  have hkeep : ∀ f : Field, f ∈ Reg.BAS_CFG.fields → f.accAt 0 = .RW → f.hi < 7 ∨ 7 < f.lo → f.reg = .BAS_CFG →
      f.of (s.proposed .BAS_CFG 0 (setBits (s.reg .BAS_CFG 0) 7 7 1) false) = s.rd f 0 := fun f hf hrw hap hreg => by
    rw [of_proposed_rw s hf _ _ _ hrw, State.rd, hreg]
    exact bits_setBits_apart _ _ _ _ _ _ (Nat.le_refl 7) hap
  have hP := hkeep F.BAS_CFG_PINCAP (by decide) rfl (by decide) rfl
  have hF := hkeep F.BAS_CFG_FLOOR (by decide) rfl (by decide) rfl
  have hG := hkeep F.BAS_CFG_GUARD (by decide) rfl (by decide) rfl
  have hset : F.BAS_CFG_DEADCLR.of (setBits (s.reg .BAS_CFG 0) 7 7 1) = 1 := bits_setBits_same _ 7 7 1 (Nat.le_refl 7)
  have hcode : firstCode [(decide (75 < s.rd F.BAS_CFG_PINCAP 0), 1), (decide (100 < s.rd F.BAS_CFG_FLOOR 0), 2),
      (s.rd F.BAS_CFG_GUARD 0 == 0 || decide (75 < s.rd F.BAS_CFG_GUARD 0), 3)] = 0 := by
    rw [decide_eq_false (by omega), decide_eq_false (by omega), beq_eq_false_iff_ne.mpr (by omega), decide_eq_false (by omega)]
    rfl
  rw [State.wBasCfg]
  dsimp only
  rw [hP, hF, hG, hcode, hset]
  rfl

/-- A write that is stored leaves what is not a register, but for the events. -/
theorem storeReg_cases (s : State) (r : Reg) (i v : Nat) (run : Bool) :
    s.storeReg r i v run = s.setReg r i (s.proposed r i v run) ∨
      s.storeReg r i v run = (s.setReg r i (s.proposed r i v run)).emit Ev.RWS_DISCARD Un.inst (r.addr i) 0 := by
  unfold State.storeReg
  dsimp only
  split
  · exact .inr rfl
  · exact .inl rfl

/-- PRIVILEGED regions and byte-check windows are judged on what they would store (R90, R92). -/
theorem wPreg_eq (s : State) (i v : Nat) :
    s.wPreg i v = if s.pregError i (F.GLB_PREG_EN.of (s.proposed .GLB_PREG i v s.anyOpen) == 1) (F.GLB_PREG_BASE.of (s.proposed .GLB_PREG i v s.anyOpen))
        (F.GLB_PREG_SIZE.of (s.proposed .GLB_PREG i v s.anyOpen)) = 0 then s.storeReg .GLB_PREG i v s.anyOpen
      else s.mapRefuse (s.pregError i (F.GLB_PREG_EN.of (s.proposed .GLB_PREG i v s.anyOpen) == 1)
        (F.GLB_PREG_BASE.of (s.proposed .GLB_PREG i v s.anyOpen)) (F.GLB_PREG_SIZE.of (s.proposed .GLB_PREG i v s.anyOpen))) i := by
  rw [State.wPreg]
  split
  next h => rw [if_pos h]
  next h => rw [if_neg h]

theorem wBcw_eq (s : State) (i v : Nat) :
    s.wBcw i v = if s.bcwError i (F.GLB_BCW_EN.of (s.proposed .GLB_BCW i v s.anyOpen) == 1) (F.GLB_BCW_BASE.of (s.proposed .GLB_BCW i v s.anyOpen))
        (F.GLB_BCW_SIZE.of (s.proposed .GLB_BCW i v s.anyOpen)) = 0 then s.storeReg .GLB_BCW i v s.anyOpen
      else s.mapRefuse (s.bcwError i (F.GLB_BCW_EN.of (s.proposed .GLB_BCW i v s.anyOpen) == 1)
        (F.GLB_BCW_BASE.of (s.proposed .GLB_BCW i v s.anyOpen)) (F.GLB_BCW_SIZE.of (s.proposed .GLB_BCW i v s.anyOpen))) i := by
  rw [State.wBcw]
  split
  next h => rw [if_pos h]
  next h => rw [if_neg h]

theorem wTmg_eq (s : State) (r : Reg) (f v : Nat) :
    s.wTmg r f v = if tmgCode r (s.proposed r f v (s.tmgRuns f)) = 0 then (s.storeReg r f v (s.tmgRuns f)).updDeliv
      else s.schRefuse (tmgCode r (s.proposed r f v (s.tmgRuns f))) := by
  rw [State.wTmg]
  split
  next h => rw [if_pos h]
  next h => rw [if_neg h]

/-- The first check that holds gives the code. -/
theorem firstCode_cons_true (c : Nat) (l : List (Bool × Nat)) : firstCode ((true, c) :: l) = c := rfl

/-- A check that does not hold is passed over. -/
theorem firstCode_cons_false (c : Nat) (l : List (Bool × Nat)) : firstCode ((false, c) :: l) = firstCode l := rfl

/-- Without a check that holds there is no code. -/
theorem firstCode_nil : firstCode [] = 0 := rfl

section Requester
variable {s : State} {j v : Nat}

/-- A burst of 0 is refused. -/
theorem wItkReq_of_zero (hzero : F.ITK_REQ_BURST.of (s.proposed .ITK_REQ j v false) = 0) : s.wItkReq j v true = s.itkRefuse 2 j := by
  rw [State.wItkReq, beq_iff_eq.mpr hzero, firstCode_cons_true]
  rfl

/-- A guarantee that does not grow is stored. -/
theorem wItkReq_of_fit (hburst : F.ITK_REQ_BURST.of (s.proposed .ITK_REQ j v false) ≠ 0)
    (hmin : F.ITK_REQ_MINBW.of (s.proposed .ITK_REQ j v false) ≤ s.rd F.ITK_REQ_MINBW j) :
    s.wItkReq j v true =
      let t := s.storeReg .ITK_REQ j v false
      { t with intake := { t.intake with c := Store.erase t.intake.c j, h := Store.erase t.intake.h j } } := by
  rw [State.wItkReq, decide_eq_false (Nat.not_lt.mpr hmin), beq_eq_false_iff_ne.mpr hburst, Bool.and_false, Bool.false_and, firstCode_cons_false,
    firstCode_cons_false, firstCode_nil]
  rfl

end Requester

/-- A remap with a port open is refused. -/
theorem wMapCtl_of_open {s : State} (hopen : s.anyOpen = true) : s.wMapCtl 1 = s.mapRefuse 10 0 := by
  rw [State.wMapCtl, if_neg (by decide), hopen]
  rfl

/-- A remap with every port closed, no fill, and every spout stopped builds a new map. -/
theorem wMapCtl_of_closed {s : State} (hopen : s.anyOpen = false) (hbusy : s.flag F.GLB_MAPSTAT_BUSY 0 = false) (hstop : s.spoutsStopped = true)
    (hstack : s.stackOk = true) : s.wMapCtl 1 = (s.abortAll 4).newMap := by
  rw [State.wMapCtl, if_neg (by decide), hopen, hbusy, hstop, hstack, if_neg (by decide), if_neg (by decide)]

/-- A pinning window of few lookups shows 255. -/
theorem execPinWindowEnd_of_few {s : State} (hfew : s.basin.lookups < 1024) : execPinWindowEnd s =
    .next (({ s with basin := { s.basin with lookups := 0, hits := 0 } } : State).wr F.BAS_STAT_UHIT 0 0xFF) := if_pos hfew

/-- A pinning window of enough lookups shows its hit rate, and nothing of the basin but its counts changes. -/
theorem execPinWindowEnd_of_many {s : State} (hmany : 1024 ≤ s.basin.lookups) : ∃ t b, execPinWindowEnd s = .next t ∧
    t.basin = { s.basin with lookups := 0, hits := 0 } ∧ t.rd F.BAS_STAT_UHIT 0 =
      ((({ s with basin := { s.basin with lookups := 0, hits := 0 } } : State).wr F.BAS_STAT_UHIT 0 (s.basin.hits * 100 / s.basin.lookups)).wrB
        F.BAS_STAT_REFUSING 0 b).rd F.BAS_STAT_UHIT 0 := by
  rw [execPinWindowEnd]
  dsimp only
  rw [if_neg (Nat.not_lt.mpr hmany)]
  repeat' split
  · exact ⟨_, _, rfl, by rw [State.emit_basin, State.wrB_basin, State.wr_basin], State.emit_rd ..⟩
  · exact ⟨_, _, rfl, by rw [State.emit_basin, State.wrB_basin, State.wr_basin], State.emit_rd ..⟩
  · exact ⟨_, _, rfl, by rw [State.wrB_basin, State.wr_basin], rfl⟩

/-- Settles O42: each setting judged on the value it would store. -/
theorem settingsAreChecked : Obligations.SettingsAreChecked := by
  refine ⟨?_, fun s v hans => ⟨fun hbusy hbase => ?_, fun hbusy => ?_⟩⟩
  · intro s i j k f v p w q cp cw
    refine ⟨fun hans => ?_, fun hans => ?_, ?_, fun hans => ⟨fun hzero => ?_, ?_⟩, fun hans => ⟨fun hopen => ?_, fun hopen hbusy hstop hstack => ?_⟩,
      fun hans hpin hfloor hguard hguard' => ?_, fun hfew => ?_, fun hmany hle => ?_⟩
    · change execPregWrite i v s = _
      rw [execPregWrite, hostWrite_of_answers _ hans, wPreg_eq]
    · change execBcwWrite i v s = _
      rw [execBcwWrite, hostWrite_of_answers _ hans, wBcw_eq]
    · intro hans c
      change execSchTmgWrite k f v s = _
      rw [execSchTmgWrite, hostWrite_of_answers _ hans, wTmg_eq]
    · change execItkReqWrite j v s = _
      rw [execItkReqWrite, hostWrite_of_answers _ hans, wItkReq_of_zero hzero]
    · intro hburst hmin t
      change execItkReqWrite j v s = _
      rw [execItkReqWrite, hostWrite_of_answers _ hans, wItkReq_of_fit hburst hmin]
    · change execRemap s = _
      rw [execRemap, hostWrite_of_answers _ hans, wMapCtl_of_open hopen]
    · change execRemap s = _
      rw [execRemap, hostWrite_of_answers _ hans, wMapCtl_of_closed hopen hbusy hstop hstack]
    · refine ⟨_, congrArg Host.Outcome.next ((hostWrite_of_answers _ hans).trans (congrArg State.ok (wBasCfg_deadclr hpin hfloor hguard hguard'))), ?_⟩
      rcases storeReg_cases s .BAS_CFG 0 (setBits (s.reg .BAS_CFG 0) 7 7 1) false with h | h <;> rw [h] <;> exact ⟨rfl, rfl, rfl⟩
    · refine ⟨_, execPinWindowEnd_of_few hfew, ?_, ?_, ?_, ?_, ?_⟩
      · exact State.rd_wr_same _ F.BAS_STAT_UHIT _ _ (by decide)
      · rw [State.wr_basin]
      · rw [State.wr_basin]
      · rw [State.wr_basin]
      · exact State.rd_wr_apart _ F.BAS_STAT_UHIT F.BAS_STAT_REFUSING _ _ (by decide) rfl (by decide)
    · obtain ⟨t, b, ht, hbasin, hrd⟩ := execPinWindowEnd_of_many hmany
      refine ⟨t, ht, ?_, by rw [hbasin], by rw [hbasin]⟩
      rw [hrd, State.wrB, State.rd_wr_apart _ F.BAS_STAT_REFUSING F.BAS_STAT_UHIT _ _ (by decide) rfl (by decide),
        State.rd_wr_same _ F.BAS_STAT_UHIT _ _ (by decide)]
      refine Nat.mod_eq_of_lt ?_
      have hrate : s.basin.hits * 100 / s.basin.lookups ≤ 100 := Nat.div_le_of_le_mul (Nat.mul_le_mul_right 100 hle)
      exact Nat.lt_of_le_of_lt hrate (by decide)
  · refine congrArg Host.Outcome.next ((hostWrite_of_answers _ hans).trans (congrArg State.ok (if_pos ?_)))
    rw [hbusy, bne_iff_ne.mpr hbase]
    rfl
  · refine congrArg Host.Outcome.next ((hostWrite_of_answers _ hans).trans (congrArg State.ok (if_neg ?_)))
    rw [hbusy]
    exact Bool.false_ne_true

end Sys2Proof.Proofs

/-! Aqueduct ports and frames (13_aqueduct_ring.md R368 to R386). -/
namespace Sys2Proof.Proofs
open Sys2Proof Sys2Proof.Machine

/-! ## Port states -/

/-- A port in DETECT is sensed by either detection. -/
theorem detect_of_detecting {s : State} {n sense : Nat} (hst : s.aqSt n = 1) : s.detect n sense = s.detectFrom n sense := if_pos hst

/-- The state of a port is in its registers. -/
theorem aqSt_updAq (s : State) (n : Nat) (g : AqPort → AqPort) (m : Nat) : (s.updAq n g).aqSt m = s.aqSt m := rfl

section Codeword
variable {s : State} {p : APort}

/-- The count of uncorrectable codewords is not in the port's state. -/
theorem aqSt_bump_uncorr (k : Nat) : (s.bump F.AQD_CNT_UNCORR p.val k).aqSt p.val = s.aqSt p.val :=
  State.rd_wr_ne _ F.AQD_CNT_UNCORR F.AQD_STAT_STATE _ _ _ (by
    change Reg.AQD_STAT.addr p.val ≠ Reg.AQD_CNT.addr p.val
    simp only [Reg.addr, Reg.place]
    omega)

/-- In LOOP an uncorrectable codeword starts the window again. -/
theorem execUncorrectableCodeword_of_loop (hst : s.aqSt p.val = 2) : execUncorrectableCodeword p s =
    .next (((s.bump F.AQD_CNT_UNCORR p.val 1).updAq p.val fun a => { a with passed := false }).emit Ev.AQD_QUAL_RESTART (Un.aport p.val) 0 0) := by
  rw [execUncorrectableCodeword, aqSt_bump_uncorr, hst]
  rfl

/-- In UP an uncorrectable codeword joins those of the last 1 ms. -/
theorem execUncorrectableCodeword_of_up (hst : s.aqSt p.val = 4) {l : List Nat}
    (hl : ((s.aq p.val).codewords.filter fun t => decide (s.time.ticks < t + 100000)) ++ [s.time.ticks] = l) : execUncorrectableCodeword p s =
    .next (if 4 ≤ l.length then
      ((s.bump F.AQD_CNT_UNCORR p.val 1).updAq p.val fun a => { a with codewords := if 4 ≤ l.length then [] else l }).linkLoss p.val
      else (s.bump F.AQD_CNT_UNCORR p.val 1).updAq p.val fun a => { a with codewords := if 4 ≤ l.length then [] else l }) := by
  subst hl
  rw [execUncorrectableCodeword, aqSt_bump_uncorr, hst, if_neg (by decide), if_pos rfl, State.bump_time, State.bump_aq]

end Codeword

/-- Settles O43: each event by the state of its port. -/
theorem aqueductPortsTrain : Obligations.AqueductPortsTrain := by
  intro s p v n
  refine ⟨fun hst hon => ?_, ?_, ?_, fun hst => if_pos hst, fun hst => execUncorrectableCodeword_of_loop hst, fun hst hnone => ?_,
    fun hst a b c hthree ha hb hc => ?_, ?_, fun hst hup => ?_, fun hst => if_pos hst, fun hst => congrArg Host.Outcome.next (if_pos hst), ?_, ?_,
    fun hans => ⟨congrArg Host.Outcome.next (hostWrite_of_answers _ hans), congrArg Host.Outcome.next (hostWrite_of_answers _ hans)⟩,
    fun hans => ⟨congrArg Host.Outcome.next (hostWrite_of_answers _ hans), congrArg Host.Outcome.next (hostWrite_of_answers _ hans)⟩⟩
  · refine if_pos ?_
    rw [show s.aqSt p.val = 0 from hst, show s.domOn (56 + p.val) = true from hon]
    rfl
  · intro sense hst lanes seen
    have hdone : exec (.detectDone p sense) s = .next (s.detectFrom n sense.toNat) := congrArg Host.Outcome.next (detect_of_detecting hst)
    have hretry : exec (.detectRetry p sense) s = .next (s.detectFrom n sense.toNat) := congrArg Host.Outcome.next (detect_of_detecting hst)
    rw [hdone, hretry]
    refine ⟨fun hlanes => ?_, fun hnone hfirst => ?_, fun hnone hrec => ?_⟩
    · exact and_self_iff.mpr (congrArg Host.Outcome.next (if_pos hlanes))
    · exact and_self_iff.mpr (congrArg Host.Outcome.next ((if_neg (not_not_intro hnone)).trans
        (if_neg fun h => Bool.false_ne_true (hfirst.symm.trans h))))
    · exact and_self_iff.mpr (congrArg Host.Outcome.next ((if_neg (not_not_intro hnone)).trans (if_pos hrec)))
  · intro h0 h1 e w mark measured
    refine if_pos ?_
    rw [h0, h1]
    rfl
  · exact execUncorrectableCodeword_of_up hst (l := [s.time.ticks]) (by rw [show (s.aq p.val).codewords = [] from hnone]; rfl)
  · have hfour : exec (.uncorrectableCodeword p) s = _ := execUncorrectableCodeword_of_up hst (l := [a, b, c, s.time.ticks]) (by
      rw [show (s.aq p.val).codewords = [a, b, c] from hthree]
      simp [ha, hb, hc])
    refine hfour.trans (congrArg Host.Outcome.next ((if_pos (Nat.le_refl 4)).trans (if_pos ?_)))
    rw [aqSt_updAq]
    exact (aqSt_bump_uncorr 1).trans hst
  · intro errs partner node nonce hst t m
    exact if_pos hst
  · refine if_pos ?_
    rw [show s.aqSt p.val = 3 from hst, show (s.aq p.val).everUp = true from hup]
    rfl
  · intro l hst hlane m t
    refine if_pos ?_
    rw [show s.aqSt p.val = 4 from hst, show (s.rd F.AQD_STAT_LUP p.val).testBit l.val = true from hlane]
    rfl
  · intro passed hst back t m hback
    refine (if_neg (not_not_intro hst)).trans (congrArg Host.Outcome.next (if_neg ?_))
    rwa [List.isEmpty_iff]

/-! ## Frames (R376 to R386) -/

section Frame
variable {s : State} {p : APort} {f : Frame} (hst : s.aqSt p.val = 4)
include hst

omit hst in
/-- An acknowledgement leaves the order of the link. -/
theorem inOrder_takeAck : (s.takeAck p.val f).inOrder p.val f = s.inOrder p.val f := by
  rw [State.inOrder, State.takeAck, State.aq_updAq_same]
  rfl

/-- A frame in order that is acted upon is accepted. -/
theorem receive_of_inOrder (hord : s.inOrder p.val f = true) {body : State → Option State} {t : State}
    (hbody : body (s.takeAck p.val f) = some t) : s.receive p.val f body = t.linkAccept p.val f := by
  rw [State.receive, if_neg (not_not_intro hst)]
  dsimp only
  rw [inOrder_takeAck, hord, if_neg (by decide), hbody]

/-- A frame in order for this node is acted upon. -/
theorem gotFrame_of_here (hord : s.inOrder p.val f = true) (hdst : f.dst.toNat = s.node) (here : State → State) :
    s.gotFrame p.val f here = (here (s.takeAck p.val f)).linkAccept p.val f := by
  have hmine : (s.aqSt p.val == 4 && s.inOrder p.val f && f.dst.toNat != s.node && (s.transit p.val f).isNone) = false := by
    rw [hdst, bne_self_eq_false, Bool.and_false]
    rfl
  rw [State.gotFrame, hmine, if_neg Bool.false_ne_true, State.takeFrame]
  exact receive_of_inOrder hst hord (if_pos hdst)

/-- A frame in order for another node goes on where the weir takes it. -/
theorem gotFrame_of_transit (hord : s.inOrder p.val f = true) (hdst : f.dst.toNat ≠ s.node) (hroom : s.transit p.val f ≠ none) (here : State → State)
    {t : State} (ht : (s.takeAck p.val f).transit p.val f = some t) : s.gotFrame p.val f here = t.linkAccept p.val f := by
  have hgo : (s.aqSt p.val == 4 && s.inOrder p.val f && f.dst.toNat != s.node && (s.transit p.val f).isNone) = false := by
    rw [Option.isNone_eq_false_iff.mpr (Option.isSome_iff_ne_none.mpr hroom), Bool.and_false]
  rw [State.gotFrame, hgo, if_neg Bool.false_ne_true, State.takeFrame]
  exact receive_of_inOrder hst hord ((if_neg hdst).trans ht)

omit hst in
/-- A frame's payload length that no type allows. -/
theorem plenOk_of_one {ns : List Nat} (hlen : f.payload.length = 1) (hns : 1 ∉ ns) : (!plenOk f ns) = true := by
  rw [plenOk, hlen]
  simpa using hns

omit hst in
/-- A frame's payload length that its type allows. -/
theorem plenOk_of_mem {ns : List Nat} (hlen : ns.contains f.payload.length = true) : (!plenOk f ns) = false := by
  rw [plenOk, hlen]
  rfl

omit hst in
theorem one_notMem_dataLens (c : BitVec 2) : 1 ∉ dataLens c ∧ 1 ∉ (dataLens c).map (32 + ·) := by
  unfold dataLens sizeBytes
  (repeat' split) <;> decide

omit hst in
theorem one_notMem_respLens : 1 ∉ respLens f := by
  unfold respLens sizeBytes
  (repeat' split) <;> decide

/-- A frame that is not as its type allows is bad. -/
theorem next_badFrame {bad : Bool} (hbad : bad = true) (t : State) :
    (Host.Outcome.next (if s.aqSt p.val = 4 && bad then s.badFrame p.val else t) : Res) = .next (s.badFrame p.val) := by
  rw [hbad, hst]
  rfl

omit hst in
/-- A frame as its type allows is taken. -/
theorem next_goodFrame {bad : Bool} (hgood : bad = false) (t : State) :
    (Host.Outcome.next (if s.aqSt p.val = 4 && bad then s.badFrame p.val else t) : Res) = .next t := by
  rw [hgood, Bool.and_false]
  rfl

end Frame

/-- A ring-state frame out of a port leaves the state of the ports. -/
theorem aqSt_linkFrame (s : State) (p : Nat) (f : Frame) (q : Nat) : (s.linkFrame p f).aqSt q = s.aqSt q := rfl

/-- Settles O44: the length and the order of a frame, then what its type does. -/
theorem framesAreTaken : Obligations.FramesAreTaken := by
  intro s p f n hst
  refine ⟨?_, fun hord hdst => ?_, fun hord hdst hpay t hroom ht => ?_, fun hord hlen => ?_, fun hpay hop => ?_, fun hlen => ?_, fun hdue => ?_, fun hdue => ?_,
    ?_, ?_, ?_, fun rtag r hfind htaken => ?_⟩
  · intro bad
    refine ⟨if_pos hst, fun hlen => ⟨?_, ?_, ?_, ?_, ?_, ?_, ?_, ?_⟩⟩
    · exact next_badFrame hst (plenOk_of_one (f := { f with typ := 1 }) hlen (by decide)) _
    · exact next_badFrame hst (plenOk_of_one (f := { f with typ := 2 }) hlen (one_notMem_dataLens f.size).1) _
    · exact next_badFrame hst (plenOk_of_one (f := { f with typ := 3 }) hlen (one_notMem_dataLens f.size).2) _
    · exact next_badFrame hst (by rw [plenOk_of_one (f := { f with typ := 4 }) hlen (by decide)]; rfl) _
    · exact next_badFrame hst (plenOk_of_one (f := { f with typ := 8 }) hlen one_notMem_respLens) _
    · exact next_badFrame hst (plenOk_of_one (f := { f with typ := 0x10 }) hlen (by decide)) _
    · have hpay : f.payload ≠ [] := fun h => by rw [h] at hlen; exact absurd hlen (by decide)
      exact (if_neg (not_not_intro hst)).trans (if_pos hpay)
    · refine (if_pos hst).trans (congrArg Host.Outcome.next (if_neg ?_))
      rw [hlen]
      decide
  · intro taken t
    refine ⟨fun hlen => ?_, ?_, fun hlen => ?_, fun hlen => ?_, fun hlen hop => ?_⟩
    · exact (next_goodFrame (plenOk_of_mem (f := { f with typ := 1 }) (by rw [hlen]; rfl)) _).trans
        (congrArg Host.Outcome.next (gotFrame_of_here (f := { f with typ := 1 }) hst hord hdst _))
    · intro hlen asked
      have hresp : exec (.frameResp p f) s = .next (taken 8 (match asked with
          | some r => t.finishRemote r f.code.toNat f.deadRead f.payload
          | none => t.bump F.AQD_RTO_LATE 0 1)) :=
        (next_goodFrame (plenOk_of_mem (f := { f with typ := 8 }) hlen) _).trans
          (congrArg Host.Outcome.next (gotFrame_of_here (f := { f with typ := 8 }) hst hord hdst _))
      exact ⟨fun r hr => by rw [hresp, hr], fun hnone => by rw [hresp, hnone]⟩
    · exact (next_goodFrame (plenOk_of_mem (f := { f with typ := 2 }) hlen) _).trans
        (congrArg Host.Outcome.next (gotFrame_of_here (f := { f with typ := 2 }) hst hord hdst _))
    · exact (next_goodFrame (plenOk_of_mem (f := { f with typ := 3 }) hlen) _).trans
        (congrArg Host.Outcome.next (gotFrame_of_here (f := { f with typ := 3 }) hst hord hdst _))
    · exact (next_goodFrame (by rw [plenOk_of_mem (f := { f with typ := 4 }) (by rw [hlen]; rfl), decide_eq_false (Nat.not_le.mpr hop)]; rfl) _).trans
        (congrArg Host.Outcome.next (gotFrame_of_here (f := { f with typ := 4 }) hst hord hdst _))
  · exact (next_goodFrame (plenOk_of_mem (f := { f with typ := 1 }) (by rw [hpay]; rfl)) _).trans
      (congrArg Host.Outcome.next (gotFrame_of_transit (f := { f with typ := 1 }) hst hord hdst hroom _ ht))
  · exact (next_goodFrame (plenOk_of_mem (f := { f with typ := 0x10 }) (by rw [hlen]; rfl)) _).trans
      (congrArg Host.Outcome.next (receive_of_inOrder (f := { f with typ := 0x10 }) hst hord rfl))
  · refine (if_neg (not_not_intro hst)).trans ((if_neg (not_not_intro hpay)).trans (if_neg ?_))
    rw [hop]
    decide
  · refine (if_pos hst).trans (congrArg Host.Outcome.next ((if_pos ?_).trans (if_pos hst)))
    rw [hlen]
    decide
  · refine if_pos ?_
    rw [show (s.aq p.val).replayDue = true from hdue, show s.aqSt p.val = 4 from hst]
    rfl
  · refine if_pos ?_
    rw [show s.aqSt p.val = 4 from hst]
    simpa using hdue
  · intro hdup own
    have hsend : exec .rsfSend s = .next (foldS [0, 1] s fun t p => if t.aqSt p = 4 then t.linkFrame p own else t) :=
      if_neg fun h => Bool.false_ne_true (hdup.symm.trans h)
    refine ⟨fun h0 h1 => ?_, fun h0 h1 => ?_, fun h0 h1 => ?_⟩ <;> rw [hsend] <;> simp only [foldS, List.foldl_cons, List.foldl_nil]
    · rw [if_pos h0, aqSt_linkFrame, if_neg h1]
    · rw [if_neg h0, if_pos h1]
    · rw [if_pos h0, aqSt_linkFrame, if_pos h1]
  · intro node hnode kept
    exact if_neg hnode
  · intro node hnode u
    exact if_pos hnode
  · change execRemoteTimeout rtag s = _
    rw [execRemoteTimeout, hfind]
    exact if_pos htaken

end Sys2Proof.Proofs

/-! ## The weirs -/

namespace Sys2Proof.Proofs
open Sys2Proof Sys2Proof.Machine

/-! ### The end of a spout's instruction touches neither the weirs nor memory -/

@[simp] theorem releaseUnits_weirs (s : State) (n : Nat) : (s.releaseUnits n).weirs = s.weirs := by
  unfold State.releaseUnits
  dsimp only
  (repeat' split) <;> simp

@[simp] theorem send_weirs_mem (s : State) (typ : Nat) (bc pri : Bool) (dst : Nat) (payload : List Nat) :
    (s.send typ bc pri dst payload).weirs = s.weirs ∧ (s.send typ bc pri dst payload).mem = s.mem := by
  unfold State.send
  split <;> exact ⟨rfl, rfl⟩

@[simp] theorem memberAborts_weirs_mem (s : State) (m : Nat × Nat × Nat × Nat) (w : Nat) :
    (s.memberAborts m w).weirs = s.weirs ∧ (s.memberAborts m w).mem = s.mem := by
  unfold State.memberAborts
  dsimp only
  (repeat' split) <;> simp

@[simp] theorem txClose_weirs_mem (s : State) (t w : Nat) (l : List Nat) (tell : Bool) :
    (s.txClose t w l tell).weirs = s.weirs ∧ (s.txClose t w l tell).mem = s.mem := by
  have hweirs : ∀ (ms : List (Nat × Nat × Nat × Nat)) (u : State), (foldS ms u fun u m =>
      if m.1 ∈ l then u.updSp m.1 fun y => { y with tx := none, txAbort := none, signals := [] } else u.memberAborts m w).weirs = u.weirs :=
    foldS_keeps fun u m => by (repeat' split) <;> simp
  have hmem : ∀ (ms : List (Nat × Nat × Nat × Nat)) (u : State), (foldS ms u fun u m =>
      if m.1 ∈ l then u.updSp m.1 fun y => { y with tx := none, txAbort := none, signals := [] } else u.memberAborts m w).mem = u.mem :=
    foldS_keeps fun u m => by (repeat' split) <;> simp
  unfold State.txClose
  dsimp only
  (repeat' split) <;> simp [State.castVote, hweirs, hmem, State.reportAbort]

@[simp] theorem txStop_weirs_mem (s : State) (n c d : Nat) : (s.txStop n c d).weirs = s.weirs ∧ (s.txStop n c d).mem = s.mem := by
  unfold State.txStop
  split
  · exact ⟨rfl, rfl⟩
  · split <;> simp

@[simp] theorem leaveTx_weirs_mem (s : State) (n : Nat) : (s.leaveTx n).weirs = s.weirs ∧ (s.leaveTx n).mem = s.mem := by
  unfold State.leaveTx
  split <;> simp

@[simp] theorem ending_weirs (s : State) (n c : Nat) : (s.ending n c).weirs = s.weirs := by
  simp [State.ending, State.dropCalls]

@[simp] theorem stopCmd_weirs_mem (s : State) (n c a : Nat) : (s.stopCmd n c a).weirs = s.weirs ∧ (s.stopCmd n c a).mem = s.mem := by
  simp [State.stopCmd, State.recordFault]

@[simp] theorem fault_weirs_mem (s : State) (n c a p : Nat) : (s.fault n c a p).weirs = s.weirs ∧ (s.fault n c a p).mem = s.mem := by
  simp [State.fault, State.recordFault]

@[simp] theorem engineStop_weirs_mem (s : State) (n : Nat) : (s.engineStop n).weirs = s.weirs ∧ (s.engineStop n).mem = s.mem := by
  simp [State.engineStop, State.dropCalls, State.spEvent, State.recordFault]

@[simp] theorem goto_weirs_mem (s : State) (n a : Nat) : (s.goto n a).weirs = s.weirs ∧ (s.goto n a).mem = s.mem := by
  unfold State.goto State.boundary
  dsimp only
  split
  · split <;> simp
  · simp

@[simp] theorem noteHalf_weirs_mem (s : State) (n : Nat) : (s.noteHalf n).weirs = s.weirs ∧ (s.noteHalf n).mem = s.mem := by
  unfold State.noteHalf
  split
  · exact ⟨rfl, rfl⟩
  · dsimp only
    split <;> simp [State.spEvent]

@[simp] theorem noteProgress_weirs_mem (s : State) (n : Nat) : (s.noteProgress n).weirs = s.weirs ∧ (s.noteProgress n).mem = s.mem := by
  unfold State.noteProgress
  dsimp only
  split
  · exact ⟨rfl, rfl⟩
  · split <;> simp

@[simp] theorem setFlags_weirs_mem (s : State) (n fl : Nat) : (s.setFlags n fl).weirs = s.weirs ∧ (s.setFlags n fl).mem = s.mem := by
  refine ⟨?_, setFlags_mem s n fl⟩
  unfold State.setFlags
  dsimp only
  split <;> simp

@[simp] theorem endData_weirs_mem (s : State) (n : Nat) : (s.endData n).weirs = s.weirs ∧ (s.endData n).mem = s.mem := by
  unfold State.endData
  dsimp only
  split
  · exact ⟨rfl, rfl⟩
  · split
    · exact ⟨rfl, rfl⟩
    · split
      · exact ⟨rfl, rfl⟩
      · split
        · simp
        · split <;> simp [State.spEvent]

@[simp] theorem markTaken_weirs_mem (s : State) (tag : Nat) : (s.markTaken tag).weirs = s.weirs ∧ (s.markTaken tag).mem = s.mem := by
  unfold State.markTaken
  dsimp only
  split
  · exact ⟨rfl, rfl⟩
  · split <;> simp [State.landedAt]

/-! ### What the frames taken to a weir leave of it (R396, R401) -/

/-- The gates and the class queues in force at the weir of port p, and memory: what the frames that wait do not change. -/
def weirForce (p : Nat) (s : State) : Nat × Nat × Store Byte := ((s.weir p).gate, (s.weir p).liveC, s.mem)

theorem weirForce_of_weirs {p : Nat} {s t : State} (h : t.weirs = s.weirs ∧ t.mem = s.mem) : weirForce p t = weirForce p s := by
  simp only [weirForce, State.weir, h.1, h.2]

theorem weirForce_updWeir {p : Nat} {s : State} {f : Weir → Weir} (hgate : ∀ w, (f w).gate = w.gate) (hlive : ∀ w, (f w).liveC = w.liveC) :
    weirForce p (s.updWeir p f) = weirForce p s := by
  simp only [weirForce, State.weir_updWeir_same, hgate, hlive, State.updWeir_mem]

theorem weirForce_weirLocal (p : Nat) (s : State) (f : Frame) : weirForce p (s.weirLocal p f) = weirForce p s := by
  unfold State.weirLocal
  dsimp only
  repeat' split
  · exact weirForce_updWeir (fun _ => rfl) (fun _ => rfl)
  · exact (weirForce_of_weirs (markTaken_weirs_mem ..)).trans (weirForce_updWeir (fun _ => rfl) (fun _ => rfl))
  · exact weirForce_updWeir (fun _ => rfl) (fun _ => rfl)

theorem weirForce_unpark (p : Nat) (s : State) : weirForce p (s.unpark p) = weirForce p s :=
  (foldS_keeps (weirForce_weirLocal p) _ _).trans (weirForce_updWeir (fun _ => rfl) (fun _ => rfl))

/-- A refill with no gate change waiting takes the gates and the class queues of the registers into force, and leaves memory. -/
theorem weirForce_refill {p : APort} {s : State} (hwait : (s.weir p.val).waitG = []) :
    ∃ t, execWeirRefill p s = .next t ∧ weirForce p.val t = (s.rd F.WEI_GATE_OPEN p.val, s.rd F.WEI_CLSQ_QUEUE p.val, s.mem) := by
  unfold execWeirRefill
  extract_lets n w live live2 cls moved s1 s2 s3 s4 s5
  have h1 : weirForce n s1 = (s.rd F.WEI_GATE_OPEN n, cls, s.mem) := by
    simp only [s1, weirForce, State.weir_updWeir_same, State.updWeir_mem]
  have h2 : s2 = s1 := by
    simp only [s2, w, n, hwait, foldS, List.foldl]
  have h3 : weirForce n s3 = weirForce n s2 := foldS_keeps (g := weirForce n) (fun t q => by
    split
    · rfl
    · exact weirForce_of_weirs ⟨rfl, rfl⟩) _ _
  have h4 : weirForce n s4 = weirForce n s3 := foldS_keeps (g := weirForce n) (fun t c => by
    dsimp only
    split
    · exact weirForce_updWeir (fun _ => rfl) (fun _ => rfl)
    · rfl) _ _
  have h5 : weirForce n s5 = weirForce n s4 := weirForce_updWeir (fun _ => rfl) (fun _ => rfl)
  exact ⟨_, rfl, by rw [weirForce_unpark, h5, h4, h3, h2, h1]⟩

/-! ### The next frame (R391, R392) -/

/-- A change of an aqueduct port is what it does to the port as it is. -/
theorem updAq_congr {s : State} {n : Nat} {f g : AqPort → AqPort} (h : f (s.aq n) = g (s.aq n)) : s.updAq n f = s.updAq n g := by
  rw [State.updAq, h]
  rfl

/-- The weir of port n idle: nothing being sent. -/
def weirIdle (s : State) (n : Nat) : State := (s.updWeir n fun w => { w with sending := none }).updAq n fun a => { a with sent := none }

theorem weirIdle_aq (s : State) (n : Nat) : (weirIdle s n).aq n = { s.aq n with sent := none } := by
  rw [weirIdle, State.aq_updAq_same]
  rfl

/-- In TRAIN and FAILED a port sends its training frame, and nothing else. -/
theorem execWeirFrameSelect_of_training {p : APort} {s : State} (h : s.aqSt p.val = 3 ∨ s.aqSt p.val = 5) :
    (((s.aq p.val).outNow.find? fun f => f.typ = 0x12) = none → execWeirFrameSelect p s = .next (weirIdle s p.val)) ∧
    (∀ f, ((s.aq p.val).outNow.find? fun f => f.typ = 0x12) = some f →
      execWeirFrameSelect p s =
        .next (((weirIdle s p.val).updAq p.val fun a => { a with outNow := dropFirst (fun g => g == f) a.outNow }).launch p.val f)) := by
  constructor
  · intro hfind
    rw [execWeirFrameSelect]
    dsimp only
    rw [if_pos h, hfind]
    rfl
  · intro f hfind
    rw [execWeirFrameSelect]
    dsimp only
    rw [if_pos h, hfind]
    rfl

/-- In UP a port resends its replays first, then sends a link frame that is ready, then the queues in their order (R392). -/
theorem execWeirFrameSelect_of_up {p : APort} {s : State} (h : s.aqSt p.val = 4) :
    (∀ f rest, (s.aq p.val).replays = f :: rest →
      execWeirFrameSelect p s = .next (((weirIdle s p.val).updAq p.val fun a => { a with replays := rest }).launch p.val f)) ∧
    ((s.aq p.val).replays = [] → (s.aq p.val).linkReady = none →
      execWeirFrameSelect p s = .next (if s.eligibleQ p.val 0 then (weirIdle s p.val).startFrame p.val 0
        else if s.eligibleQ p.val 1 then (weirIdle s p.val).startFrame p.val 1 else (weirIdle s p.val).drr p.val 13)) := by
  rw [execWeirFrameSelect]
  dsimp only
  rw [if_neg (by rw [h]; decide), if_neg (not_not_intro h)]
  constructor
  · intro f rest hrep
    rw [hrep]
    rfl
  · intro hrep hlink
    rw [hrep, hlink]
    dsimp only [weirIdle]
    (repeat' split) <;> rfl

/-! ### The rows of the weir -/

/-- Settles O45: each clause is its row of 14_weir_shaping.md; the refill keeps what it took into force while it offers the waiting frames again. -/
theorem weirsSend : Obligations.WeirsSend := by
  unfold Obligations.WeirsSend
  intro s p q v n idle
  refine ⟨fun hans => congrArg Host.Outcome.next (hostWrite_of_answers _ hans), fun hans => congrArg Host.Outcome.next (hostWrite_of_answers _ hans),
    fun hans => congrArg Host.Outcome.next (hostWrite_of_answers _ hans), ?_, ?_, ?_, ?_, ?_, ?_⟩
  · intro hwait
    obtain ⟨t, ht, hforce⟩ := weirForce_refill hwait
    simp only [weirForce, Prod.mk.injEq] at hforce
    exact ⟨t, ht, hforce⟩
  · intro hst hout
    refine (execWeirFrameSelect_of_training (Or.inl hst)).1 ?_
    rw [show (s.aq p.val).outNow = [] from hout]
    rfl
  · intro f rest hst hout htyp
    refine ((execWeirFrameSelect_of_training (Or.inl hst)).2 f ?_).trans ?_
    · rw [show (s.aq p.val).outNow = f :: rest from hout]
      exact List.find?_cons_of_pos (by exact decide_eq_true htyp)
    · have hdrop : dropFirst (fun g => g == f) ((weirIdle s p.val).aq p.val).outNow = rest := by
        rw [weirIdle_aq, show (s.aq p.val).outNow = f :: rest from hout]
        exact if_pos (beq_self_eq_true f)
      exact congrArg (fun t : State => Host.Outcome.next (t.launch p.val f)) (updAq_congr (by rw [hdrop]))
  · intro h3 h4 h5
    change execWeirFrameSelect p s = _
    rw [execWeirFrameSelect]
    dsimp only
    rw [if_neg (not_or.mpr ⟨h3, h5⟩), if_pos h4]
  · intro f rest hst hrep
    exact (execWeirFrameSelect_of_up hst).1 f rest hrep
  · intro hst hrep hlink
    exact (execWeirFrameSelect_of_up hst).2 hrep hlink

end Sys2Proof.Proofs

/-! ## Time and tide -/

namespace Sys2Proof.Proofs
open Sys2Proof Sys2Proof.Machine

/-! ### The wall counter (15_time_and_tide.md R407 to R411) -/

theorem tooSoon_of_last {s : State} {t l : Nat} (hlast : s.time.lastPps = some l) : s.tooSoon t = decide (t < l + 500000000) := by
  rw [State.tooSoon, hlast]

theorem tooSoon_of_first {s : State} {t : Nat} (hlast : s.time.lastPps = none) : s.tooSoon t = false := by
  rw [State.tooSoon, hlast]

/-- A PPS edge that the instance samples. -/
theorem execPpsEdge_of_phase {sub : Fin 10} {high : Nat} {s : State} (hph : s.phase ≠ 0) :
    execPpsEdge sub high s =
      if s.tooSoon (10 * s.time.ticks + sub.val) then .next s.ignoreEdge
      else if high < 1000 then
        .next (if Config.shortPps s.draw.1 then s.draw.2.ignoreEdge else s.draw.2.takeEdge (10 * s.time.ticks + sub.val) sub.val)
      else .next (s.takeEdge (10 * s.time.ticks + sub.val) sub.val) :=
  if_neg hph

/-- s with an edge at oscillator time t timestamped and counted. -/
def ppsSeen (s : State) (t : Nat) : State :=
  (({ s with time := { s.time with lastPps := some t } } : State).bump F.TIM_PPSCNT_EDGES 0 1).wr F.GLB_PINSTAT_PPS_SEEN 0 1

/-- Neither the count of edges nor PPS_SEEN is WSTATE. -/
theorem ppsSeen_wstate (s : State) (t : Nat) : (ppsSeen s t).rd F.TIM_WSTAT_WSTATE 0 = s.rd F.TIM_WSTAT_WSTATE 0 :=
  (State.rd_wr_ne _ F.GLB_PINSTAT_PPS_SEEN F.TIM_WSTAT_WSTATE 0 0 _ (by decide)).trans
    (State.rd_wr_ne _ F.TIM_PPSCNT_EDGES F.TIM_WSTAT_WSTATE 0 0 _ (by decide))

/-- The first edge starts the next spacing (R408). -/
theorem takeEdge_of_first {s : State} (t sub : Nat) (hst : s.rd F.TIM_WSTAT_WSTATE 0 = 0) (hfirst : s.time.edges = 0) :
    s.takeEdge t sub = { ppsSeen s t with time := { (ppsSeen s t).time with lastEdge := t, edges := 1, discards := 0 } } := by
  have hst' := (ppsSeen_wstate s t).trans hst
  have hedges : (ppsSeen s t).time.edges = 0 := hfirst
  rw [ppsSeen] at hst' hedges
  rw [State.takeEdge]
  dsimp only
  rw [hst', hedges, if_neg (by simp), if_pos rfl, if_pos (by decide), ppsSeen]

/-- While LOCKED an edge off its spacing is an outlier, while fewer than three in a row were discarded (R408). -/
theorem takeEdge_of_outlier {s : State} (t sub : Nat) (hst : s.rd F.TIM_WSTAT_WSTATE 0 = 2) (hdisc : s.time.discards < 3)
    (hgap : t - s.time.lastEdge < 999000000) :
    s.takeEdge t sub =
      ({ ppsSeen s t with time := { (ppsSeen s t).time with discards := s.time.discards + 1 } } : State).bump F.TIM_PPSCNT_OUTLIER 0 1 := by
  have hst' := (ppsSeen_wstate s t).trans hst
  have hgap' : t - (ppsSeen s t).time.lastEdge < 999000000 := hgap
  have hdisc' : (ppsSeen s t).time.discards < 3 := hdisc
  rw [ppsSeen] at hst' hgap' hdisc'
  rw [State.takeEdge]
  dsimp only
  rw [hst', if_pos (by simp only [decide_eq_true (Or.inl hgap'), decide_eq_true hdisc']; rfl)]
  rfl

/-- HOLDOVER is entered from elsewhere with PPS_LOST (R410). -/
theorem setWstate_holdover {s : State} (h : s.rd F.TIM_WSTAT_WSTATE 0 ≠ 3) :
    s.setWstate 3 = (s.wr F.TIM_WSTAT_WSTATE 0 3).emit Ev.PPS_LOST Un.inst 0 0 := by
  simp [State.setWstate, h]

/-- TRACK is entered without an event. -/
theorem setWstate_track (s : State) : s.setWstate 1 = s.wr F.TIM_WSTAT_WSTATE 0 1 := by
  simp [State.setWstate]

/-- Settles O46: the branches of PPS_EDGE, WALL_HOLDOVER and the write of TIM_WALL. -/
theorem wallTimeKeeps : Obligations.WallTimeKeeps := by
  unfold Obligations.WallTimeKeeps
  intro s sub high v t seen
  refine ⟨fun hph => if_pos hph, fun hph => ?_, fun hst => ?_, fun hans => ?_⟩
  · have hedge := execPpsEdge_of_phase (sub := sub) (high := high) hph
    refine ⟨fun l hlast hsoon => ?_, fun hsoon hshort => ?_, fun hlong => ⟨fun hnone hst hfirst => ?_, fun l hlast hspace hst hdisc hgap => ?_⟩⟩
    · refine hedge.trans (if_pos ?_)
      rw [tooSoon_of_last hlast]
      exact decide_eq_true hsoon
    · refine hedge.trans ((if_neg ?_).trans (if_pos hshort))
      rw [show s.tooSoon _ = false from hsoon]
      decide
    · refine hedge.trans ((if_neg ?_).trans ((if_neg (by omega)).trans (congrArg Host.Outcome.next (takeEdge_of_first t sub.val hst hfirst))))
      rw [tooSoon_of_first hnone]
      decide
    · refine hedge.trans ((if_neg ?_).trans ((if_neg (by omega)).trans (congrArg Host.Outcome.next (takeEdge_of_outlier t sub.val hst hdisc hgap))))
      rw [tooSoon_of_last hlast, decide_eq_false (by omega)]
      decide
  · have hne : s.rd F.TIM_WSTAT_WSTATE 0 ≠ 3 := by omega
    refine (if_pos hst).trans (congrArg Host.Outcome.next ?_)
    exact setWstate_holdover (s := { s with time := { s.time with aligned := 0 } }) hne
  · have hwrite : exec (.timWallWrite v) s = .next (s.wTimWall v.toNat).ok := congrArg Host.Outcome.next (hostWrite_of_answers _ hans)
    refine ⟨fun hlocked => ?_, fun hfree => ?_⟩
    · rw [hwrite, State.wTimWall, if_pos hlocked, setWstate_track]
    · rw [hwrite, State.wTimWall, if_neg hfree]

/-! ### The tide (15_time_and_tide.md R413 to R422) -/

/-- What a tide value does where no new tide is being taken (R413). -/
theorem tideValue_of_running {s : State} {v : Nat} (hph : s.phase = 8 ∨ s.phase = 9) (hreb : s.time.rebase = false) :
    (s.rd F.TIM_TIDE_TSTATE 0 = 0 → s.tideValue v = s.firstTide v) ∧
    (s.rd F.TIM_TIDE_TSTATE 0 ≠ 0 → s.tideValue v =
      if (v + 2 ^ 32 - s.time.tLast) % 2 ^ 32 = 0 then s
      else if (v + 2 ^ 32 - s.time.tLast) % 2 ^ 32 < 2 ^ 31 then s.advanceTide v else s.backTide v) := by
  have hrun : ¬ (s.phase ≠ 8 ∧ s.phase ≠ 9) := by omega
  have hno : ¬ s.time.rebase = true := by simp [hreb]
  exact ⟨fun h => (if_neg hrun).trans ((if_neg hno).trans (if_pos h)), fun h => (if_neg hrun).trans ((if_neg hno).trans (if_neg h))⟩

/-- The level of TIDE_VLD is not the phase. -/
theorem wrVld_phase (s : State) (b : Bool) : (s.wrB F.GLB_PINSTAT_TIDE_VLD 0 b).phase = s.phase :=
  State.rd_wr_ne _ F.GLB_PINSTAT_TIDE_VLD F.GLB_BOOTSTAT_PHASE 0 0 _ (by decide)

/-- A one-step extrapolation in holdover (R415). -/
theorem holdStep_of_forward {s : State} (hst : s.rd F.TIM_TIDE_TSTATE 0 = 2) (hmode : s.flag F.TIM_TCTL_HOLDMODE 0 = false)
    (hrate : s.flag F.TIM_TIDE_RATEV 0 = true) {x : Nat} (hx : x = (s.time.tLast + s.time.rho.1 * (s.wall - s.time.wallLast) / s.time.rho.2) % 2 ^ 32)
    (hfwd : (x + 2 ^ 32 - s.rd F.TIM_TIDE_TIDE 0) % 2 ^ 32 < 2 ^ 31) : s.holdStep = s.moveTide x := by
  subst hx
  rw [State.holdStep]
  dsimp only
  rw [if_neg (by simp [hst, hmode, hrate]), if_pos hfwd]

/-- In phase 8 an awake instance carries an action of the table out at once. -/
theorem tideRow_of_awake {s : State} (hph : s.phase = 8) (hcur : s.cur = 0) (hleave : s.boot.leaving = false) (act arg : Nat) :
    s.tideRow act arg = (s.doAction act arg).serveWaits := by
  have hcur0 : s.rd F.GLB_PSTATE_CUR 0 = 0 := hcur
  have haway : s.away = false := by simp [State.away, hcur0, hleave, hph]
  rw [State.tideRow, if_pos (by simp [State.tableRuns, hph]), State.fireAction, leaveIdle_of_awake _ (by omega)]
  dsimp only
  rw [haway]
  rfl

/-- s with TIM_EVT0[i] stored, FIRED and EXPIRED of the entry clear (R421). -/
def evt0Stored (s : State) (i v : Nat) : State :=
  ((s.storeReg .TIM_EVT0 i v false).wrB F.TIM_EVT1_FIRED i false).wrB F.TIM_EVT1_EXPIRED i false

/-- An entry that passes the checks of R422 is stored and judged against the tide. -/
theorem wEvt0_of_accepted {s : State} {i v : Nat} (hcode : evt0Code (s.proposed .TIM_EVT0 i v false) = 0) :
    s.wEvt0 i v =
      if (evt0Stored s i v).rd F.TIM_TIDE_TSTATE 0 = 0 then evt0Stored s i v else (evt0Stored s i v).judgeEntry i := by
  rw [State.wEvt0, hcode]
  split
  · rw [evt0Stored]
  · next h => exact absurd rfl h

/-- Settles O47: what each value, step and action of the tide does. -/
theorem tideDrives : Obligations.TideDrives := by
  unfold Obligations.TideDrives
  intro s v w arg sees
  refine ⟨fun hph => congrArg Host.Outcome.next (if_neg hph),
    fun hph => ⟨congrArg Host.Outcome.next (if_pos hph), congrArg Host.Outcome.next (if_pos hph)⟩, ?_, ?_, ?_, fun hst => if_pos hst, ?_,
    fun hans => congrArg Host.Outcome.next (hostWrite_of_answers _ hans), ?_, ?_⟩
  all_goals have hseen : sees.phase = s.phase := wrVld_phase s v.vld
  all_goals have htake : s.phase ≠ 0 → exec (.tideValueAccept v) s = .next (sees.tideValue v.value.toNat).serveWaits :=
    fun hph => congrArg Host.Outcome.next (if_neg hph)
  · intro h0 h8 h9
    rw [htake h0, State.tideValue, if_pos ⟨by rwa [hseen], by rwa [hseen]⟩]
  · intro hph hreb
    obtain ⟨hfirst, hlater⟩ := tideValue_of_running (v := v.value.toNat) (by rwa [hseen]) hreb
    refine ⟨fun h => by rw [htake (by omega), hfirst h], fun h => ⟨fun hd => ?_, fun hlo hhi => ?_, fun hd => ?_⟩⟩
    · rw [htake (by omega), hlater h, if_pos hd]
    · rw [htake (by omega), hlater h, if_neg (by omega), if_pos hhi]
    · rw [htake (by omega), hlater h, if_neg (by omega), if_neg (by omega)]
  · intro hph hreb
    rw [htake (by omega), State.tideValue, if_neg (by omega), if_pos hreb]
  · intro hst hmode hrate x hfwd
    exact congrArg (fun t : State => Host.Outcome.next t.serveWaits) (holdStep_of_forward hst hmode hrate rfl hfwd)
  · intro i hans hcode t
    exact congrArg Host.Outcome.next ((hostWrite_of_answers _ hans).trans (congrArg State.ok (wEvt0_of_accepted hcode)))
  · intro hph hcur hleave does
    have hdo : ∀ act a t, s.doAction act a = t → (.next (s.tideRow act a) : Res) = .next t.serveWaits :=
      fun act a t h => by rw [tideRow_of_awake hph hcur hleave, h]
    refine ⟨fun h => hdo 1 _ _ (if_pos h), fun h => hdo 1 _ _ (if_neg h), fun h => ⟨hdo 2 0 _ (if_neg ?_), hdo 3 0 _ (if_neg ?_)⟩,
      fun h => ⟨hdo 2 0 _ (if_pos h), hdo 3 0 _ (if_pos h)⟩, hdo 4 0 _ rfl, hdo 5 0 _ rfl, hdo 6 0 _ rfl, hdo 7 0 _ rfl, hdo 8 _ _ rfl, hdo 9 _ _ rfl,
      fun h => hdo 10 _ _ (if_neg ?_), fun h => hdo 10 _ _ (if_pos h)⟩
    all_goals rw [h]; decide

end Sys2Proof.Proofs

/-! ## Power and heat -/

namespace Sys2Proof.Proofs
open Sys2Proof Sys2Proof.Machine

/-! ### The power sequencer (16_power_and_thermal.md R426 to R438, R447) -/

/-- A wake of the only domain that waits is begun, or delayed by the load of its triad (R437). -/
theorem execWakeRampStart_of_alone {d : Dom66} {s : State} {retry : Bool} (hwakes : s.power.wakes = [(d.val, retry)]) (hshut : s.power.shut = 0)
    (hramps : s.power.ramps = []) (hslew : s.slewing (triadOf d.val) = false) (hdelayed : s.power.delayed = []) :
    execWakeRampStart d s =
      if s.within (triadOf d.val) 85 then .next (s.startRamp d.val retry retry)
      else .next (({ s with power := { s.power with delayed := [d.val] } } : State).emit Ev.WAKE_DELAYED (Un.domain d.val) (s.triadCur (triadOf d.val)) 0) := by
  have hfind : (s.power.wakes.find? fun w => w.1 = d.val) = some (d.val, retry) := by simp [hwakes]
  have hfree : (s.power.shut ≠ 0 || (s.power.ramps.any fun x => triadOf x.1 == triadOf d.val) || s.slewing (triadOf d.val)
      || (s.power.wakes.any fun x => triadOf x.1 == triadOf d.val && decide (x.1 < d.val))) = false := by
    simp [hwakes, hshut, hramps, hslew]
  rw [execWakeRampStart]
  dsimp only
  rw [hfind]
  dsimp only
  rw [hfree, if_neg (by decide), if_neg (by simp [hdelayed]), hdelayed]
  rfl

/-- The end of the only ramp: ON, or OFF with a slow retry, or after the retry DARK (R438). -/
theorem rampEnd_of_alone {s : State} {n : Nat} {retry : Bool} (hramps : s.power.ramps = [(n, retry)]) (ok : Bool) :
    s.rampEnd n ok =
      let u : State := { s with power := { s.power with ramps := [] } }
      let f := (u.setDom n 0).emit Ev.WAKE_FAIL (Un.domain n) 0 0
      if ok && !(s.working (triadOf n)).isEmpty then u.domainUp n
      else if retry then ((f.darkSteps n).setDom n 4).emit Ev.DOMAIN_DARK (Un.domain n) 2 0
      else { f with power := { f.power with wakes := f.power.wakes ++ [(n, true)] } } := by
  have hfind : (s.power.ramps.find? fun w => w.1 = n) = some (n, retry) := by simp [hramps]
  have hrest : (s.power.ramps.filter fun x => x.1 ≠ n) = [] := by simp [hramps]
  rw [State.rampEnd, hfind]
  dsimp only
  rw [hrest]
  rfl

/-- Without a REENABLE a frame of a regulator that failed counts for nothing. -/
theorem rearmStep_of_none {s : State} {r : Nat} (hrearm : Store.get none s.power.rearm r = none) (good : Bool) : s.rearmStep r good = s := by
  rw [State.rearmStep, hrearm]

/-- The temperature that a frame shows is not the failure of its regulator. -/
theorem wrTemp_failed (s : State) (n v : Nat) : (s.wr F.PWR_REG_RTEMP n v).flag F.PWR_REG_FAILED n = s.flag F.PWR_REG_FAILED n :=
  congrArg (· == 1) (State.rd_wr_apart s F.PWR_REG_RTEMP F.PWR_REG_FAILED n v (by decide) rfl (by decide))

/-- A domain of the group that darkens for a second failure is DARK (R432). -/
theorem domainDark_of_failure {s : State} {n t : Nat}
    (hfind : ((List.range 8).find? fun k => ((Store.get [] s.power.darkQ k).headD []).contains n) = some t) (hst : s.domSt n = 3)
    (hcause : Store.get 0 s.power.darkCause t = 1) {u : State} (hu : u = (s.setDom n 4).emit Ev.DOMAIN_DARK (Un.domain n) 1 0) :
    s.domainDark n =
      if ((Store.get [] u.power.darkQ t).headD []).all (fun k => u.domSt k == 4) then u.nextGroup t ((Store.get [] u.power.darkQ t).drop 1) else u := by
  rw [State.domainDark, hfind]
  dsimp only
  rw [if_neg (not_not_intro hst), hcause, ← hu]
  cases hall : ((Store.get [] u.power.darkQ t).headD []).all fun k => u.domSt k == 4 <;> rfl

/-- The ladder of the power cap (R447): one step up above the cap, one down at 95 % of it. -/
theorem execPowerCapStep_of_level {p l : Nat} {s : State} (hl : (if s.rd F.PWR_CAP_CAP 0 < p then Nat.min 4 (s.rd F.PWR_STAT_LADDER 0 + 1)
      else if p * 100 ≤ s.rd F.PWR_CAP_CAP 0 * 95 then s.rd F.PWR_STAT_LADDER 0 - 1 else s.rd F.PWR_STAT_LADDER 0) = l) :
    execPowerCapStep p s =
      .next (if l = s.rd F.PWR_STAT_LADDER 0 then s.wr F.PWR_STAT_PAVG 0 (Nat.min 0xFFFF p)
        else (((s.wr F.PWR_STAT_PAVG 0 (Nat.min 0xFFFF p)).wr F.PWR_STAT_LADDER 0 l).emit Ev.PWR_CAP_STEP Un.inst l (Nat.min 0xFFFF p)).updDeliv) := by
  subst hl
  rfl

/-- Settles O48: each clause is its row of the power sequencer. -/
theorem powerIsSequenced : Obligations.PowerIsSequenced := by
  unfold Obligations.PowerIsSequenced
  intro s d t r v n
  refine ⟨fun hans => ⟨congrArg Host.Outcome.next (hostWrite_of_answers _ hans), congrArg Host.Outcome.next (hostWrite_of_answers _ hans)⟩,
    fun hans => congrArg Host.Outcome.next (hostWrite_of_answers _ hans), ?_, ?_, ?_, ?_, ?_, ?_, ?_, ?_, ?_, ?_, ?_⟩
  · intro hans hfailed
    refine congrArg Host.Outcome.next ((hostWrite_of_answers _ hans).trans (congrArg State.ok (if_pos ?_)))
    rw [hfailed]
    decide
  · intro retry hwakes hshut hramps hslew hdelayed
    have hstart := execWakeRampStart_of_alone hwakes hshut hramps hslew hdelayed
    exact ⟨fun h => hstart.trans (if_pos h), fun h => hstart.trans (if_neg (by rw [show s.within _ 85 = false from h]; decide))⟩
  · intro retry hramps u f
    refine ⟨fun hwork => ?_, ?_⟩
    · refine congrArg (fun x : State => Host.Outcome.next x.afterWake) ((rampEnd_of_alone hramps true).trans (if_pos ?_))
      simp [List.isEmpty_eq_false_iff.mpr hwork]
    · refine congrArg (fun x : State => Host.Outcome.next x.afterWake) ((rampEnd_of_alone hramps false).trans (if_neg ?_))
      simp
  · intro f hfailed hrearm
    refine (if_pos ?_).trans (congrArg Host.Outcome.next (rearmStep_of_none (s := s.wr F.PWR_REG_RTEMP r.val (f.temp % 256)) hrearm _))
    exact (wrTemp_failed ..).trans hfailed
  · intro hfailed hrearm
    change Host.Outcome.next ((s.rearmStep r.val false).failReg r.val 0) = _
    rw [rearmStep_of_none hrearm, State.failReg, if_pos hfailed]
  · intro hworks hrearm u
    change Host.Outcome.next ((s.rearmStep r.val false).failReg r.val 0) = _
    rw [rearmStep_of_none hrearm, State.failReg, if_neg (by rw [hworks]; decide)]
  · intro hlvl hwithin
    refine congrArg Host.Outcome.next (if_pos ?_)
    rw [show s.within t.val 45 = true from hwithin, bne_iff_ne.mpr hlvl]
    rfl
  · intro hshut hfew
    exact (if_neg (not_not_intro hshut)).trans (if_pos hfew)
  · intro hshut htwo hover hnone
    refine (if_neg (not_not_intro hshut)).trans ((if_neg (by omega)).trans (if_pos ?_))
    rw [show s.ganged t.val = true from decide_eq_true (by omega), hover, hnone]
    rfl
  · intro hfind hst hcause u q
    exact congrArg (fun x : State => Host.Outcome.next x.afterWake) (domainDark_of_failure hfind hst hcause rfl)
  · intro p u step c l
    refine ⟨fun hover hl => ?_, fun hunder hl => ?_, fun hle hgt => ?_⟩
    · have hmin : Nat.min 4 (s.rd F.PWR_STAT_LADDER 0 + 1) = s.rd F.PWR_STAT_LADDER 0 + 1 := Nat.min_eq_right (by omega)
      exact (execPowerCapStep_of_level ((if_pos hover).trans hmin)).trans (congrArg Host.Outcome.next (if_neg (by omega)))
    · exact (execPowerCapStep_of_level ((if_neg (by omega)).trans (if_pos hunder))).trans (congrArg Host.Outcome.next (if_neg (by omega)))
    · exact (execPowerCapStep_of_level ((if_neg (by omega)).trans (if_neg (by omega)))).trans (congrArg Host.Outcome.next (if_pos rfl))

/-! ### The thermal logic (16_power_and_thermal.md R440 to R450) -/

/-- The level that clock c's timer leads to from level l (R444). -/
def timedLvl (s : State) (c l : Nat) : Nat :=
  if l = 1 && decide (throttleOf c ≤ s.ruling c) then 2 else if l = 2 && decide (s.ruling c < throttleOf c) then 1
  else if l = 1 && decide (s.ruling c ≤ throttleOf c - s.hyst) then 0 else l

/-- A timer that keeps the level does nothing. -/
theorem execThermalLevelTimer_of_kept {c : Fin 7} {s : State} (h : timedLvl s c.val (s.thmLvl c.val) = s.thmLvl c.val) :
    execThermalLevelTimer c s = .next s :=
  if_pos h

/-- A timer that moves the level shows it, for the font by its own event. -/
theorem execThermalLevelTimer_of_moved {c : Fin 7} {s : State} {l : Nat} (hl : timedLvl s c.val (s.thmLvl c.val) = l) (hne : l ≠ s.thmLvl c.val) :
    execThermalLevelTimer c s =
      .next (if c.val = 5 then (s.setThmLvl c.val l).emit Ev.THM_THROTTLE Un.inst 5 l else (s.setThmLvl c.val l).showLevels) := by
  subst hl
  exact if_neg hne

/-- Fewer than five excluded sensors: a sample without the quorum event (R440, R441). -/
theorem execSensorSample_of_few {raw : List (Option Int)} {s : State} (h : (((s.takeReadings raw).testSensors raw).showExcl).exclCount < 5)
    {a e : State} (ha : a = ((s.takeReadings raw).testSensors raw).showExcl)
    (he : e = ((foldS (List.range 6) (foldS (List.range 16) ({ a with power := { a.power with quorum := false } } : State).showTemps fun t k => t.warnStep k)
      fun t k => t.raiseLvl k).showLevels).decideTrip) :
    execSensorSample raw s = .next (if e.power.shut ≠ 0 then e.duringTrip else e) := by
  unfold execSensorSample
  extract_lets s1 quorum s2 power s3 s4 s5 s6
  have hquorum : quorum = false := decide_eq_false (Nat.not_le_of_lt h)
  have h2 : s2 = a := (if_neg (by rw [hquorum]; simp)).trans ha.symm
  have h6 : s6 = e := by
    rw [he]
    simp only [s6, s5, s4, s3, power, hquorum, h2]
  rw [h6]

/-- A stack reading above 95 °C is reported once in 1,000 (R444). -/
theorem execStackTempRead_of_hot {x : BitVec 8} {s : State} (hhot : 95 < x.toInt) {u : State} (hu : u = ((s.stackTemp (some x)).raiseLvl 6).showLevels)
    (hrun : u.power.stackRun = 0) :
    execStackTempRead (some x) s =
      .next (({ u with power := { u.power with stackRun := 1 } } : State).emit Ev.STACK_THROTTLE Un.inst (wrapInt 48 x.toInt) 0) := by
  rw [execStackTempRead]
  dsimp only
  rw [← hu, if_neg (by omega), hrun, if_pos rfl]

/-- Settles O49: the sample, the level timers, the stack reading, the sensor's return, the trip and the restart. -/
theorem heatIsLimited : Obligations.HeatIsLimited := by
  unfold Obligations.HeatIsLimited
  intro s raw c n
  refine ⟨?_, ?_, ?_, ?_, ?_, rfl, ?_, ?_, ?_, ?_, ?_, ?_⟩
  · intro a b hfew e
    have hsample := execSensorSample_of_few hfew (a := a) (e := e) rfl rfl
    exact ⟨fun h => hsample.trans (congrArg Host.Outcome.next (if_neg (not_not_intro h))), fun h => hsample.trans (congrArg Host.Outcome.next (if_pos h))⟩
  · intro hlvl
    refine execThermalLevelTimer_of_kept ?_
    simp [timedLvl, hlvl]
  · intro hlvl hover hclk
    refine (execThermalLevelTimer_of_moved (l := 2) ?_ (by omega)).trans (congrArg Host.Outcome.next (if_neg hclk))
    simp [timedLvl, hlvl, hover]
  · intro hlvl hunder hcool hclk
    refine (execThermalLevelTimer_of_moved (l := 0) ?_ (by omega)).trans (congrArg Host.Outcome.next (if_neg hclk))
    simp [timedLvl, hlvl, hcool, Int.not_le.mpr hunder]
  · intro hlvl hunder hclk
    refine (execThermalLevelTimer_of_moved (l := 1) ?_ (by omega)).trans (congrArg Host.Outcome.next ((if_pos hclk).trans ?_))
    · simp [timedLvl, hlvl, hunder]
    · rw [hclk]
  · intro x hcool u
    exact if_pos hcool
  · intro x hhot u hrun
    exact execStackTempRead_of_hot hhot rfl hrun
  · intro hans
    exact congrArg Host.Outcome.next ((hostWrite_of_answers _ hans).trans (congrArg State.ok (if_pos (by decide))))
  · intro hshut
    exact congrArg Host.Outcome.next (if_pos hshut)
  · intro hshut hregion hcool
    have hready : (decide (s.power.shut = 2) && s.power.region.isNone && s.allCool) = true := by simp [hshut, hregion, hcool]
    refine ⟨fun h => (if_pos hready).trans (if_neg ?_), fun h => (if_pos hready).trans (if_pos h)⟩
    rw [h]
    decide
  · intro hans hheld hshut hregion hcool
    refine congrArg Host.Outcome.next ((hostWrite_of_answers _ hans).trans (congrArg State.ok ((if_pos ?_).trans (if_pos ?_))))
    · rw [hheld]
      decide
    · simp [hshut, hregion, hcool]

end Sys2Proof.Proofs

/-! ## Calibration and set points -/

namespace Sys2Proof.Proofs
open Sys2Proof Sys2Proof.Machine

/-! ### Measurements, sweeps and what asks for them (17_calibration_and_training.md R455 to R463) -/

/-- The measurement of a leg's seven trims taken against both references. -/
def measured (codes : List Nat) : List Nat := (List.range 7).map fun i => Nat.min 1023 (codes.getD i 512)

/-- A code that was measured is never the one that stands for none. -/
theorem measured_all_noCode (codes : List Nat) : (measured codes).all (· == noCode) = false := by
  have hfirst : (Nat.min 1023 (codes.getD 0 512) == noCode) = false := by
    rw [beq_eq_false_iff_ne]
    exact Nat.ne_of_lt (Nat.lt_of_le_of_lt (Nat.min_le_left ..) (by decide))
  rw [measured, List.range_succ_eq_map, List.map_cons, List.all_cons, hfirst, Bool.false_and]

section Measurement
variable {leg : Leg} {s : State} {a : Act} {codes : List Nat} (hact : s.actOf leg.val = some a) (hkind : a.kind = 2)
  (hpend : Store.find s.cal.pending leg.val = none) {t : State}
  (ht : t = (s.refLevel F.GLB_PINSTAT_REFV_OK 0 true).refLevel F.GLB_PINSTAT_REFZ_OK 1 true)
include hact hkind hpend ht

/-- A measurement against both references, with those that the leg already has. -/
theorem execCalMeasurementDone_of_refs {all : List (List Nat)} (hall : all = Store.get [] t.cal.meas leg.val ++ [measured codes])
    {kept : State} (hkept : kept = { t with cal := { t.cal with meas := Store.put [] t.cal.meas leg.val all } }) :
    execCalMeasurementDone leg true true codes s =
      if 2 ≤ all.length && agreeing (all.getD (all.length - 2) []) (measured codes) then
        let mean := meanCodes (all.getD (all.length - 2) []) (measured codes)
        .next (({ kept with cal := { kept.cal with pending := Store.insert kept.cal.pending leg.val mean } } : State).wr F.CAL_LSTAT_ACT leg.val 3)
      else if 4 ≤ all.length then
        .next (((kept.bump F.CAL_CNT_DISAGREE 0 1).emit Ev.CAL_DISAGREE (Un.leg leg.val) 0 0).measuredNothing a).trainStep
      else .next kept := by
  have hm : ((List.range 7).map fun i => if (if i < 3 then true else true) = true then Nat.min 1023 (codes.getD i 512) else noCode) = measured codes :=
    List.map_congr_left fun i _ => by rw [ite_self, if_pos rfl]
  subst hkept
  rw [execCalMeasurementDone]
  dsimp only
  rw [hact]
  dsimp only
  rw [if_pos (by simp [hkind, hpend]), hm, measured_all_noCode, ← ht, ← hall, if_neg (by decide)]

/-- The first measurement of a leg is kept. -/
theorem execCalMeasurementDone_of_first (hmeas : Store.get [] t.cal.meas leg.val = []) :
    execCalMeasurementDone leg true true codes s =
      .next { t with cal := { t.cal with meas := Store.put [] t.cal.meas leg.val ([] ++ [measured codes]) } } := by
  rw [execCalMeasurementDone_of_refs hact hkind hpend ht (by rw [hmeas]) rfl]
  rfl

/-- The second that agrees sets the mean of the two to be applied. -/
theorem execCalMeasurementDone_of_agreeing {m1 : List Nat} (hmeas : Store.get [] t.cal.meas leg.val = [m1])
    (hagree : agreeing m1 (measured codes) = true) {kept : State}
    (hkept : kept = { t with cal := { t.cal with meas := Store.put [] t.cal.meas leg.val ([m1] ++ [measured codes]) } }) :
    execCalMeasurementDone leg true true codes s =
      .next (({ kept with cal := { kept.cal with pending := Store.insert kept.cal.pending leg.val (meanCodes m1 (measured codes)) } } : State).wr
        F.CAL_LSTAT_ACT leg.val 3) := by
  rw [execCalMeasurementDone_of_refs hact hkind hpend ht (by rw [hmeas]) hkept]
  exact if_pos (by simpa using hagree)

end Measurement

/-- Trims that wait are applied at the leg's point (R457). -/
theorem execTrimApply_of_trims {leg : Leg} {s : State} {a : Act} {w : List Nat} (hact : s.actOf leg.val = some a) (hpoint : s.atPoint leg.val = true)
    (hpend : Store.find s.cal.pending leg.val = some w) {t : State} (ht : t = (s.setTrims leg.val w).wr F.CAL_LSTAT_LASTT leg.val (s.padTemp (leg.val / 2))) :
    execTrimApply leg s =
      .next (({ t with cal := { t.cal with pending := Store.erase t.cal.pending leg.val, meas := Store.erase t.cal.meas leg.val } } : State).afterTrims a) := by
  rw [execTrimApply]
  dsimp only
  rw [hact]
  dsimp only
  rw [hpoint, hpend, if_neg (by decide), ht]

/-- A point of a sweep that is not complete is kept (R458). -/
theorem execTrainingPointDone_of_sweeping {leg : Leg} {s : State} {a : Act} (lanes : BitVec 5) (hact : s.actOf leg.val = some a) (hkind : a.kind ≠ 2)
    (hopen : (Store.get [] s.cal.points leg.val).length < sweepPoints a.kind) (hpend : Store.find s.cal.pendDly leg.val = none) :
    execTrainingPointDone leg lanes s =
      .next { s with cal := { s.cal with points := Store.put [] s.cal.points leg.val (Store.get [] s.cal.points leg.val ++ [lanes.toNat]) } } := by
  rw [execTrainingPointDone]
  dsimp only
  rw [hact]
  exact if_pos (by simp [hkind, hopen, hpend])

/-- A complete short sweep verifies the delays where every point passed, and leads to a service sweep otherwise (R460). -/
theorem execSweepDone_of_short {leg : Leg} {s : State} {a : Act} (hact : s.actOf leg.val = some a) (hkind : a.kind = 4)
    (hall : sweepPoints 4 ≤ (Store.get [] s.cal.points leg.val).length) (hpend : Store.find s.cal.pendDly leg.val = none) :
    execSweepDone leg s =
      if (Store.get [] s.cal.points leg.val).all fun p => p % 16 == 15 then
        .next (((s.wrB F.CAL_RDLY_VERIFIED (2 * leg.val + s.fsp) true).wrB F.CAL_WDLY_VERIFIED (2 * leg.val + s.fsp) true).endAct a).trainStep
      else .next (s.follow a { a with kind := 1 }) := by
  rw [execSweepDone]
  dsimp only
  rw [hact]
  dsimp only
  rw [if_neg (by simp [hkind, hpend, hall]), if_pos hkind]

/-- The only activity waits as a drift check: it is skipped (R462). -/
theorem execDriftCheckSkip_of_alone {pc : Pc} {s : State} {a : Act} (hacts : s.cal.acts = [a]) (hkind : a.kind = 0) (hpc : a.leg / 2 = pc.val)
    (hwaits : a.started = false) (hpend : Store.find s.cal.pendDly a.leg = none) :
    execDriftCheckSkip pc s = .next (({ s with cal := { s.cal with acts := [] } } : State).bump F.CAL_CNT_SKIP 0 1) := by
  have hfind : (s.cal.acts.find? fun a => a.kind = 0 && a.leg / 2 = pc.val && !a.started && (Store.find s.cal.pendDly a.leg).isNone) = some a := by
    simp [hacts, hkind, hpc, hwaits, hpend]
  have hrest : (s.cal.acts.filter (· ≠ a)) = [] := by simp [hacts]
  rw [execDriftCheckSkip, hfind]
  dsimp only
  rw [hrest]

/-- A drift check of a pseudo-channel joins activities where none is in hand. -/
theorem askDrift_of_none {s : State} {n : Nat} (hacts : s.cal.acts = []) :
    let check : Act := { kind := 0, leg := s.drivingLeg n, use := if s.measureOk n then 1 else 0, started := false, nowin := true }
    s.askDrift n = ({ s with cal := { s.cal with acts := [check] } } : State).kick := by
  intro check
  rw [State.askDrift, hacts, if_neg (by simp), State.addAct, hacts, if_neg (by simp), List.nil_append]

/-! ### Set points (R468 to R470) -/

/-- A rate in range of the set point not in use is stored; where it changes, the delays kept for it are no longer valid (R468). -/
theorem wCalFsp_of_other {s : State} {v : Nat} (hfsp : s.fsp = 0) (hsame : F.CAL_FSP_RATE0.of (s.proposed .CAL_FSP 0 v false) = s.rd F.CAL_FSP_RATE0 0)
    (h1 : F.CAL_FSP_RATE1.of (s.proposed .CAL_FSP 0 v false) ≤ 3) (h0 : F.CAL_FSP_RATE0.of (s.proposed .CAL_FSP 0 v false) ≤ 3)
    (hheld : s.calHeld = false) (hreq : s.cal.reqHeld = false) {t u w : State} (ht : t = s.storeReg .CAL_FSP 0 v false)
    (hu : u = foldS (List.range 128) t fun t l => (t.wrB F.CAL_RDLY_VALID (2 * l + 1) false).wrB F.CAL_WDLY_VALID (2 * l + 1) false)
    (hw : w = if F.CAL_FSP_RATE1.of (s.proposed .CAL_FSP 0 v false) = s.rd F.CAL_FSP_RATE1 0 then t else u) :
    s.wCalFsp v = if F.CAL_FSP_REQ.of v = 1 then w.beginFsp else w := by
  have hcode : firstCode [
      (decide (3 < F.CAL_FSP_RATE0.of (s.proposed .CAL_FSP 0 v false) ∨ 3 < F.CAL_FSP_RATE1.of (s.proposed .CAL_FSP 0 v false)), 1),
      (if s.fsp = 0 then F.CAL_FSP_RATE0.of (s.proposed .CAL_FSP 0 v false) != s.rd F.CAL_FSP_RATE0 0
        else F.CAL_FSP_RATE1.of (s.proposed .CAL_FSP 0 v false) != s.rd F.CAL_FSP_RATE1 0, 2),
      ((F.CAL_FSP_REQ.of v == 1) && (s.calHeld || s.cal.reqHeld), 3)] = 0 := by
    rw [decide_eq_false (not_or.mpr ⟨Nat.not_lt_of_le h0, Nat.not_lt_of_le h1⟩), if_pos hfsp, bne_eq_false_iff_eq.mpr hsame, hheld, hreq, Bool.or_false,
      Bool.and_false, firstCode_cons_false, firstCode_cons_false, firstCode_cons_false, firstCode_nil]
  rw [State.wCalFsp, hcode]
  split
  · simp only [hfsp, Nat.sub_zero, Nat.one_ne_zero, if_false, bne_iff_ne, ne_eq, ite_not, beq_iff_eq, ← ht, ← hu, ← hw]
  · next h => exact absurd rfl h

/-- The end of the hold abandons what runs and changes the set point (R469). -/
theorem abandonAll_true (s : State) (cause : Nat) :
    s.abandonAll (fun _ => true) cause = foldS (s.cal.acts.filter (·.started)) s fun t a => t.abandonAct a cause := by
  simp only [State.abandonAll, Bool.and_true]

/-- Settles O50: the rows of calibration, then those of the set points. -/
theorem legsAreCalibrated : Obligations.LegsAreCalibrated := by
  unfold Obligations.LegsAreCalibrated
  refine ⟨?_, ?_⟩
  · intro s leg pc v l
    refine ⟨?_, ?_, ?_, ?_, ?_, ?_, ?_, rfl, ?_, ?_, rfl, ?_⟩
    · intro a codes hact hkind hpend t m old kept
      exact ⟨fun hold => (execCalMeasurementDone_of_first hact hkind hpend rfl hold).trans (by simp only [kept, hold]; rfl),
        fun m1 hold hagree => execCalMeasurementDone_of_agreeing hact hkind hpend rfl hold hagree (by simp only [kept, hold]; rfl)⟩
    · intro a w hact hpoint hpend t
      exact execTrimApply_of_trims hact hpoint hpend rfl
    · intro a lanes hact hkind hopen hpend
      exact execTrainingPointDone_of_sweeping lanes hact hkind hopen hpend
    · intro a hact hkind hall hpend
      have hshort := execSweepDone_of_short hact hkind hall hpend
      exact ⟨fun hpass => hshort.trans (if_pos hpass), fun hfail => hshort.trans (if_neg (by rw [hfail]; decide))⟩
    · intro hnone
      refine ⟨?_, ?_⟩
      · change execSweepDone leg s = _
        rw [execSweepDone]
        dsimp only
        rw [show s.actOf leg.val = none from hnone]
      · change execTrimApply leg s = _
        rw [execTrimApply]
        dsimp only
        rw [show s.actOf leg.val = none from hnone]
    · intro hopen hacts
      exact congrArg Host.Outcome.next ((if_pos hopen).trans (askDrift_of_none hacts))
    · intro a hacts hkind hpc hwaits hpend
      exact execDriftCheckSkip_of_alone hacts hkind hpc hwaits hpend
    · intro hfree
      exact if_neg (by rw [show s.legBusy leg.val = false from hfree, Bool.false_and]; decide)
    · intro a hacts hleg hkind
      change execCalWindowWaitExpire leg s = _
      simp only [execCalWindowWaitExpire, hacts, List.map_cons, List.map_nil]
      rw [if_pos (by simp [hkind, show a.leg = leg.val from hleg])]
    · intro hans
      refine ⟨congrArg Host.Outcome.next (hostWrite_of_answers _ hans), congrArg Host.Outcome.next (hostWrite_of_answers _ hans), fun hrecal hclosed => ?_⟩
      exact if_pos (by simp [hrecal, hclosed])
  · intro s v
    refine ⟨fun hans => ⟨congrArg Host.Outcome.next (hostWrite_of_answers _ hans), congrArg Host.Outcome.next (hostWrite_of_answers _ hans)⟩, ?_, ?_, ?_, ?_, ?_⟩
    · intro p r0 r1 hfsp hsame h1 h0 hheld hreq t u w
      exact wCalFsp_of_other hfsp hsame h1 h0 hheld hreq rfl rfl rfl
    · intro hfree
      exact if_neg (by rw [hfree]; decide)
    · intro hhold idle opens t u w
      refine (if_pos hhold).trans ?_
      rw [abandonAll_true]
    · intro hfree
      exact if_neg (by rw [hfree]; decide)
    · intro hswitch hlock t u
      exact if_pos (by rw [hswitch, hlock]; decide)

end Sys2Proof.Proofs

/-! ## Power states, tiers and resets -/

namespace Sys2Proof.Proofs
open Sys2Proof Sys2Proof.Machine

/-! ### Power states (18_bringup_reset_lowpower.md R486 to R488) -/

/-- A request for PARK of an instance that is awake is entered at once. -/
theorem wPstate_of_park {s : State} {v : Nat} (hr : F.GLB_PSTATE_REQ.of (s.proposed .GLB_PSTATE 0 v false) = 1) (hentry : s.boot.entry = none)
    (hleave : s.boot.leaving = false) (hph : s.phase = 8) (hshut : s.power.shut = 0) (hcur : s.cur = 0) :
    s.wPstate v = ((s.storeReg .GLB_PSTATE 0 v false).leaveIdle 5).enterPs 2 := by
  have hfree : ¬ (s.boot.entry.isSome || s.boot.leaving || s.phase ≠ 8 || s.power.shut ≠ 0) = true := by simp [hentry, hleave, hph, hshut]
  rw [State.wPstate, hr, if_neg (by decide), if_neg hfree]
  exact if_pos (by omega)

/-- A request for a state that is not there is refused. -/
theorem wPstate_of_reserved {s : State} {v : Nat} (hr : 4 ≤ F.GLB_PSTATE_REQ.of (s.proposed .GLB_PSTATE 0 v false)) : s.wPstate v = s.glbRefuse 3 := by
  rw [State.wPstate, if_pos hr]

/-- What a wake cause does to an instance in phase 8 that nothing holds (R486). -/
theorem execPstateWake_of_free {cause : Fin 6} {s : State} (hph : s.phase = 8) (hshut : s.power.shut = 0) (hleave : s.boot.leaving = false)
    (hentry : s.boot.entry = none) (hlo : 1 ≤ cause.val) (hhi : cause.val ≤ 3) :
    execPstateWake cause s =
      if s.cur = 1 then .next (s.leaveIdle cause.val) else if s.cur = 3 then .next (s.exitSr cause.val)
      else if s.cur = 4 then .next (s.exitDeep cause.val) else .next s := by
  have hheld : ¬ (s.phase ≠ 8 || s.power.shut ≠ 0 || s.boot.leaving || s.boot.entry.isSome || cause.val = 0 || cause.val = 5) = true := by
    simp [hph, hshut, hleave, hentry]
    omega
  rw [execPstateWake, if_neg hheld]
  simp only [hhi, decide_true, Bool.and_true, decide_eq_true_eq]

section Idle
variable {s : State} (hsp : ∀ n < 161, s.spSt n = 0) (hslot : ∀ k < 64, (s.slot k).st = .free)
  (htag : ∀ p < 8, s.tagsOf p = [] ∧ Store.get [] s.intake.tagWait p = []) (hheld : s.intake.held = [])
  (hpc : ∀ n < 64, (s.pc n).queue = [] ∧ (s.pc n).waiting = [] ∧ (s.pc n).merges = [] ∧ (s.pc n).flights = [])
include hsp hslot htag hheld hpc

/-- With every spout idle, every slot free and nothing queued, held or waiting, the instance is quiet (R486). -/
theorem quiet_of_nothing :
    (((List.range 161).all fun n => s.spSt n == 0 || s.spSt n == 5 || s.spSt n == 6)
      && ((List.range 64).all fun t => (s.slot t).st == .free || (s.slot t).st == .closed)
      && ((List.range 8).all fun p => (s.tagsOf p).isEmpty && (Store.get [] s.intake.tagWait p).isEmpty)
      && (s.intake.held.all fun e => e.2.isEmpty)
      && ((List.range 64).all fun n => (s.pc n).queue.isEmpty && (s.pc n).waiting.isEmpty && (s.pc n).merges.isEmpty && (s.pc n).flights.isEmpty)) = true := by
  have h1 : ((List.range 161).all fun n => s.spSt n == 0 || s.spSt n == 5 || s.spSt n == 6) = true :=
    List.all_eq_true.mpr fun n hn => by rw [hsp n (List.mem_range.mp hn)]; decide
  have h2 : ((List.range 64).all fun t => (s.slot t).st == .free || (s.slot t).st == .closed) = true :=
    List.all_eq_true.mpr fun t ht => by rw [hslot t (List.mem_range.mp ht)]; decide
  have h3 : ((List.range 8).all fun p => (s.tagsOf p).isEmpty && (Store.get [] s.intake.tagWait p).isEmpty) = true :=
    List.all_eq_true.mpr fun p hp => by
      obtain ⟨h, hw⟩ := htag p (List.mem_range.mp hp)
      rw [h, hw]
      rfl
  have h4 : ((List.range 64).all fun n =>
      (s.pc n).queue.isEmpty && (s.pc n).waiting.isEmpty && (s.pc n).merges.isEmpty && (s.pc n).flights.isEmpty) = true :=
    List.all_eq_true.mpr fun n hn => by
      obtain ⟨hq, hw, hm, hf⟩ := hpc n (List.mem_range.mp hn)
      rw [hq, hw, hm, hf]
      rfl
  rw [h1, h2, h3, h4, hheld]
  rfl

end Idle

/-- Settles O51: the power states, the tiers and the tier store. -/
theorem powerStatesAndTiers : Obligations.PowerStatesAndTiers := by
  unfold Obligations.PowerStatesAndTiers
  intro s v off cause
  refine ⟨fun hans => ⟨congrArg Host.Outcome.next (hostWrite_of_answers _ hans), wPstate_of_reserved, wPstate_of_park⟩, ?_, ?_, ?_,
    fun hans => ⟨congrArg Host.Outcome.next (hostWrite_of_answers _ hans), congrArg Host.Outcome.next (hostWrite_of_answers _ hans)⟩, ?_⟩
  · intro k hentry hentering
    have hopen : ¬ (s.boot.entry.isNone || s.boot.entering) = true := by simp [hentry, hentering]
    exact ⟨fun h => (if_neg hopen).trans (if_pos h), fun h => (if_neg hopen).trans (if_neg (by rw [h]; decide))⟩
  · intro hph hshut hleave hentry hlo hhi
    have hwake := execPstateWake_of_free hph hshut hleave hentry hlo hhi
    exact ⟨fun h => hwake.trans (if_pos h), fun h => hwake.trans ((if_neg (by omega)).trans (if_pos h)),
      fun h => hwake.trans ((if_neg (by omega)).trans ((if_neg (by omega)).trans (if_pos h)))⟩
  · intro hph hshut hcur hreq hns hentry hleave hsp hslot htag hheld hpc
    refine if_pos ?_
    rw [quiet_of_nothing hsp hslot htag hheld hpc]
    simp [hph, hshut, hcur, hreq, hns, hentry, hleave]
  · intro hans hlo hhi hal hfree
    refine congrArg Host.Outcome.next ((if_pos ?_).trans ((if_neg ?_).trans ?_))
    · rw [hans, decide_eq_true ⟨hlo, hhi, hal⟩]
      rfl
    · rw [hfree]
      decide
    · rw [BitVec.ofNat_toNat, BitVec.setWidth_eq]

/-! ### Resets and bring-up (18_bringup_reset_lowpower.md R473 to R485; 02_ports.md R56, R65 to R67, R70) -/

/-- A state put into a phase shows it. -/
theorem setPhase_phase (s : State) {p : Nat} (hp : p < 16) : (s.setPhase p).phase = p :=
  (State.rd_wr_same s F.GLB_BOOTSTAT_PHASE 0 p (by decide)).trans (Nat.mod_eq_of_lt hp)

/-- The phase is not the cause. -/
theorem setPhase_cause (s : State) (p : Nat) : (s.setPhase p).cause = s.cause :=
  State.rd_wr_apart s F.GLB_BOOTSTAT_PHASE F.GLB_BOOTSTAT_CAUSE 0 p (by decide) rfl (by decide)

/-- A cold reset of a running instance leads to phase 0 under its cause (R482). -/
theorem cold_of_running {s : State} (k : Nat) (hph : s.phase ≠ 0) : (s.cold k).phase = 0 ∧ (s.cold k).cause = 1 := by
  rw [State.cold, if_neg hph]
  exact ⟨setPhase_phase _ (by decide), (setPhase_cause _ 0).trans (State.rd_wr_same _ F.GLB_BOOTSTAT_CAUSE 0 1 (by decide))⟩

/-- Bring-up is tried in phase 0 only. -/
theorem tryBringUp_of_running {s : State} (hph : s.phase ≠ 0) : s.tryBringUp = s := if_neg (by simp [hph])

/-- But for the end of a cold reset the straps stand. -/
theorem restrap_of_latched {s : State} (h : ¬ (s.phase = 0 ∧ s.cause = 1)) : s.restrap = s := if_neg h

/-- Pin levels with the two straps as free values. -/
def strapped (e : PinLevels) (k : Nat) : PinLevels := { e with mgrSel := Config.strapMgr k, instId := (Config.strapInst k).toFin }

/-- At the end of a cold reset the two straps are free values (R66). -/
theorem restrap_of_cold {s : State} {e : PinLevels} (hph : s.phase = 0) (hcause : s.cause = 1) (henv : s.boot.env = some e) :
    s.restrap = { s.draw.2 with boot := { s.boot with env := some (strapped e s.draw.1) } } := by
  rw [State.restrap, if_pos ⟨hph, hcause⟩, henv]
  rfl

/-- s with REFCLK there. -/
def refclkOn (s : State) : State := { s with boot := { s.boot with refclk := true } }

/-- WARM outside a trip and a low power state: in phase 8 the warm reset, elsewhere refused (R485). -/
theorem wReset_warm {s : State} :
    (s.phase = 8 → s.power.shut = 0 → s.cur = 0 → s.wReset 1 = s.startWarm) ∧ (s.phase ≠ 8 → s.wReset 1 = s.glbRefuse 1) := by
  have hwarm : ¬ F.GLB_RESET_WARM.of 1 = 0 := by decide
  refine ⟨fun hph hshut hcur => ?_, fun hph => ?_⟩
  · rw [State.wReset, if_neg hwarm, if_neg (by simp [hph, hshut]), if_neg (by omega), if_neg (by omega)]
  · rw [State.wReset, if_neg hwarm, if_pos (by simp [hph])]

/-- Settles O52: the resets, bring-up and the wrapper. -/
theorem resetsRestart : Obligations.ResetsRestart := by
  unfold Obligations.ResetsRestart
  intro s pins low pc f op
  refine ⟨rfl, fun h => if_pos ?_, fun h henv => ?_, fun hlow henv => if_neg ?_, fun h => if_pos h, fun hph => ?_, fun hph hcause => ?_, ?_, ?_, ?_, ?_, ?_, ?_, ?_, ?_, ?_⟩
  · simp [h]
  · exact (if_neg (by simp [Option.isNone_iff_eq_none, henv]; omega)).trans (if_pos h)
  · simp [hlow, Option.isNone_iff_eq_none, henv]
  · change Host.Outcome.next (refclkOn s.restrap).tryBringUp = .next (refclkOn s)
    rw [restrap_of_latched (fun h => hph h.1), tryBringUp_of_running (s := refclkOn s) hph]
  · change Host.Outcome.next (refclkOn s.restrap).tryBringUp = .next (refclkOn s).tryBringUp
    rw [restrap_of_latched (fun h => hcause h.2)]
  · intro hph hcause e henv
    refine ⟨Config.strapMgr s.draw.1, (Config.strapInst s.draw.1).toFin, ?_⟩
    change Host.Outcome.next (refclkOn s.restrap).tryBringUp = _
    rw [restrap_of_cold hph hcause henv]
    rfl
  · intro k hph
    exact ⟨_, rfl, cold_of_running k hph⟩
  · exact fun hans => ⟨congrArg Host.Outcome.next (hostWrite_of_answers _ hans), wReset_warm⟩
  · intro held
    refine ⟨fun h => congrArg Host.Outcome.next (if_pos (by simp [h])), fun h hbusy => congrArg Host.Outcome.next (if_neg (by simp [h, hbusy]))⟩
  · intro freed
    refine ⟨fun h => congrArg Host.Outcome.next (if_pos (by simp [h])), fun h hbusy hon => congrArg Host.Outcome.next (if_neg (by simp [h, hbusy, hon]))⟩
  · intro hph hlive hnew r opened
    exact if_pos (by rw [hlive, hnew, decide_eq_true hph]; rfl)
  · intro hbusy
    exact if_pos hbusy
  · intro hph hrole
    refine congrArg Host.Outcome.next (if_pos ?_)
    obtain hrole | hrole := hrole <;> simp [hph, hrole]
  · intro chosen
    refine ⟨fun h => if_pos h, fun h hrst => (if_neg (by omega)).trans (if_pos hrst), fun h h3 hrst => (if_neg (by omega)).trans ((if_neg ?_).trans ?_),
      fun h hrst => (if_neg (by omega)).trans ((if_neg ?_).trans ?_), rfl⟩
    · simp [hrst]
    · rw [if_pos h3]
      rfl
    · simp [hrst]
    · rw [if_neg (by omega)]
      rfl

end Sys2Proof.Proofs

/-! ## The cascade -/

namespace Sys2Proof.Proofs
open Sys2Proof Sys2Proof.Machine

/-! ### Election and roles (19_cascade_and_services.md R506 to R509) -/

/-- An own HELLO that has come round brings no role to an instance that has one, nor where no reply is kept. -/
theorem helloBack_of_none {s : State} (h : s.role ≠ 0 ∨ s.cas.heard = []) : s.helloBack = s.updCas fun k => { k with returned := true } := by
  rw [State.helloBack]
  obtain h | h := h
  · split
    · next hrole _ => exact absurd hrole h
    · rfl
  · rw [h]
    split
    · next hfind => exact absurd hfind (by simp)
    · rfl

/-- An instance without a role takes the reply that it has kept. -/
theorem helloBack_of_kept {s : State} {r : HelloP} (hrole : s.role = 0)
    (hfind : (s.cas.heard.find? fun h => h.reply && h.mgrValid) = some r) :
    s.helloBack = (s.updCas fun k => { k with returned := true }).takeReply r := by
  rw [State.helloBack, hrole, hfind]
  rfl

/-- What a HELLO taken by an instance that has drawn its nonce does. -/
theorem execHello_of_taken {c : CasHdr} {m : HelloP} {s t : State} (htaken : (s.passHello c m).casTake c 0x01 true = (t, true))
    (hdrawn : t.cas.drawn = true) :
    execHello c m s =
      if m.inst.val = t.me then if m.nonce.toNat = t.cas.nonce then .next t.helloBack else .next (t.instDup m.nonce.toNat)
      else .next (t.takeHello m) := by
  rw [execHello, htaken]
  exact if_neg (by simp [hdrawn])

/-- The election of an instance whose own HELLO has returned (R507). -/
theorem execElectionTimeout_of_returned {s : State} (hdrawn : s.cas.drawn = true) (hrole : s.role = 0) (hback : s.cas.returned = true) {members : Nat}
    (hmembers : members = maskOf ((s.hellos.filter fun h => !dupIn s.hellos h.inst.val).map fun h => h.inst.val)) :
    (electFrom s.hellos = none → execElectionTimeout s = .next s) ∧
    (∀ w, electFrom s.hellos = some w → w ≠ s.me → execElectionTimeout s =
      .next (if s.strap then ((s.takeRole 1 w 1 members).emit Ev.MGR_ELECTED Un.inst w 1).emit Ev.MGR_DUP Un.inst 0 0
        else (s.takeRole 1 w 1 members).emit Ev.MGR_ELECTED Un.inst w 1)) ∧
    (electFrom s.hellos = some s.me → s.hellos.any (fun h => h.strap) = true → members = 0xFFFF →
      execElectionTimeout s = .next ((s.becomeManager 1 members).emit Ev.MGR_ELECTED Un.inst s.me 1)) := by
  have hopen : ¬ (!(s.cas.drawn && s.role == 0 && s.cas.returned)) = true := by simp [hdrawn, hrole, hback]
  refine ⟨fun hnone => ?_, fun w hsome hne => ?_, fun hme hstrap hall => ?_⟩
  · rw [execElectionTimeout, if_neg hopen]
    dsimp only
    rw [hnone]
  · rw [execElectionTimeout, if_neg hopen]
    dsimp only
    rw [hsome]
    dsimp only
    rw [if_neg hne, hmembers]
  · rw [execElectionTimeout, if_neg hopen]
    dsimp only
    rw [hme]
    dsimp only
    rw [if_pos rfl, ← hmembers, if_pos hall, hstrap, if_pos rfl]

/-- A ROLE that an instance without a role takes, its own HELLO having returned. -/
theorem execRole_of_new {c : CasHdr} {mgr : Inst} {e : BitVec 32} {w : BitVec 16} {s t : State} (htaken : s.casTake c 0x02 true = (t, true))
    (hrole : t.role = 0) (hdrawn : t.cas.drawn = true) (hback : t.cas.returned = true) (hstrap : t.strap = false) (hmgr : mgr.val ≠ t.me)
    (hsrc : c.src.val ≠ t.me) :
    execRole c mgr e w s = .next ((t.takeRole 1 mgr.val e.toNat w.toNat).emit Ev.MGR_ELECTED Un.inst mgr.val e.toNat) := by
  rw [execRole, htaken]
  dsimp only
  rw [if_neg (by simp [hrole, hmgr, hsrc, hdrawn, hback]), if_neg (by omega), if_neg (by simp [hstrap]), if_pos (by simp [hrole])]

/-! ### START and TIME (R511, R513) -/

/-- The manager 0 sends the START of the last slot. -/
theorem execStartSend_of_last {s : State} (hrole : s.role = 2) (hph : s.phase = 3) (hat : s.cas.startAt = 15) (hme : s.me = 0) {u : State}
    (hu : u = s.updCas fun k => { k with startAt := 16 }) :
    execStartSend s = .next (if s.memberList.contains 15 then u.send 0x03 false true 15 [15] else u) := by
  rw [execStartSend, if_neg (by simp [hrole, hph, hat]), hat]
  dsimp only
  rw [hme, if_neg (show ¬ 15 = 0 by decide), if_neg (show ¬ 15 ≤ 0 by decide), if_neg (show ¬ 15 = 0 by decide), hu]

/-- TIME goes out while no more than two have not returned. -/
theorem execTimeSend_of_whole {s : State} (hrole : s.role = 2) (haway : s.cas.away < 3) :
    execTimeSend s = .next ((s.send 0x04 true true 0 [s.wall, s.rd F.TIM_WSTAT_WSTATE 0]).updCas fun k => { k with away := k.away + 1 }) := by
  rw [execTimeSend, if_neg (not_not_intro hrole)]
  dsimp only
  rw [if_neg (by simp; omega)]

/-! ### The cap that a manager alone allots itself (R514) -/

/-- With one member's report every allotment stays within 60,000 mW. -/
theorem allocate_single (b k p : Nat) : ∃ cap, allocate b [(k, p)] = [(k, cap)] ∧ cap ≤ 60000 := by
  have hwant : 20000 ≤ wantCap p ∧ wantCap p ≤ 60000 := by
    rw [wantCap, Nat.min_eq_min, Nat.max_eq_max]
    omega
  unfold allocate
  extract_lets ws sum n extra
  have hws : ws = [(k, wantCap p)] := by simp only [ws, List.map_cons, List.map_nil]
  clear_value ws
  generalize wantCap p = w at hws hwant
  have hextra : extra = w - 20000 := by
    rw [show extra = ws.foldl (fun a e => a + (e.2 - 20000)) 0 from rfl, hws, List.foldl_cons, List.foldl_nil]
    exact Nat.zero_add _
  have hn : n = 1 := by simp only [n, hws, List.length_cons, List.length_nil]
  have hsum : sum = w := by simp only [sum, hws, List.foldl_cons, List.foldl_nil, Nat.zero_add]
  clear_value sum n extra
  rw [hws, List.map_cons, List.map_nil, List.map_cons, List.map_nil]
  split
  · exact ⟨_, rfl, by rw [Nat.min_eq_min]; exact Nat.min_le_left ..⟩
  · split
    · exact ⟨20000, rfl, by decide⟩
    · refine ⟨_, rfl, ?_⟩
      dsimp only
      rw [hextra, Nat.mul_div_cancel _ (by omega), hn]
      omega

/-- A manager alone writes its own cap, at most 60,000 mW. -/
theorem execCapAllocate_of_alone {s : State} (hrole : s.role = 2) (hwhole : s.cas.broken = false) (hmembers : s.memberList = [s.me]) {u : State}
    (hu : u = s.updCas fun k => { k with telem := k.telem.map fun e => (e.1, (e.2.1, e.2.2 + 1)) }) :
    ∃ cap, execCapAllocate s = .next (u.wr F.PWR_CAP_CAP 0 cap) ∧ cap ≤ 60000 := by
  have hme : u.me = s.me := by rw [hu]; rfl
  have hlist : u.memberList = [u.me] := by rw [hme, ← hmembers, hu]; rfl
  obtain ⟨cap, hcap, hle⟩ := allocate_single (u.rd F.CAS_BUDGET_BUDGET 0) u.me (u.reportOf u.me)
  refine ⟨cap, ?_, hle⟩
  rw [execCapAllocate, if_neg (by simp [hrole, hwhole])]
  dsimp only
  rw [← hu, hlist, List.map_cons, List.map_nil, hcap]
  exact congrArg Host.Outcome.next (if_pos rfl)

/-! ### Forwarding (R503, R504) -/

section Forward
variable {c : CasHdr} {typ : BitVec 8} {crcOk : Bool} {len : Nat} {s u : State} (hu : u = s.updCas fun k => { k with linkDown := false })
include hu

/-- A message that passes through goes on, counted where its check failed. -/
theorem execCascadeForward_of_passing (hown : (c.src.val == s.me && typ != 1 && s.role != 3) = false) (htoMe : (!c.bc && c.dst.val == s.me) = false)
    {t : State} (ht : t = u.updCas fun k => { k with fwd := k.fwd ++ [FwdMsg.mk c typ.toNat (some len) crcOk] }) :
    execCascadeForward c typ crcOk false len s = .next (if crcOk then t else t.bump F.CAS_CNT_CRCERR 0 1) := by
  have hme : u.me = s.me := by rw [hu]; rfl
  have hrole : u.role = s.role := by rw [hu]; rfl
  rw [execCascadeForward, ← hu]
  rw [hme, hrole, hown, htoMe, Bool.or_false, ← ht]
  cases crcOk
  · rw [if_neg Bool.false_ne_true, if_neg Bool.false_ne_true, if_pos Bool.not_false, if_neg Bool.false_ne_true]
  · rw [if_neg Bool.false_ne_true, if_neg (by decide), Bool.false_and, Bool.false_and, if_neg Bool.false_ne_true, if_neg Bool.false_ne_true, if_pos rfl]

/-- A message for this instance alone does not go on. -/
theorem execCascadeForward_of_mine (htoMe : (!c.bc && c.dst.val == s.me) = true) :
    execCascadeForward c typ crcOk false len s = .next (if crcOk then u else u.bump F.CAS_CNT_CRCERR 0 1) := by
  have hme : u.me = s.me := by rw [hu]; rfl
  rw [execCascadeForward, ← hu]
  rw [hme, htoMe, Bool.or_true, if_pos rfl, Bool.not_true, Bool.and_false]
  cases crcOk
  · rw [if_neg Bool.false_ne_true, if_pos Bool.not_false, if_neg Bool.false_ne_true]
  · rw [if_neg Bool.false_ne_true, if_neg (by decide), if_neg Bool.false_ne_true, if_pos rfl]

/-- The instance's own message that has come round is removed, and counted where it was for one instance. -/
theorem execCascadeForward_of_own (hown : (c.src.val == s.me && typ != 1 && s.role != 3) = true) (htoMe : (!c.bc && c.dst.val == s.me) = false) :
    execCascadeForward c typ true false len s = .next (if c.bc then u else u.bump F.CAS_CNT_UNDELIV 0 1) := by
  have hme : u.me = s.me := by rw [hu]; rfl
  have hrole : u.role = s.role := by rw [hu]; rfl
  rw [execCascadeForward, ← hu]
  rw [hme, hrole, hown, htoMe, Bool.true_or, if_pos rfl, if_neg Bool.false_ne_true, if_neg (by decide), Bool.not_false, Bool.and_true, Bool.true_and]
  cases c.bc
  · rw [if_pos Bool.not_false, if_neg Bool.false_ne_true]
  · rw [if_neg (by decide), if_pos rfl]

end Forward

/-- Settles O53: each message and timer of the cascade at its receiver. -/
theorem cascadeIsKept : Obligations.CascadeIsKept := by
  unfold Obligations.CascadeIsKept
  intro s t c
  refine ⟨?_, ?_, ?_, ?_, ?_, ?_, ?_, ?_, ?_, ?_, ?_, ?_, ?_, ?_, ?_, ?_⟩
  · intro m htaken hdrawn
    have hhello := execHello_of_taken htaken hdrawn
    refine ⟨?_, fun hme hnonce => hhello.trans ((if_pos hme).trans (if_neg hnonce)), fun hme => hhello.trans (if_neg hme)⟩
    intro hme hnonce back
    have hback := hhello.trans ((if_pos hme).trans (if_pos hnonce))
    exact ⟨fun h => hback.trans (congrArg Host.Outcome.next (helloBack_of_none h)),
      fun r hrole hfind => hback.trans (congrArg Host.Outcome.next (helloBack_of_kept hrole hfind))⟩
  · intro hdrawn hrole
    exact congrArg Host.Outcome.next (if_pos (by simp [hdrawn, hrole]))
  · intro hdrawn hrole hback members
    exact execElectionTimeout_of_returned hdrawn hrole hback rfl
  · intro htaken hrole hdrawn hback hstrap m e w hm hsrc
    exact execRole_of_new htaken hrole hdrawn hback hstrap hm hsrc
  · intro hrole hph hat hme u
    exact execStartSend_of_last hrole hph hat hme rfl
  · intro hrole haway
    exact execTimeSend_of_whole hrole haway
  · intro hrole
    exact congrArg Host.Outcome.next (if_pos hrole)
  · intro hdown
    exact congrArg Host.Outcome.next (if_neg (by rw [hdown]; decide))
  · intro hrole hlost
    exact congrArg Host.Outcome.next (if_pos (by simp [hrole, hlost]))
  · intro htaken hrole phase u
    exact congrArg Host.Outcome.next ((onCas_of_taken htaken _).trans (if_neg hrole))
  · intro htaken wall w
    refine ⟨fun hrole hsrc => congrArg Host.Outcome.next ((onCas_of_taken htaken _).trans ((if_neg (by omega)).trans (if_pos ?_))),
      fun hrole hsrc hwhole => congrArg Host.Outcome.next ((onCas_of_taken htaken _).trans ((if_pos hrole).trans ((if_neg (not_not_intro hsrc)).trans (if_neg ?_))))⟩
    · simp [hrole, hsrc]
    · rw [hwhole]
      decide
  · intro htaken hrole hsrc v
    have hmgr : ¬ (t.role ≠ 1 || c.src.val != t.mgr) = true := by simp [hrole, hsrc]
    exact ⟨congrArg Host.Outcome.next ((onCas_of_taken htaken _).trans ((if_neg hmgr).trans (if_pos rfl))),
      congrArg Host.Outcome.next ((onCas_of_taken htaken _).trans ((if_neg hmgr).trans ((if_neg (by decide)).trans (if_pos rfl)))),
      congrArg Host.Outcome.next ((onCas_of_taken htaken _).trans ((if_neg hmgr).trans ((if_neg (by decide)).trans ((if_neg (by decide)).trans (if_pos rfl)))))⟩
  · intro htaken hrole p l m w
    exact congrArg Host.Outcome.next (onMgr_of_taken htaken _ hrole)
  · intro htaken hrole r z
    exact congrArg Host.Outcome.next (onMgr_of_taken htaken _ hrole)
  · intro hrole hwhole hmembers u
    exact execCapAllocate_of_alone hrole hwhole hmembers rfl
  · intro typ crcOk len u own toMe passed
    have htoMe : (!c.bc && c.dst.val == s.me) = true ↔ toMe := by
      simp only [toMe, Bool.and_eq_true, Bool.not_eq_true', beq_iff_eq]
    have hown : (c.src.val == s.me && typ != 1 && s.role != 3) = true ↔ own := by
      simp only [own, Bool.and_eq_true, beq_iff_eq, bne_iff_ne, and_assoc]
    refine ⟨fun hno hnt => ?_, fun ht => execCascadeForward_of_mine rfl (htoMe.mpr ht), fun ho hnt hcrc => ?_⟩
    · exact execCascadeForward_of_passing rfl (Bool.eq_false_iff.mpr fun h => hno (hown.mp h)) (Bool.eq_false_iff.mpr fun h => hnt (htoMe.mp h)) rfl
    · rw [hcrc]
      exact execCascadeForward_of_own rfl (hown.mpr ho) (Bool.eq_false_iff.mpr fun h => hnt (htoMe.mp h))

end Sys2Proof.Proofs

/-! ## The services of the font -/

namespace Sys2Proof.Proofs
open Sys2Proof Sys2Proof.Machine

/-- What a row does as a whole depends on what it does to the state as it is. -/
theorem wholly_congr {s : State} {f g : State → State} (h : f s = g s) : s.wholly f = s.wholly g := by
  rw [State.wholly, State.wholly, h]

/-! ### The pool (19_cascade_and_services.md R532 to R535) -/

/-- A call that names a live page of a configured pool acts on the page. -/
theorem onPage_of_page {s : State} {h : Nat} {p : PoolPage} (hon : s.poolOn = true) (hpage : s.page h = some p) (f : PoolPage → State) :
    s.onPage h f = f p := by
  rw [State.onPage, if_neg (by simp [hon]), hpage]

theorem onPage_of_off {s : State} (h : Nat) (hoff : s.poolOn = false) (f : PoolPage → State) : s.onPage h f = s.svcReply 8 0 0 :=
  if_pos (by simp [hoff])

theorem onPage_of_none {s : State} {h : Nat} (hon : s.poolOn = true) (hpage : s.page h = none) (f : PoolPage → State) :
    s.onPage h f = s.svcReply 3 0 0 := by
  rw [State.onPage, if_neg (by simp [hon]), hpage]

/-- The only page is published under the hash of its bytes. -/
theorem execPoolPublish_of_single {s u : State} {h : Nat} {p : PoolPage} {d : Bytes} (hserve : s.serving 0x103 [h] = true) (hon : s.poolOn = true)
    (hpage : s.page h = some p) (hlocal : p.spill = none) (hread : s.fontRead p.addr (2 ^ p.s) = (u, some d)) (hpages : u.font.pages = [p])
    (hpub : p.hash ≠ none) {x : Nat} (hx : x = contentHash (2 ^ p.s / 8) d p.s) :
    execPoolPublish h s = .next (s.wholly fun _ => (u.setPage p.handle (some { p with hash := some x })).svcReply 0 p.handle x) := by
  have hsame : (u.font.pages.filter fun q => q.handle ≠ p.handle && q.hash == some x && q.s == p.s && q.spill.isNone) = [] := by simp [hpages]
  rw [execPoolPublish, if_neg (by simp [hserve])]
  refine congrArg Host.Outcome.next (wholly_congr ?_)
  dsimp only
  rw [onPage_of_page hon hpage, if_neg (by simp [hlocal]), hread]
  dsimp only
  rw [← hx, hsame, List.foldl_nil]
  dsimp only
  rw [if_neg (by simp [Option.isNone_iff_eq_none, hpub])]

/-- A local page is copied to a free place of the share on a partner, and its blocks freed. -/
theorem execPoolEvict_of_place {s : State} {h node a : Nat} {p : PoolPage} (hserve : s.serving 0x105 [h, node] = true) (hon : s.poolOn = true)
    (hpage : s.page h = some p) (hspill : s.spillOn = true) (hlocal : p.spill = none) (hnode : node < 64) (hroute : s.route node = 1)
    (hplace : s.spillPlace node p.s = some a) :
    execPoolEvict h node true s =
      .next (((s.setPage h (some { p with spill := some (node, a) })).freeBlocks p.addr p.s).svcReply 0 h 0) := by
  rw [execPoolEvict, if_neg (by simp [hserve]), onPage_of_page hon hpage, if_neg (by simp [hspill]), if_neg (by simp [hlocal]),
    if_neg (by simp [hroute]; omega), hplace]
  dsimp only
  rw [if_neg (by decide)]

/-- A page that is fetched: at its place where it is local, and otherwise in a new one. -/
theorem execPoolFetch_of_page {s : State} {h : Nat} {data : Bytes} {p : PoolPage} (hserve : s.serving 0x106 [h] = true) (hon : s.poolOn = true)
    (hpage : s.page h = some p) :
    (p.spill = none → execPoolFetch h data s = .next (s.wholly fun s => s.svcReply 0 h (s.pageAddr p))) ∧
    (p.spill ≠ none → s.spillOn = true → data.length = 2 ^ p.s → ∀ a, s.arenaPlace p.s = some a →
      ∀ q : PoolPage, q = { p with addr := a, spill := none } →
        execPoolFetch h data s = .next (s.wholly fun s => ((s.fontWrite a data).setPage h (some q)).svcReply 0 h (s.pageAddr q))) := by
  have hserve' : ¬ (!s.serving 0x106 [h]) = true := by simp [hserve]
  refine ⟨fun hlocal => ?_, fun haway hspill hlen a hplace q hq => ?_⟩
  · refine (if_neg hserve').trans (congrArg Host.Outcome.next (wholly_congr ((onPage_of_page hon hpage _).trans (if_pos ?_))))
    simp [hlocal]
  · subst hq
    have haway' : ¬ p.spill.isNone = true := by simp [Option.isNone_iff_eq_none, haway]
    have hspill' : ¬ (!s.spillOn) = true := by simp [hspill]
    refine (if_neg hserve').trans (congrArg Host.Outcome.next
      (wholly_congr ((onPage_of_page hon hpage _).trans ((if_neg haway').trans ((if_neg hspill').trans ?_)))))
    rw [hplace]
    exact if_neg (not_not_intro hlen)

/-- The answers to an allocation of a configured pool; the first page takes the next unused handle. -/
theorem execPoolAlloc_of_on {s : State} {e : Nat} (hserve : s.serving 0x100 [e] = true) (hon : s.poolOn = true) :
    (e < 12 ∨ 21 < e → execPoolAlloc e s = .next (s.svcReply 4 0 0)) ∧
    (12 ≤ e → e ≤ 21 → s.arenaPlace e = none → execPoolAlloc e s = .next (s.svcReply 1 0 0)) ∧
    (12 ≤ e → e ≤ 21 → s.font.pages = [] → ∀ a, s.arenaPlace e = some a → ∀ n, n = s.font.nextPage % 2 ^ 32 →
      ∀ p : PoolPage, p = { handle := n, s := e, addr := a, count := 1, spill := none, hash := none } →
      ∀ t : State, t = { s with font := { s.font with pages := [p], nextPage := (n + 1) % 2 ^ 32 } } →
        execPoolAlloc e s = .next (t.svcReply 0 n (t.pageAddr p))) := by
  have hserve' : ¬ (!s.serving 0x100 [e]) = true := by simp [hserve]
  have hon' : ¬ (!s.poolOn) = true := by simp [hon]
  refine ⟨fun hout => ?_, fun hlo hhi hnone => ?_, fun hlo hhi hpages a hplace n hn p hp t ht => ?_⟩
  · rw [execPoolAlloc, if_neg hserve', if_neg hon', if_pos hout]
  · rw [execPoolAlloc, if_neg hserve', if_neg hon', if_neg (by omega), hnone]
  · have hhandle : ((((List.range (s.font.pages.length + 1)).map fun k => (s.font.nextPage + k) % 2 ^ 32).find?
        fun k => !(s.font.pages.any fun p => p.handle = k)).getD 0) = n := by
      simp [hpages, hn]
    rw [execPoolAlloc, if_neg hserve', if_neg hon', if_neg (by omega), hplace]
    dsimp only
    rw [hhandle, hpages, List.nil_append, ← hp, ← ht]

/-! ### Census, mailboxes, assay and keys (R519 to R524, R536, R538) -/

/-- The only entry of a queue, a census read, completes without data. -/
theorem execCensusReadMissed_of_single {s : State} {pc : Pc} {x : Entry} (hqueue : (s.pc pc.val).queue = [x]) {a b : Nat}
    (horigin : x.req.origin = .census a b) :
    execCensusReadMissed pc s = .next ((s.updPc pc.val fun q => { q with queue := [] }).respond x.req 1 false []).censusDone := by
  have hdrop : s.updPc pc.val (fun q => { q with queue := dropFirst (fun y => y == x) q.queue }) = s.updPc pc.val fun q => { q with queue := [] } :=
    updPc_congr (by rw [hqueue, dropFirst, if_pos (beq_self_eq_true x)])
  rw [execCensusReadMissed]
  simp only [hqueue, List.find?_cons, horigin]
  rw [hdrop]

/-- A census call at the head of the queue takes its snapshots where the census is configured. -/
theorem execCensusSnapCall_of_head {s : State} {mask : BitVec 8} {c : SvcCall} (hhead : s.headCall = some c) (hfunc : c.func = 0x200)
    (harg : c.args.headD 0 % 256 = mask.toNat) :
    execCensusSnapCall mask s = .next (if s.censusOn then (s.takeSnaps mask.toNat).svcReply 0 0 0 else s.svcReply 8 0 0) := by
  rw [execCensusSnapCall, hhead]
  dsimp only
  rw [if_neg (by rw [hfunc, harg, beq_self_eq_true, beq_self_eq_true]; decide)]
  split <;> rfl

/-- A host request on a font that is ON is answered where the pseudo-channel is not OPEN, and otherwise its repair is done with the pages it names. -/
theorem execAssayRepair_of_found {s : State} {pc : Pc} {i : Nat} {r : List PageRepair} {ok : Bool} (hon : s.domOn 64 = true)
    (hfind : s.mboxFind 2 (some pc.val) = some i) :
    (s.pcSt pc.val ≠ 1 → execAssayRepair pc r ok s = .next (s.mboxDone i 3 [])) ∧
    (s.pcSt pc.val = 1 → r = [] → ∀ t : State, t = (s.quietPc pc.val).wr F.PC_STAT_STATE pc.val 0 →
      execAssayRepair pc r ok s = .next ((t.outOfSelfRefresh pc.val ok ok).mboxDone i 0 [0, 0])) := by
  have hon' : ¬ (!s.domOn 64) = true := by simp [hon]
  refine ⟨fun hst => ?_, fun hst hr t ht => ?_⟩
  · rw [execAssayRepair]
    dsimp only
    rw [if_neg hon', hfind]
    exact if_pos hst
  · subst hr
    rw [execAssayRepair]
    dsimp only
    rw [if_neg hon', hfind]
    dsimp only
    rw [if_neg (not_not_intro hst), ← ht]
    rfl

/-- A host test on a font that is ON is refused while a port is OPEN. -/
theorem execAssayTest_of_found {s : State} {pc : Pc} {i : Nat} {f : Findings} (hon : s.domOn 64 = true) (hfind : s.mboxFind 3 (some pc.val) = some i) :
    execAssayTest pc f s =
      if s.anyOpen then .next (s.mboxDone i 3 [])
      else
        let t := (s.quietPc pc.val).dropLines (fun l => (s.map.chunk l.chunk).1 = pc.val) 1
        let u := { t with basin := { t.basin with buffer := t.basin.buffer.filter fun l => (s.map.chunk l.chunk).1 ≠ pc.val } }
        let r := u.assayed pc.val f
        .next (r.1.mboxDone i 0 [b2n !r.2.1, r.2.2.1, r.2.2.2]) := by
  rw [execAssayTest]
  dsimp only
  rw [if_neg (by simp [hon]), hfind]

/-- A word of a key slot that is not locked is stored (R522). -/
theorem keyWrite_of_open {s : State} {k w v : Nat} (hans : s.answers 0x904000 = true) (hopen : (Store.get 0 s.font.keys (k * 16 + 12)).testBit 63 = false)
    (hw : w < 12) : s.keyWrite k w v = ({ s with font := { s.font with keys := Store.put 0 s.font.keys (k * 16 + w) v } } : State).ok := by
  have hopen' : ¬ (!s.answers 0x904000 || decide (13 ≤ w) || (Store.get 0 s.font.keys (k * 16 + 12)).testBit 63) = true := by
    rw [hans, hopen, decide_eq_false (by omega)]
    decide
  refine (if_neg hopen').trans ?_
  dsimp only
  rw [if_neg (by omega)]

/-- Settles O54: the pool's calls, then the census, the mailboxes, assay, the configuration, the keys and the firmware. -/
theorem servicesAnswer : Obligations.ServicesAnswer := by
  unfold Obligations.ServicesAnswer
  intro s h e w pc slot k j
  refine ⟨?_, ?_, ?_, ?_, ?_, ?_, ?_, ?_, fun hans => congrArg Host.Outcome.next (hostWrite_of_answers _ hans), ?_, ?_,
    fun hans => congrArg Host.Outcome.next (hostWrite_of_answers _ hans)⟩
  · intro node data onH
    refine ⟨?_, fun hoff hserve => ?_, fun hon hpage hserve => ?_⟩
    · intro hon p hpage
      refine ⟨fun hserve hcount => ?_, fun hserve => ?_, ?_, fun hserve hspill hlocal hnode hroute a hplace => ?_,
        fun hserve => ?_, fun hserve => ?_⟩
      · refine congrArg Host.Outcome.next ((if_pos hserve).trans ((onPage_of_page hon hpage _).trans (if_neg ?_)))
        omega
      · exact congrArg Host.Outcome.next ((if_pos hserve).trans (onPage_of_page hon hpage _))
      · intro hserve hlocal u d hread hpages hpub x
        exact execPoolPublish_of_single hserve hon hpage hlocal hread hpages hpub rfl
      · exact execPoolEvict_of_place hserve hon hpage hspill hlocal hnode hroute hplace
      · obtain ⟨hhere, haway⟩ := execPoolFetch_of_page (data := data) hserve hon hpage
        exact ⟨hhere, fun h1 h2 h3 a h4 => haway h1 h2 h3 a h4 _ rfl⟩
      · refine congrArg Host.Outcome.next ((if_pos hserve).trans ((onPage_of_page hon hpage _).trans ?_))
        cases hsp : p.spill <;> rfl
    · exact congrArg Host.Outcome.next ((if_pos hserve).trans (onPage_of_off _ hoff _))
    · exact congrArg Host.Outcome.next ((if_pos hserve).trans (onPage_of_none hon hpage _))
  · intro hserve hon
    obtain ⟨hsize, hfull, hfirst⟩ := execPoolAlloc_of_on hserve hon
    exact ⟨hsize, hfull, fun hlo hhi hpages a hplace => hfirst hlo hhi hpages a hplace _ rfl _ rfl _ rfl⟩
  · intro hserve hon
    have hserve' : ¬ (!s.serving 0x104 [w.toNat, e]) = true := by simp [hserve]
    have hon' : ¬ (!s.poolOn) = true := by simp [hon]
    refine ⟨fun hnone => ?_, fun p hsome hlocal => ?_⟩
    · change execPoolLookup w e s = _
      rw [execPoolLookup, if_neg hserve', if_neg hon', hnone]
    · change execPoolLookup w e s = _
      rw [execPoolLookup, if_neg hserve', if_neg hon', hsome]
      exact if_neg (by simp [hlocal])
  · intro mask c hhead hfunc harg
    exact execCensusSnapCall_of_head hhead hfunc harg
  · intro x hqueue hcensus
    obtain ⟨a, b, horigin⟩ := hcensus
    exact execCensusReadMissed_of_single hqueue horigin
  · refine ⟨rfl, fun hbusy => if_pos ?_⟩
    rw [hbusy, Bool.or_true]
  · intro l
    exact ⟨fun hroom => if_neg (by omega), fun hfull => if_pos hfull⟩
  · intro hon
    refine ⟨fun i hfind => ?_, fun hnone => ?_, fun i r ok hfind => ?_, fun i f hfind => ?_⟩
    · change execStatus s = _
      rw [execStatus, if_neg (by simp [hon]), hfind]
    · change execStatus s = _
      rw [execStatus, if_neg (by simp [hon]), hnone]
    · obtain ⟨hclosed, hopen⟩ := execAssayRepair_of_found (r := r) (ok := ok) hon hfind
      exact ⟨hclosed, fun hst hr => hopen hst hr _ rfl⟩
    · have htest := execAssayTest_of_found (f := f) hon hfind
      exact ⟨fun hany => htest.trans (if_pos hany), fun hany => htest.trans (if_neg (by rw [hany]; decide))⟩
  · intro hans hopen hj
    exact congrArg Host.Outcome.next (keyWrite_of_open hans hopen hj)
  · intro hans hlocked
    refine congrArg Host.Outcome.next (if_pos ?_)
    rw [hlocked, Bool.or_true]

end Sys2Proof.Proofs

/-! ## Plume -/

namespace Sys2Proof.Proofs
open Sys2Proof Sys2Proof.Machine

section Message
variable {s t : State} {c : CasHdr} {typ : Nat} (htaken : s.casTake c typ false = (t, true)) (hon : t.domOn 64 = true) (hsrc : c.src.val ≠ t.me)
include htaken hon hsrc

/-- A plume message taken from another instance while the font is ON has its effect as a whole. -/
theorem onPl_of_taken (f : State → State) : s.onPl c typ f = t.wholly f := by
  rw [State.onPl, onCas_of_taken htaken]
  exact if_pos (by rw [hon, bne_iff_ne.mpr hsrc]; rfl)

/-- What such a message does, through its effect on the state that took it. -/
theorem onPl_of_effect {f g : State → State} (h : f t = g t) : s.onPl c typ f = t.wholly g :=
  (onPl_of_taken htaken hon hsrc f).trans (wholly_congr h)

end Message

/-- A good packet of the announced image (R527 step 2). -/
theorem execPlData_effect {t : State} {image : BitVec 16} {n crc : BitVec 32} {data : Bytes} (himage : t.plHas image.toNat = true)
    (hheader : headerGood t.font.plume.hdr = true) (hlength : lengthGood t.font.plume.hdr = true) (hn : n.toNat < packetsOf t.font.plume.hdr)
    (hdata : data.length = 4096) (hcrc : crc32c data = crc.toNat) :
    (t.plHas image.toNat && headerGood t.font.plume.hdr && lengthGood t.font.plume.hdr && decide (n.toNat < packetsOf t.font.plume.hdr)
      && data.length == 4096 && crc32c data == crc.toNat) = true := by
  rw [himage, hheader, hlength, decide_eq_true hn, beq_iff_eq.mpr hdata, beq_iff_eq.mpr hcrc]
  rfl

/-- The end of the wait for core reports, of an instance that has armed its copy (R529). -/
theorem execArmwaitExpire_of_armed {s : State} {a : Nat} (harea : s.plumeArea = some a) (harmed : s.font.plume.armed = true) (hon : s.domOn 64 = true) :
    execArmwaitExpire s = .next (s.wholly fun t =>
      let r := (t.updPl fun p => { p with armed := false }).readyCores a t.plImage
      r.1.sayReady 0 r.2 0) := by
  rw [execArmwaitExpire, harea]
  refine (if_neg (by simp [harmed, hon])).trans (congrArg Host.Outcome.next (wholly_congr ?_))
  dsimp only

/-- Settles O55: the host's commands, the messages of a plume at a receiver and at the manager, and the ends of the waits. -/
theorem plumesRun : Obligations.PlumesRun := by
  unfold Obligations.PlumesRun
  intro s t c v
  refine ⟨fun hans => ⟨congrArg Host.Outcome.next (hostWrite_of_answers _ hans), congrArg Host.Outcome.next (hostWrite_of_answers _ hans)⟩, ?_, ?_, ?_⟩
  · intro got plume
    refine ⟨fun hdr ⟨htaken, hon, hsrc⟩ => ?_, fun image n crc data a ⟨htaken, hon, hsrc⟩ harea himage hheader hlength hn hdata hcrc => ?_, fun image r ⟨htaken, hon, hsrc⟩ himage harea => ?_,
      fun image out ⟨htaken, hon, hsrc⟩ himage => ?_, fun image now go map ⟨htaken, hon, hsrc⟩ => ?_, fun image ⟨htaken, hon, hsrc⟩ himage => ?_, fun hrole => ⟨fun code cores jets ⟨htaken, hon, hsrc⟩ => ?_, ?_⟩⟩
    · exact congrArg Host.Outcome.next (onPl_of_taken htaken hon hsrc _)
    · refine congrArg Host.Outcome.next (onPl_of_effect htaken hon hsrc ?_)
      dsimp only
      rw [harea]
      exact if_pos (execPlData_effect himage hheader hlength hn hdata hcrc)
    · refine congrArg Host.Outcome.next (onPl_of_effect htaken hon hsrc ?_)
      dsimp only
      rw [if_neg (by simp [himage]), harea]
      rfl
    · exact congrArg Host.Outcome.next (onPl_of_effect htaken hon hsrc (if_neg (by simp [himage])))
    · exact congrArg Host.Outcome.next (onPl_of_taken htaken hon hsrc _)
    · exact congrArg Host.Outcome.next (onPl_of_effect htaken hon hsrc (if_pos himage))
    · exact congrArg Host.Outcome.next (onPl_of_effect htaken hon hsrc (if_pos hrole))
    · intro ⟨htaken, hon, hsrc⟩ hst hmember total l
      have hroll : ¬ (t.role ≠ 2 || t.plSt ≠ 3 || !t.plMembers.contains c.src.val) = true := by
        rw [hmember]
        simp [hrole, hst]
      exact ⟨congrArg Host.Outcome.next (onPl_of_effect htaken hon hsrc ((if_neg hroll).trans (if_pos (Or.inl rfl)))),
        congrArg Host.Outcome.next (onPl_of_effect htaken hon hsrc ((if_neg hroll).trans (if_neg (by decide))))⟩
  · intro a harea hon
    refine ⟨fun hrole hst => ?_, fun harmed => execArmwaitExpire_of_armed harea harmed hon⟩
    change execRollwaitExpire s = _
    rw [execRollwaitExpire, harea]
    exact congrArg Host.Outcome.next (if_pos (by simp [hrole, hst, hon]))
  · intro k hrole hst hon hmember hdone
    refine congrArg Host.Outcome.next (if_pos ?_)
    rw [hmember, hdone]
    simp [hrole, hst, hon]

end Sys2Proof.Proofs

/-! ## Event records -/

namespace Sys2Proof.Proofs
open Sys2Proof Sys2Proof.Machine

/-! ### The collector (20_events_and_sediment.md R544, R545) -/

/-- The record that enters next, once logged: dropped where no queue takes it while writing is possible, and otherwise buffered where there is room. -/
theorem execEventCollect_of_record {s t : State} {e : EvRec} (hnext : s.nextRecord = some e)
    (ht : t = (s.updEv fun v => { v with arising := dropFirst (fun x => x == e) v.arising }).logRecord e) :
    execEventCollect s =
      if t.evWritable && (t.evRoute e).isNone then .next (t.evDrop e)
      else if (if e.sev = 4 then decide (256 ≤ t.events.buffer.length) else t.evFull) then .next (t.bump F.GLB_EVCNT_DROPPED 0 1)
      else .next (t.updEv fun v => { v with buffer := v.buffer ++ [e] }) := by
  rw [execEventCollect, hnext, ht]

/-! ### The event queues (R546 to R549) -/

/-- Queue n of s is full: PROD is a whole queue ahead of CONS. -/
def evqFull (s : State) (n : Nat) : Prop := (s.prod n + 2 ^ 32 - s.consOf n) % 2 ^ 32 = s.evSize n

/-- Records of queue n were lost, and there is room to say so (R547). -/
def evqLate (s : State) (n : Nat) : Prop := ¬ evqFull s n ∧ Store.get 0 s.events.lostRun n ≠ 0 ∧ s.queueOn n = true

/-- s with a record out of the buffer. -/
def evTaken (e : EvRec) (s : State) : State := s.updEv fun v => { v with buffer := dropFirst (fun x => x == e) v.buffer }

/-- Where no lost record is due, the check for EVQ_LOST fails. -/
theorem not_late_check {t : State} {n : Nat} (hlate : ¬ evqLate t n) :
    ¬ (!((t.prod n + 2 ^ 32 - t.consOf n) % 2 ^ 32 == t.evSize n) && Store.get 0 t.events.lostRun n != 0 && t.queueOn n) = true := by
  rw [Bool.and_eq_true, Bool.and_eq_true, Bool.not_eq_true', beq_eq_false_iff_ne, bne_iff_ne, and_assoc]
  exact hlate

section Queue
variable {s t u : State} {n : Nat} {o : Option EvRec} (hwritable : s.evWritable = true) (hfirst : s.evFirst n s.events.buffer = (t, o))
include hwritable hfirst

/-- EVQ_LOST goes first where records were lost and there is room. -/
theorem evWrite_of_late (hlate : evqLate t n)
    (hput : t.evPut n (t.prod n) ((t.prod n + 1) % 2 ^ 32) (t.lostRecord n (Store.get 0 t.events.lostRun n)) = (u, true)) :
    s.evWrite n = (u.updEv fun v => { v with lostRun := Store.put 0 v.lostRun n 0 }).evNote n false := by
  obtain ⟨hroom, hlost, hon⟩ := hlate
  refine (if_neg (by simp [hwritable])).trans ?_
  rw [hfirst]
  refine (if_pos ?_).trans ?_
  · rw [beq_false_of_ne hroom, bne_iff_ne.mpr hlost, hon]
    rfl
  · rw [hput]

section Next
variable (hlate : ¬ evqLate t n)
include hlate

/-- Nothing is written where no record waits for the queue. -/
theorem evWrite_of_none (ho : o = none) : s.evWrite n = t := by
  subst ho
  refine (if_neg (by simp [hwritable])).trans ?_
  rw [hfirst]
  exact if_neg (not_late_check hlate)

/-- A full queue loses a record that is not fatal. -/
theorem evWrite_of_lost {e : EvRec} (ho : o = some e) (hfull : evqFull t n) (hsev : e.sev ≠ 4) : s.evWrite n = (evTaken e t).evLost n 1 := by
  subst ho
  refine (if_neg (by simp [hwritable])).trans ?_
  rw [hfirst]
  refine (if_neg (not_late_check hlate)).trans (if_pos ?_)
  rw [beq_iff_eq.mpr hfull, bne_iff_ne.mpr hsev]
  rfl

/-- In a full queue a fatal record takes the place of the newest. -/
theorem evWrite_of_fatal {e : EvRec} (ho : o = some e) (hfull : evqFull t n) (hsev : e.sev = 4)
    (hput : (t.evLost n 1).evPut n (t.prod n + 2 ^ 32 - 1) (t.prod n) e = (u, true)) : s.evWrite n = (evTaken e u).evNote n true := by
  subst ho
  refine (if_neg (by simp [hwritable])).trans ?_
  rw [hfirst]
  refine (if_neg (not_late_check hlate)).trans ((if_neg ?_).trans ((if_pos (beq_iff_eq.mpr hfull)).trans ?_))
  · rw [hsev, bne_self_eq_false, Bool.and_false]
    decide
  · rw [hput]
    rfl

/-- A record for a queue that has room is written to its area. -/
theorem evWrite_of_room {e : EvRec} (ho : o = some e) (hroom : ¬ evqFull t n)
    (hput : t.evPut n (t.prod n) ((t.prod n + 1) % 2 ^ 32) e = (u, true)) : s.evWrite n = (evTaken e u).evNote n (e.sev == 4) := by
  subst ho
  refine (if_neg (by simp [hwritable])).trans ?_
  rw [hfirst]
  refine (if_neg (not_late_check hlate)).trans ((if_neg ?_).trans ((if_neg ?_).trans ?_))
  · rw [beq_false_of_ne hroom, Bool.false_and]
    decide
  · rw [beq_false_of_ne hroom]
    decide
  · rw [hput]
    rfl

end Next

end Queue

/-! ### CONS, the log and its aggregation (R549 to R556) -/

/-- CONS is taken within the records written: it arms the queue, which notifies at once where it is not empty. -/
theorem wEvqptr_of_within {s : State} {q v : Nat} (h : (s.prod q + 2 ^ 32 - F.GLB_EVQPTR_CONS.of v) % 2 ^ 32 ≤ s.evSize q) {t : State}
    (ht : t = (s.wr F.GLB_EVQPTR_CONS q (F.GLB_EVQPTR_CONS.of v)).setArmed q true) :
    s.wEvqptr q v = if t.prod q = F.GLB_EVQPTR_CONS.of v then t else t.notify q := by
  subst ht
  exact if_neg (by omega)

/-- A request of the manager for the log, without a freeze, to a worker (R555 step 2). -/
theorem execSed_request {c : CasHdr} {p : BitVec 16} {s t : State} (htaken : s.casTake c 0x30 false = (t, true)) (hrole : t.role = 1)
    (hsrc : c.src.val = t.mgr) :
    execSed c 0 p [0] s = .next (t.wholly fun t => (t.updEv fun v => { v with aggSnap := t.logState }).sedSend (logIndices t.logState)) := by
  refine congrArg Host.Outcome.next ((onCas_of_taken htaken _).trans (wholly_congr ?_))
  refine (if_neg ?_).trans ?_
  · rw [bne_eq_false_iff_eq.mpr hsrc, Bool.or_false, decide_eq_true_eq]
    exact not_not_intro hrole
  · rw [if_neg (by decide)]

/-- END of the member being collected, at the manager (R555 step 4). -/
theorem execSed_end {c : CasHdr} {p : BitVec 16} {data : Bytes} {s t : State} (htaken : s.casTake c 0x30 false = (t, true)) (hrole : t.role = 2)
    (hst : t.rd F.GLB_SEDAGGSTAT_STATE 0 = 1) (hcur : t.rd F.GLB_SEDAGGSTAT_CUR 0 = c.src.val) :
    execSed c 2 p data s = .next (t.wholly fun t => t.aggEnd c.src.val (leNat (sliceB data 0 8))) := by
  refine congrArg Host.Outcome.next ((onCas_of_taken htaken _).trans (wholly_congr ?_))
  refine if_pos ?_
  rw [beq_iff_eq.mpr hrole, beq_iff_eq.mpr hst, beq_iff_eq.mpr hcur]
  rfl

/-- Settles O56: the collector, a queue's records, CONS, the log's controls, and the aggregation. -/
theorem eventsAreCollected : Obligations.EventsAreCollected := by
  unfold Obligations.EventsAreCollected
  intro s q v n
  refine ⟨fun hnone => ?_, ?_, fun hclosed => ?_, ?_, fun hans => ?_, fun hans => congrArg Host.Outcome.next (hostWrite_of_answers _ hans), fun hans => ?_,
    fun hans => congrArg Host.Outcome.next (hostWrite_of_answers _ hans), fun c t htaken => ?_, fun hrole hst => ?_⟩
  · change execEventCollect s = _
    rw [execEventCollect, hnone]
  · intro e hnext t
    have hcollect := execEventCollect_of_record hnext (t := t) rfl
    refine ⟨fun hwritable hroute => hcollect.trans (if_pos (by rw [hwritable, hroute]; rfl)), ?_⟩
    intro taken hkept
    have hkept' : ¬ (t.evWritable && (t.evRoute e).isNone) = true := by
      obtain h | h := hkept
      · simp [h]
      · simp [Option.isNone_iff_eq_none, h]
    refine ⟨fun hsev => (hcollect.trans (if_neg hkept')).trans ?_, fun hsev => (hcollect.trans (if_neg hkept')).trans ?_⟩
    · rw [if_neg hsev]
      split <;> rfl
    · rw [if_pos hsev]
      simp only [decide_eq_true_eq]
      split <;> rfl
  · exact congrArg Host.Outcome.next (wholly_congr (if_pos (by rw [hclosed]; rfl)))
  · intro hwritable t o hfirst full lost early
    have hwrite : ∀ w, s.evWrite n = w → exec (.eventQueueWrite q) s = .next (s.wholly fun _ => w) :=
      fun w h => congrArg Host.Outcome.next (wholly_congr h)
    refine ⟨fun hearly u hput => hwrite _ (evWrite_of_late hwritable hfirst hearly hput), fun hlate ho => hwrite _ (evWrite_of_none hwritable hfirst hlate ho), ?_⟩
    intro hlate e ho taken
    exact ⟨fun hfull hsev => hwrite _ (evWrite_of_lost hwritable hfirst hlate ho hfull hsev),
      fun hfull hsev u hput => hwrite _ (evWrite_of_fatal hwritable hfirst hlate ho hfull hsev hput),
      fun hroom u hput => hwrite _ (evWrite_of_room hwritable hfirst hlate ho hroom hput)⟩
  · intro cons behind
    have hcons : exec (.consWrite q v) s = .next (s.wEvqptr n v.toNat).ok := congrArg Host.Outcome.next (hostWrite_of_answers _ hans)
    refine ⟨fun hfar => hcons.trans (congrArg (fun t : State => Host.Outcome.next t.ok) (if_pos hfar)), ?_⟩
    intro hnear t
    exact hcons.trans (congrArg (fun t : State => Host.Outcome.next t.ok) (wEvqptr_of_within hnear rfl))
  · have hctl : ∀ f : State → State, s.hostWrite .GLB_SEDCTL 0 f = (f s).ok := fun f => hostWrite_of_answers f hans
    refine ⟨congrArg Host.Outcome.next (hctl _), congrArg Host.Outcome.next ((hctl _).trans ?_), congrArg Host.Outcome.next ((hctl _).trans ?_)⟩
    · rw [show b2n true * 2 ^ 61 = 2 ^ 61 from rfl]
    · rw [show b2n false * 2 ^ 61 = 0 from rfl, Nat.add_zero]
  · exact ⟨fun hrole hsrc p => execSed_request (p := p) htaken hrole hsrc, fun hrole hst hcur p data => execSed_end (p := p) htaken hrole hst hcur⟩
  · have hrun : ¬ (s.role ≠ 2 || s.rd F.GLB_SEDAGGSTAT_STATE 0 != 1) = true := by simp [hrole, hst]
    exact ⟨fun hretry => (if_neg hrun).trans (if_pos (by rw [hretry]; rfl)), fun hretry => (if_neg hrun).trans (if_neg (by rw [hretry]; decide))⟩

end Sys2Proof.Proofs

/-! One element in the tile stores (05_number_formats.md R130, R148; 07_jet_engines.md R187, R198, R202). -/
namespace Sys2Proof.Proofs
open Sys2Proof Sys2Proof.Machine

/-! ## The end of an instruction leaves the tile stores -/

@[simp] theorem memberAborts_tiles (s : State) (m : Nat × Nat × Nat × Nat) (w : Nat) : (s.memberAborts m w).tiles = s.tiles := by
  unfold State.memberAborts
  dsimp only
  (repeat' split) <;> simp

@[simp] theorem send_tiles (s : State) (typ : Nat) (bc pri : Bool) (dst : Nat) (payload : List Nat) :
    (s.send typ bc pri dst payload).tiles = s.tiles := by
  unfold State.send
  split <;> rfl

@[simp] theorem txClose_tiles (s : State) (t w : Nat) (l : List Nat) (tell : Bool) : (s.txClose t w l tell).tiles = s.tiles := by
  have hmembers : ∀ (ms : List (Nat × Nat × Nat × Nat)) (u : State), (foldS ms u fun u m =>
      if m.1 ∈ l then u.updSp m.1 fun y => { y with tx := none, txAbort := none, signals := [] } else u.memberAborts m w).tiles = u.tiles :=
    foldS_keeps fun u m => by (repeat' split) <;> simp
  unfold State.txClose
  dsimp only
  (repeat' split) <;> simp [State.castVote, hmembers, State.reportAbort]

@[simp] theorem txStop_tiles (s : State) (n c d : Nat) : (s.txStop n c d).tiles = s.tiles := by
  unfold State.txStop
  split
  · rfl
  · split <;> simp

@[simp] theorem leaveTx_tiles (s : State) (n : Nat) : (s.leaveTx n).tiles = s.tiles := by
  unfold State.leaveTx
  split <;> simp

@[simp] theorem goto_tiles (s : State) (n a : Nat) : (s.goto n a).tiles = s.tiles := by
  unfold State.goto State.boundary
  dsimp only
  split
  · split <;> simp [State.engineStop, State.stopCmd, State.spEvent]
  · simp

@[simp] theorem countMacs_tiles (s : State) (e m : Nat) : (s.countMacs e m).tiles = s.tiles := by
  unfold State.countMacs
  split <;> rfl

/-- R118: a data instruction that ends leaves the tile stores as its work left them. -/
theorem ended_tiles (s : State) (n : Nat) (q : InProg) : (s.ended n q).tiles = s.tiles := by
  simp [State.ended, setFlags_tiles]

/-! ## Bytes of the tile stores -/

theorem leNat_lt (l : Bytes) : leNat l < 2 ^ (8 * l.length) := by
  induction l with
  | nil => exact Nat.one_pos
  | cons b l ih =>
    have hb := b.isLt
    rw [leNat, List.length_cons, Nat.mul_succ, Nat.pow_add]
    omega

theorem tileBytes_length (s : State) (a n : Nat) : (s.tileBytes a n).length = n := by
  rw [State.tileBytes, List.length_map, List.length_range]

/-- The bytes put from a place on, as one run. -/
theorem putRun_eq_foldl (m : Store Byte) (a : Nat) (l : Bytes) :
    (List.range l.length).foldl (fun m k => Store.put 0 m (a + k) (l.getD k 0#8)) m = putRun m a l := by
  induction l generalizing m a with
  | nil => rfl
  | cons b l ih =>
    rw [List.length_cons, List.range_succ_eq_map, List.foldl_cons, List.foldl_map, putRun, ← ih]
    simp [Nat.add_assoc, Nat.add_comm 1]

theorem putTile_tiles (s : State) (a : Nat) (l : Bytes) : (s.putTile a l).tiles = putRun s.tiles a l := putRun_eq_foldl s.tiles a l

theorem tileBytes_putTile_same (s : State) (a : Nat) (l : Bytes) : (s.putTile a l).tileBytes a l.length = l := by
  apply List.ext_getElem (tileBytes_length _ _ _)
  intro k _ hk
  simp only [State.tileBytes, List.getElem_map, List.getElem_range, putTile_tiles]
  rw [List.getElem_eq_getD (h := hk) 0#8]
  exact putRun_get_in s.tiles a k l hk

/-! ## An element that starts a granule of a tile -/

/-- The operand's one element is whole bytes of a tile from the start of a granule on, and has no block scale. -/
structure AtTile (o : Opnd) : Prop where
  tile : o.tile = true
  plain : o.bsm = 0
  aligned : o.base % 64 = 0
  bytes : 8 * (o.w / 8) = o.w
  pos : 0 < o.w
  le : o.w ≤ 512

/-- R162: a tile's place is a multiple of 4,096. -/
theorem opnd_base_aligned {x : Spout} {n : Nat} {spec : BitVec 4} {dd : BitVec 2} (htile : (x.opnd n spec dd).tile = true) :
    (x.opnd n spec dd).base % 64 = 0 := by
  have hspec : spec.getLsbD 3 = true := by
    simp only [Spout.opnd] at htile
    split at htile <;> exact htile
  have hbase : (x.opnd n spec dd).base = jetOf n * 2 ^ 20 + x.tileBase (spec.toNat % 8) := by
    simp only [Spout.opnd, hspec, if_true]
    split <;> rfl
  rw [hbase, Spout.tileBase]
  omega

theorem atTile_of_opnd {x : Spout} {n : Nat} {spec : BitVec 4} {dd : BitVec 2} (htile : (x.opnd n spec dd).tile = true)
    (hplain : (x.opnd n spec dd).bsm = 0) (hw : [8, 16, 32, 64].contains (x.opnd n spec dd).w = true) : AtTile (x.opnd n spec dd) := by
  simp only [List.contains_eq_mem, List.mem_cons, List.not_mem_nil, or_false, decide_eq_true_eq] at hw
  exact ⟨htile, hplain, opnd_base_aligned htile, by omega, by omega, by omega⟩

theorem bit_zero (o : Opnd) : o.bit 0 0 = 0 := by simp [Opnd.bit]

theorem at_zero_of_tile {o : Opnd} (htile : o.tile = true) : o.at 0 = 8 * o.base := by
  rw [Opnd.at, if_pos htile]
  omega

theorem pieces_of_aligned {a w : Nat} (ha : a % 64 = 0) (hw : w ≤ 512) : pieces (8 * a) w = [(a / 64, 0, w, 0)] := by
  have hoff : 8 * a % 512 = 0 := by omega
  have hgran : 8 * a / 512 = a / 64 := by omega
  simp only [pieces, hoff, hgran, Nat.sub_zero, Nat.min_eq_left hw, Nat.lt_irrefl, if_false]

theorem tileBits_of_aligned {b : Bk} {o : Opnd} (ho : AtTile o) (hstaged : b.staged = []) :
    b.tileBits (8 * o.base) o.w = leNat (b.s.tileBytes o.base (o.w / 8)) := by
  obtain ⟨_, _, haligned, hbytes, hpos, hle⟩ := ho
  have hlo : o.base / 64 * 64 = o.base := by omega
  have hlen : (o.w + 7) / 8 = o.w / 8 := by omega
  have hlt := leNat_lt (b.s.tileBytes o.base (o.w / 8))
  rw [tileBytes_length, hbytes] at hlt
  rw [Bk.tileBits, pieces_of_aligned haligned hle]
  simp only [List.foldl_cons, List.foldl_nil, hstaged, List.find?_nil, Nat.zero_mod, Nat.zero_div, Nat.zero_add, Nat.add_zero, hlo, hlen, bits,
    Nat.shiftRight_zero, Nat.pow_zero, Nat.mul_one, Nat.sub_zero, Nat.sub_add_cancel hpos, Nat.mod_eq_of_lt hlt]

theorem elem_of_atTile {b : Bk} {o : Opnd} (ho : AtTile o) (hstaged : b.staged = []) (hstop : b.stop = none) :
    b.elem o 0 0 = (b, codeValue o.fmt (leNat (b.s.tileBytes o.base (o.w / 8))) false) := by
  have hcode : b.code o 0 0 = (b, leNat (b.s.tileBytes o.base (o.w / 8))) := by
    rw [Bk.code, hstop, bit_zero, Bk.read, if_pos ho.tile, at_zero_of_tile ho.tile, tileBits_of_aligned ho hstaged]
    rfl
  rw [Bk.elem, hcode]
  exact if_pos ho.plain

theorem write_of_atTile {b : Bk} {o : Opnd} (ho : AtTile o) (hgood : b.good = true) (v : Nat) :
    b.write o (o.bit 0 0) o.w v = { b with s := b.s.putTile o.base (toLE (o.w / 8) (v % 2 ^ o.w)) } := by
  obtain ⟨htile, _, _, hbytes, hpos, _⟩ := ho
  have hlen : (o.w + 7) / 8 = o.w / 8 := by omega
  have hoff : 8 * o.base % 8 = 0 := by omega
  have hlo : 8 * o.base / 8 = o.base := by omega
  have hold := leNat_lt (b.s.tileBytes o.base (o.w / 8))
  rw [tileBytes_length, hbytes] at hold
  have hset : setBits (leNat (b.s.tileBytes o.base (o.w / 8))) (o.w - 1) 0 v = v % 2 ^ o.w := by
    simp only [setBits, bits, Nat.shiftRight_zero, Nat.pow_zero, Nat.mul_one, Nat.sub_zero, Nat.sub_add_cancel hpos, Nat.mod_eq_of_lt hold,
      Nat.sub_self, Nat.zero_add]
  simp only [Bk.write, hgood, bit_zero, at_zero_of_tile htile, htile, hoff, hlo, hlen, Nat.zero_add, hset, Bool.not_true, Bool.false_eq_true, if_false,
    if_true]

/-! ## One result -/

/-- A destination of one element without block scales takes the one result that its work computes. -/
theorem emitAll_of_one {d : Opnd} (hplain : d.bsm = 0) (h0 : d.n0 = 1) (h1 : d.n1 = 1) (b : Bk) (rm : Nat) (sat : Bool)
    (g : Bk → Nat → Bk × Val × Val × Nat) :
    (b.emitAll d rm sat g).1 = (({ (g b 0).1 with flags := (g b 0).1.flags ||| (g b 0).2.2.2 } : Bk).emit d 0 rm sat [((g b 0).2.1, (g b 0).2.2.1)]).1 := by
  have hunit : d.unit = 1 := if_pos hplain
  have hcount : d.count / 1 = 1 := by rw [Opnd.count, h0, h1]
  simp only [Bk.emitAll, hunit, hcount, List.range_one, List.foldl_cons, List.foldl_nil, Nat.mul_zero, Nat.add_zero, List.reverse_singleton]

/-- R148: the result is converted and written; no random value is drawn for it, and nothing waits in the write buffer for it. -/
theorem emit_of_atTile {b : Bk} {d : Opnd} (hd : AtTile d) (h0 : d.n0 = 1) (hgood : b.good = true) {rm : Nat} (hrm : rm < 4) (sat : Bool) (v e : Val) :
    (b.emit d 0 rm sat [(v, e)]).1.s = b.s.putTile d.base (toLE (d.w / 8) ((convert d.fmt rm sat 0 v 1).bits % 2 ^ d.w)) ∧
      (b.emit d 0 rm sat [(v, e)]).1.wbuf = b.wbuf := by
  have hdraw : ∀ r : Draw, r.next rm = (0, r) := fun r => if_pos (by omega)
  have hwrite := fun flags => write_of_atTile (b := { b with flags := flags }) hd hgood (convert d.fmt rm sat 0 v 1).bits
  simp only [Bk.emit, hgood, hd.plain, h0, hdraw, Nat.zero_div, Nat.mod_one, List.length_singleton, List.range_one, List.foldl_cons, List.foldl_nil,
    List.getD_cons_zero, Nat.add_zero, Bool.not_true, Bool.false_eq_true, if_false, if_true, hwrite]
  split <;> exact ⟨rfl, rfl⟩

theorem close_s_of_unbuffered {b : Bk} (hbuf : b.wbuf = none) : b.close.s = b.s := by
  simp only [Bk.close, Bk.flush, hbuf]

/-- The value that an operation computes on one element of its sources in tiles. -/
def ewResult (s : State) (f : FormD) (o : Ew) (a c : Opnd) : Val :=
  let value := fun (q : Opnd) => codeValue q.fmt (leNat (s.tileBytes q.base (q.w / 8))) false
  o.value (f.rm == 3) (value a) (if o.two then value c else .zero) .zero

section Work
variable {b : Bk} {x : Spout} {n : Nat} {f : FormD} {o : Ew} {d a c : Opnd}

/-- R198: the work of an operation that reads neither its destination nor a scalar, on one element in tiles. -/
theorem ewRun_of_atTile (hod : x.opnd n f.od f.dd = d) (hoa : x.opnd n f.oa f.da = a) (hob : x.opnd n f.ob f.db = c) (hread : o ≠ .fma)
    (hscalar : o ≠ .scale) (hd : AtTile d) (h0 : d.n0 = 1) (h1 : d.n1 = 1) (hrm : f.rm.toNat < 4) (ha : AtTile a) (hc : o.two = true → AtTile c)
    (hstaged : b.staged = []) (hstop : b.stop = none) (hgood : b.good = true) (hbuf : b.wbuf = none) :
    ((ewPlan f x n o).run b).close.s =
      b.s.putTile d.base (toLE (d.w / 8) ((convert d.fmt f.rm.toNat f.sat 0 (ewResult b.s f o a c) 1).bits % 2 ^ d.w)) := by
  have hdown : (f.rm.toNat == 3) = (f.rm == 3) := by
    rw [Bool.eq_iff_iff, beq_iff_eq, beq_iff_eq, ← BitVec.toNat_inj]
    rfl
  have hsecond : (if o.two then b.elem c 0 0 else (b, if o = .scale then codeValue fp64 (x.gv f.gx.toNat) false else .zero)) =
      (b, if o.two then codeValue c.fmt (leNat (b.s.tileBytes c.base (c.w / 8))) false else .zero) := by
    cases htwo : o.two
    · exact congrArg (Prod.mk b) (if_neg hscalar)
    · exact elem_of_atTile (hc htwo) hstaged hstop
  have hemit := fun flags v => emit_of_atTile (b := { b with flags := flags }) hd h0 hgood hrm f.sat v v
  simp only [ewPlan, hod, hoa, hob, emitAll_of_one hd.plain h0 h1, Nat.zero_mod, Nat.zero_div, elem_of_atTile ha hstaged hstop, hsecond, hread, if_false,
    hdown]
  rw [close_s_of_unbuffered]
  · exact (hemit _ (ewResult b.s f o a c)).1
  · exact (hemit _ (ewResult b.s f o a c)).2.trans hbuf

end Work

/-- The state that the end of an instruction's work leaves holds the tiles of the work's end. -/
theorem workDone_tiles {s t : State} {n : Nat} {w : Work} {p : InProg} (hdone : s.workDone n w p t) : t.tiles = (w.run (s.bk n p)).close.s.tiles := by
  obtain ⟨_, _, _, _, rfl⟩ := hdone
  simp [ended_tiles]

theorem tileBytes_congr {s t : State} (h : t.tiles = s.tiles) (a n : Nat) : t.tileBytes a n = s.tileBytes a n := by
  rw [State.tileBytes, State.tileBytes, h]

/-- Settles O17. A tile starts at a multiple of 4,096, so its one element lies in one granule and is written alone. -/
theorem oneElementInTiles : Obligations.OneElementInTiles := by
  unfold Obligations.OneElementInTiles
  intro s h i f o t n x d a c code hop htile hplain hw h0 h1 hrm hatile haplain haw hc _ hdone v
  have hd : AtTile d := atTile_of_opnd htile hplain hw
  have ha : AtTile a := atTile_of_opnd hatile haplain haw
  have hc' : o.two = true → AtTile c := fun htwo =>
    have ⟨hctile, hcplain, hcw⟩ := hc htwo
    atTile_of_opnd hctile hcplain hcw
  have htiles : t.tiles = (s.putTile d.base (toLE (d.w / 8) ((convert d.fmt f.rm.toNat f.sat 0 v 1).bits % 2 ^ d.w))).tiles := by
    rw [workDone_tiles hdone]
    exact congrArg State.tiles (ewRun_of_atTile rfl rfl rfl (by rintro rfl; cases hop) (by rintro rfl; cases hop) hd h0 h1 hrm ha hc' rfl rfl rfl rfl)
  have hlen := toLE_length (d.w / 8) ((convert d.fmt f.rm.toNat f.sat 0 v 1).bits % 2 ^ d.w)
  constructor
  · have hput := tileBytes_putTile_same s d.base (toLE (d.w / 8) ((convert d.fmt f.rm.toNat f.sat 0 v 1).bits % 2 ^ d.w))
    rw [hlen] at hput
    rw [tileBytes_congr htiles, hput, leNat_toLE, hd.bytes, Nat.mod_mod]
  · intro k hk
    rw [htiles, putTile_tiles]
    exact putRun_get_out s.tiles d.base k _ (by rw [hlen]; exact hk)

end Sys2Proof.Proofs
